-- ==== Sys2Proof/Word.lean ====
section
/-! DEFINITION. The word types of the D9 (R3, R4, R66): 64-bit words, bytes, register numbers. -/

namespace Sys2Proof

/-- A 64-bit word: what a g register, a queue entry or a CSR holds (R66, R71). -/
abbrev Word := BitVec 64

/-- One byte of any storage (R4). -/
abbrev Byte := BitVec 8

/-- A 5-bit register field of an instruction word (R37). -/
abbrev Reg := BitVec 5

end Sys2Proof
end

