-- ==== Sys2Proof/Config.lean ====
section
/-! DEFINITION. The sizes the spec fixes for every D9, and the values it leaves open. An open value is an opaque
constant: nothing in Lean can find out what it is, so a statement holds for every value. -/

namespace Sys2Proof.Config

/-- Slots of a core (R60). -/
def slots : Nat := 16

/-- Cores of the package (R16). -/
def cores : Nat := 1024

/-- Episode contexts of the Causeway (R365). -/
def episodeContexts : Nat := 512

/-- Bytes of a core's scratchpad (R153). -/
def spadBytes : Nat := 524288

/-- Miss registers of a core (R148). -/
def missRegisters : Nat := 48

/-- A value the spec leaves undefined (R9), by the model's counter of free values (assumption 2). -/
opaque freeValue : Nat → Word

/-- An undefined byte of a storage (R9): the counter of free values and the byte's address (assumption 2). -/
opaque freeByte : Nat → Nat → Byte

/-- A copy's promise: what it adds to TB, from the copies on the channel and the cluster's energy budget; the method is not
architectural (R267). The first argument is the model's counter of free values (assumption 2). -/
opaque promise : Nat → Nat → Word → Word

/-- Which pier slice of its home die a line is homed on: "chosen by the line's physical address" (R152). -/
opaque homeSlice : Nat → Nat

/-- Which of several candidates a replacement takes: not architectural (R152, assumption 6). -/
opaque victim : Nat → Nat

/-- The tag a datagram must carry: an SM3-HMAC under a provisioned key (R414). Arguments: the key, the
interface, the sequence number and the bytes of the command. -/
opaque datagramTag : Nat → Nat → Nat → List Byte → BitVec 128

/-- The SM3 measurement of some bytes (R427). -/
opaque measure : List Byte → List Byte

/-- The SM2 signature of a quote (R427). -/
opaque quoteSignature : List Byte → List Byte

/-- The certificate of the package's SM2 key (R427). -/
opaque certificate : Nat → List Byte

/-- The supervisor image the firmware loads into a partition at bring-up (R423): where its code begins. -/
opaque supervisorEntry : Nat → BitVec 53

/-- The bytes of that image, as the security engine measures them (R427). -/
opaque supervisorImage : Nat → List Byte

/-- The firmware and the signed limit record, as the boot ROM finds them (R425, R427). -/
opaque firmwareImage : List Byte
opaque limitRecord : List Byte

/-- What the limit record holds besides the clock frequencies and the power limit (R425): the voltage range of each rail, in mV, and
the thermal trip temperature. -/
opaque railRanges : List (Nat × Nat)
opaque tripTemperature : Nat

/-- The UDP port that the management core sets for Irham (R414). -/
opaque irhamPort : Nat

/-- The package's ordinal in the UALink domain, assigned by the management firmware at bring-up (R31, R424). -/
opaque packageOrdinal : Nat

/-- A partition's share of the 4,096-entry task-graph table (R342), which the spec does not number; see
`Partition.share`. -/
opaque graphShare : Nat → Nat

end Sys2Proof.Config
end

