-- ==== Sys2Proof/Syntax.lean ====
section
/-! DEFINITION. The syntax of one step of the D9: one constructor for each row of spec/opcode_table.json.
The rows with an encoding are the instructions of R39 to R48. The rows without one are the steps that the
device's engines, networks, hub, host and management core take (95_what_each_step_holds.md); their arguments
name the record of `Machine.State` that the step acts on, or carry what comes from outside the device. -/

namespace Sys2Proof

/-- One step of the machine: an instruction, or a step of a unit or of a party outside the cores. -/
inductive Instr where
  /-- R137, LDB: Loads a sign-extended byte through the pointer path into gd. -/
  | ldb (imm : BitVec 12) (a : Reg) (d : Reg)
  /-- R137, LDH: Loads a sign-extended halfword into gd. -/
  | ldh (imm : BitVec 12) (a : Reg) (d : Reg)
  /-- R137, LDW: Loads a sign-extended word into gd. -/
  | ldw (imm : BitVec 12) (a : Reg) (d : Reg)
  /-- R137, LDD: Loads a doubleword into gd. -/
  | ldd (imm : BitVec 12) (a : Reg) (d : Reg)
  /-- R137, LDBU: Loads a zero-extended byte into gd. -/
  | ldbu (imm : BitVec 12) (a : Reg) (d : Reg)
  /-- R137, LDHU: Loads a zero-extended halfword into gd. -/
  | ldhu (imm : BitVec 12) (a : Reg) (d : Reg)
  /-- R137, LDWU: Loads a zero-extended word into gd. -/
  | ldwu (imm : BitVec 12) (a : Reg) (d : Reg)
  /-- R141, PREF: Hints that the line containing the pointer be fetched into L1, cluster cache or pier. -/
  | pref (imm : BitVec 12) (a : Reg) (level : Reg)
  /-- R137, STB: Stores the low byte of gb through the pointer path. -/
  | stb (imm : BitVec 12) (b : Reg) (a : Reg)
  /-- R137, STH: Stores the low halfword of gb. -/
  | sth (imm : BitVec 12) (b : Reg) (a : Reg)
  /-- R137, STW: Stores the low word of gb. -/
  | stw (imm : BitVec 12) (b : Reg) (a : Reg)
  /-- R137, STD: Stores the doubleword gb. -/
  | std (imm : BitVec 12) (b : Reg) (a : Reg)
  /-- R142, CPIN: Sets the pin bit of the L1 line holding the pointer, allocating it if absent. -/
  | cpin (imm : BitVec 12) (a : Reg)
  /-- R142, CUNPIN: Clears the pin bit of the L1 line holding the pointer. -/
  | cunpin (imm : BitVec 12) (a : Reg)
  /-- R142, CFLUSH: Writes the line's dirty words back to its home pier and drops it from L1 and cluster cache. -/
  | cflush (imm : BitVec 12) (a : Reg)
  /-- R75, ADDI: Adds a sign-extended immediate to ga. -/
  | addi (imm : BitVec 12) (a : Reg) (d : Reg)
  /-- R75, ANDI: Bitwise AND of ga with an immediate. -/
  | andi (imm : BitVec 12) (a : Reg) (d : Reg)
  /-- R75, ORI: Bitwise OR of ga with an immediate. -/
  | ori (imm : BitVec 12) (a : Reg) (d : Reg)
  /-- R75, XORI: Bitwise XOR of ga with an immediate. -/
  | xori (imm : BitVec 12) (a : Reg) (d : Reg)
  /-- R75, SLTI: Writes 1 if ga is signed-less than the immediate. -/
  | slti (imm : BitVec 12) (a : Reg) (d : Reg)
  /-- R75, SLTIU: Writes 1 if ga is unsigned-less than the sign-extended immediate. -/
  | sltiu (imm : BitVec 12) (a : Reg) (d : Reg)
  /-- R76, SLLI: Shifts ga left by an immediate count. -/
  | slli (n : BitVec 6) (a : Reg) (d : Reg)
  /-- R76, SRLI: Shifts ga right logically by an immediate count. -/
  | srli (n : BitVec 6) (a : Reg) (d : Reg)
  /-- R76, SRAI: Shifts ga right arithmetically by an immediate count. -/
  | srai (n : BitVec 6) (a : Reg) (d : Reg)
  /-- R76, RORI: Rotates ga right by an immediate count. -/
  | rori (n : BitVec 6) (a : Reg) (d : Reg)
  /-- R77, SEXTB: Sign-extends the low byte of ga. -/
  | sextb (a : Reg) (d : Reg)
  /-- R77, SEXTH: Sign-extends the low halfword of ga. -/
  | sexth (a : Reg) (d : Reg)
  /-- R77, SEXTW: Sign-extends the low word of ga. -/
  | sextw (a : Reg) (d : Reg)
  /-- R77, ZEXTB: Zero-extends the low byte of ga. -/
  | zextb (a : Reg) (d : Reg)
  /-- R77, ZEXTH: Zero-extends the low halfword of ga. -/
  | zexth (a : Reg) (d : Reg)
  /-- R77, ZEXTW: Zero-extends the low word of ga. -/
  | zextw (a : Reg) (d : Reg)
  /-- R78, ADD: Adds ga and gb modulo 2^64. -/
  | add (b : Reg) (a : Reg) (d : Reg)
  /-- R78, SUB: Subtracts gb from ga. -/
  | sub (b : Reg) (a : Reg) (d : Reg)
  /-- R78, AND: Bitwise AND of ga and gb. -/
  | and (b : Reg) (a : Reg) (d : Reg)
  /-- R78, OR: Bitwise OR of ga and gb. -/
  | or (b : Reg) (a : Reg) (d : Reg)
  /-- R78, XOR: Bitwise XOR of ga and gb. -/
  | xor (b : Reg) (a : Reg) (d : Reg)
  /-- R78, SLL: Shifts ga left by gb[5:0]. -/
  | sll (b : Reg) (a : Reg) (d : Reg)
  /-- R78, SRL: Shifts ga right logically by gb[5:0]. -/
  | srl (b : Reg) (a : Reg) (d : Reg)
  /-- R78, SRA: Shifts ga right arithmetically by gb[5:0]. -/
  | sra (b : Reg) (a : Reg) (d : Reg)
  /-- R78, ROR: Rotates ga right by gb[5:0]. -/
  | ror (b : Reg) (a : Reg) (d : Reg)
  /-- R78, SLT: Writes 1 if ga is signed-less than gb. -/
  | slt (b : Reg) (a : Reg) (d : Reg)
  /-- R78, SLTU: Writes 1 if ga is unsigned-less than gb. -/
  | sltu (b : Reg) (a : Reg) (d : Reg)
  /-- R78, MIN: Signed minimum of ga and gb. -/
  | min (b : Reg) (a : Reg) (d : Reg)
  /-- R78, MAX: Signed maximum of ga and gb. -/
  | max (b : Reg) (a : Reg) (d : Reg)
  /-- R78, MINU: Unsigned minimum of ga and gb. -/
  | minu (b : Reg) (a : Reg) (d : Reg)
  /-- R78, MAXU: Unsigned maximum of ga and gb. -/
  | maxu (b : Reg) (a : Reg) (d : Reg)
  /-- R78, MUL: Low 64 bits of the product of ga and gb. -/
  | mul (b : Reg) (a : Reg) (d : Reg)
  /-- R78, MULH: High 64 bits of the signed product. -/
  | mulh (b : Reg) (a : Reg) (d : Reg)
  /-- R78, MULHU: High 64 bits of the unsigned product. -/
  | mulhu (b : Reg) (a : Reg) (d : Reg)
  /-- R79, DIV: Signed division on a shared divider, making gd pending until the result lands. -/
  | div (b : Reg) (a : Reg) (d : Reg)
  /-- R79, DIVU: Unsigned division on a shared divider. -/
  | divu (b : Reg) (a : Reg) (d : Reg)
  /-- R79, REM: Signed remainder on a shared divider. -/
  | rem (b : Reg) (a : Reg) (d : Reg)
  /-- R79, REMU: Unsigned remainder on a shared divider. -/
  | remu (b : Reg) (a : Reg) (d : Reg)
  /-- R78, CLZ: Counts leading zero bits of ga. -/
  | clz (a : Reg) (d : Reg)
  /-- R78, CTZ: Counts trailing zero bits of ga. -/
  | ctz (a : Reg) (d : Reg)
  /-- R78, POPC: Counts one bits of ga. -/
  | popc (a : Reg) (d : Reg)
  /-- R78, BSWAP: Reverses the bytes of ga. -/
  | bswap (a : Reg) (d : Reg)
  /-- R78, SEL: Writes ga if the old gd is nonzero, else gb. -/
  | sel (b : Reg) (a : Reg) (d : Reg)
  /-- R78, ANDN: Writes ga AND NOT gb. -/
  | andn (b : Reg) (a : Reg) (d : Reg)
  /-- R80, ADDW: 32-bit add, sign-extended. -/
  | addw (b : Reg) (a : Reg) (d : Reg)
  /-- R80, SUBW: 32-bit subtract, sign-extended. -/
  | subw (b : Reg) (a : Reg) (d : Reg)
  /-- R80, MULW: 32-bit multiply, sign-extended. -/
  | mulw (b : Reg) (a : Reg) (d : Reg)
  /-- R80, SLLW: 32-bit left shift, sign-extended. -/
  | sllw (b : Reg) (a : Reg) (d : Reg)
  /-- R80, SRLW: 32-bit logical right shift, sign-extended. -/
  | srlw (b : Reg) (a : Reg) (d : Reg)
  /-- R80, SRAW: 32-bit arithmetic right shift, sign-extended. -/
  | sraw (b : Reg) (a : Reg) (d : Reg)
  /-- R80, DIVW: 32-bit signed division on a shared divider. -/
  | divw (b : Reg) (a : Reg) (d : Reg)
  /-- R80, REMW: 32-bit signed remainder on a shared divider. -/
  | remw (b : Reg) (a : Reg) (d : Reg)
  /-- R81, LUI: Writes the sign-extended imm20 shifted left by 12. -/
  | lui (imm : BitVec 20) (d : Reg)
  /-- R82, APC: Writes a GEN pointer of pc plus the shifted imm20. -/
  | apc (imm : BitVec 20) (d : Reg)
  /-- R90, BEQ: Branches if ga equals gb, checking the target. -/
  | beq (off : BitVec 12) (b : Reg) (a : Reg)
  /-- R90, BNE: Branches if ga differs from gb. -/
  | bne (off : BitVec 12) (b : Reg) (a : Reg)
  /-- R90, BLT: Branches if ga is signed-less than gb. -/
  | blt (off : BitVec 12) (b : Reg) (a : Reg)
  /-- R90, BGE: Branches if ga is signed-greater or equal to gb. -/
  | bge (off : BitVec 12) (b : Reg) (a : Reg)
  /-- R90, BLTU: Branches if ga is unsigned-less than gb. -/
  | bltu (off : BitVec 12) (b : Reg) (a : Reg)
  /-- R90, BGEU: Branches if ga is unsigned-greater or equal to gb. -/
  | bgeu (off : BitVec 12) (b : Reg) (a : Reg)
  /-- R90, BFULL: Branches if register a is full, without reading or parking. -/
  | bfull (off : BitVec 12) (a : Reg)
  /-- R90, BEMPTY: Branches if register a is empty or pending. -/
  | bempty (off : BitVec 12) (a : Reg)
  /-- R91, JAL: Jumps to a pc-relative target and writes the link. -/
  | jal (off : BitVec 20) (d : Reg)
  /-- R92, JALR: Jumps to ga plus an offset and writes the link. -/
  | jalr (imm : BitVec 12) (a : Reg) (d : Reg)
  /-- R93, LOOP: Opens a hardware loop with the count in ga, or skips the body for a zero count. -/
  | loop (len : BitVec 12) (a : Reg)
  /-- R93, LOOPI: Opens a hardware loop with an immediate count. -/
  | loopi (len : BitVec 12) (count : BitVec 10)
  /-- R94, LBRK: Leaves the innermost loop, stepping enclosing loops that share its end. -/
  | lbrk
  /-- R95, LNEXT: Ends the current iteration of level 0 at once. -/
  | lnext
  /-- R96, LIDX: Writes the index of a loop level. -/
  | lidx (level : BitVec 3) (d : Reg)
  /-- R97, YIELD: Writes THR_LIVETILE and is a landing point for pending pre-emption. -/
  | yield (mask : BitVec 8)
  /-- R106, PADD: Adds gb to the address field of a pointer, faulting on wrap. -/
  | padd (b : Reg) (a : Reg) (d : Reg)
  /-- R106, PADDI: Adds an immediate to the address field of a pointer. -/
  | paddi (imm : BitVec 12) (a : Reg) (d : Reg)
  /-- R106, PSUB: Subtracts gb from the address field of a pointer. -/
  | psub (b : Reg) (a : Reg) (d : Reg)
  /-- R107, PSETF: Sets the format and block-length fields of a pointer. -/
  | psetf (l : BitVec 3) (f : BitVec 5) (a : Reg) (d : Reg)
  /-- R107, PSETP: Sets the path field of a pointer. -/
  | psetp (path : BitVec 3) (a : Reg) (d : Reg)
  /-- R107, PGETF: Reads the path, format and L fields of a pointer. -/
  | pgetf (a : Reg) (d : Reg)
  /-- R108, PCHK: Reports whether a pointer would be refused for an access described by gb. -/
  | pchk (b : Reg) (a : Reg) (d : Reg)
  /-- R131, FADD: Floating add rounded once by RM. -/
  | fadd (b : Reg) (a : Reg) (fmt : BitVec 2) (d : Reg)
  /-- R131, FSUB: Floating subtract. -/
  | fsub (b : Reg) (a : Reg) (fmt : BitVec 2) (d : Reg)
  /-- R131, FMUL: Floating multiply. -/
  | fmul (b : Reg) (a : Reg) (fmt : BitVec 2) (d : Reg)
  /-- R131, FDIV: Floating divide on a shared divider. -/
  | fdiv (b : Reg) (a : Reg) (fmt : BitVec 2) (d : Reg)
  /-- R131, FSQRT: Floating square root on a shared divider. -/
  | fsqrt (a : Reg) (fmt : BitVec 2) (d : Reg)
  /-- R131, FMA: Fused multiply-add with the old gd as addend. -/
  | fma (b : Reg) (a : Reg) (fmt : BitVec 2) (d : Reg)
  /-- R132, FMIN: Floating minimum. -/
  | fmin (b : Reg) (a : Reg) (fmt : BitVec 2) (d : Reg)
  /-- R132, FMAX: Floating maximum. -/
  | fmax (b : Reg) (a : Reg) (fmt : BitVec 2) (d : Reg)
  /-- R133, FNEG: Inverts the sign bit. -/
  | fneg (a : Reg) (fmt : BitVec 2) (d : Reg)
  /-- R133, FABS: Clears the sign bit. -/
  | fabs (a : Reg) (fmt : BitVec 2) (d : Reg)
  /-- R133, FSGN: Copies the sign of gb onto ga. -/
  | fsgn (b : Reg) (a : Reg) (fmt : BitVec 2) (d : Reg)
  /-- R134, FEQ: Writes 1 if the operands are equal. -/
  | feq (b : Reg) (a : Reg) (fmt : BitVec 2) (d : Reg)
  /-- R134, FLT: Writes 1 if a is less than b. -/
  | flt (b : Reg) (a : Reg) (fmt : BitVec 2) (d : Reg)
  /-- R134, FLE: Writes 1 if a is less than or equal to b. -/
  | fle (b : Reg) (a : Reg) (fmt : BitVec 2) (d : Reg)
  /-- R134, FCLS: Writes the class mask of a. -/
  | fcls (a : Reg) (fmt : BitVec 2) (d : Reg)
  /-- R135, FCVTI: Converts a float to an integer under the control field. -/
  | fcvti (c : BitVec 5) (a : Reg) (fmt : BitVec 2) (d : Reg)
  /-- R135, FCVTF: Converts an integer to a float under the control field. -/
  | fcvtf (c : BitVec 5) (a : Reg) (fmt : BitVec 2) (d : Reg)
  /-- R136, FCVTFF: Converts between floating formats, possibly stochastically. -/
  | fcvtff (c : BitVec 5) (a : Reg) (fmt : BitVec 2) (d : Reg)
  /-- R193, VLD: Dispatches a unit-stride vector load with format conversion. -/
  | vld (cb : Bool) (mk : Bool) (a : Reg) (vd : Reg)
  /-- R193, VLDS: Dispatches a strided vector load. -/
  | vlds (cb : Bool) (mk : Bool) (b : Reg) (a : Reg) (vd : Reg)
  /-- R193, VLDX: Dispatches an indexed vector load. -/
  | vldx (cb : Bool) (mk : Bool) (vb : Reg) (a : Reg) (vd : Reg)
  /-- R193, VST: Dispatches a unit-stride vector store. -/
  | vst (cb : Bool) (mk : Bool) (a : Reg) (vd : Reg)
  /-- R193, VSTS: Dispatches a strided vector store. -/
  | vsts (cb : Bool) (mk : Bool) (b : Reg) (a : Reg) (vd : Reg)
  /-- R193, VSTX: Dispatches an indexed vector store. -/
  | vstx (cb : Bool) (mk : Bool) (vb : Reg) (a : Reg) (vd : Reg)
  /-- R194, VLDA: Dispatches an asynchronous gather whose reads land later. -/
  | vlda (cb : Bool) (mk : Bool) (vb : Reg) (a : Reg) (vd : Reg)
  /-- R193, VLDM: Loads 256 bytes into a mask register. -/
  | vldm (cb : Bool) (a : Reg) (md : BitVec 3)
  /-- R193, VSTM: Stores a mask register's 256 bytes. -/
  | vstm (cb : Bool) (a : Reg) (md : BitVec 3)
  /-- R200, VADD: Element-wise integer add. -/
  | vadd (cb : Bool) (mk : Bool) (vb : Reg) (va : Reg) (kind : BitVec 2) (vd : Reg)
  /-- R200, VSUB: Element-wise integer subtract. -/
  | vsub (cb : Bool) (mk : Bool) (vb : Reg) (va : Reg) (kind : BitVec 2) (vd : Reg)
  /-- R200, VMUL: Element-wise low product. -/
  | vmul (cb : Bool) (mk : Bool) (vb : Reg) (va : Reg) (kind : BitVec 2) (vd : Reg)
  /-- R200, VMULH: Element-wise signed high product. -/
  | vmulh (cb : Bool) (mk : Bool) (vb : Reg) (va : Reg) (kind : BitVec 2) (vd : Reg)
  /-- R200, VMULHU: Element-wise unsigned high product. -/
  | vmulhu (cb : Bool) (mk : Bool) (vb : Reg) (va : Reg) (kind : BitVec 2) (vd : Reg)
  /-- R200, VMADD: Element-wise multiply-add into vd. -/
  | vmadd (cb : Bool) (mk : Bool) (vb : Reg) (va : Reg) (kind : BitVec 2) (vd : Reg)
  /-- R200, VMIN: Element-wise signed minimum. -/
  | vmin (cb : Bool) (mk : Bool) (vb : Reg) (va : Reg) (kind : BitVec 2) (vd : Reg)
  /-- R200, VMAX: Element-wise signed maximum. -/
  | vmax (cb : Bool) (mk : Bool) (vb : Reg) (va : Reg) (kind : BitVec 2) (vd : Reg)
  /-- R200, VMINU: Element-wise unsigned minimum. -/
  | vminu (cb : Bool) (mk : Bool) (vb : Reg) (va : Reg) (kind : BitVec 2) (vd : Reg)
  /-- R200, VMAXU: Element-wise unsigned maximum. -/
  | vmaxu (cb : Bool) (mk : Bool) (vb : Reg) (va : Reg) (kind : BitVec 2) (vd : Reg)
  /-- R200, VAND: Element-wise AND. -/
  | vand (cb : Bool) (mk : Bool) (vb : Reg) (va : Reg) (kind : BitVec 2) (vd : Reg)
  /-- R200, VOR: Element-wise OR. -/
  | vor (cb : Bool) (mk : Bool) (vb : Reg) (va : Reg) (kind : BitVec 2) (vd : Reg)
  /-- R200, VXOR: Element-wise XOR. -/
  | vxor (cb : Bool) (mk : Bool) (vb : Reg) (va : Reg) (kind : BitVec 2) (vd : Reg)
  /-- R200, VSLL: Element-wise left shift. -/
  | vsll (cb : Bool) (mk : Bool) (vb : Reg) (va : Reg) (kind : BitVec 2) (vd : Reg)
  /-- R200, VSRL: Element-wise logical right shift. -/
  | vsrl (cb : Bool) (mk : Bool) (vb : Reg) (va : Reg) (kind : BitVec 2) (vd : Reg)
  /-- R200, VSRA: Element-wise arithmetic right shift. -/
  | vsra (cb : Bool) (mk : Bool) (vb : Reg) (va : Reg) (kind : BitVec 2) (vd : Reg)
  /-- R200, VSADD: Element-wise saturating signed add. -/
  | vsadd (cb : Bool) (mk : Bool) (vb : Reg) (va : Reg) (kind : BitVec 2) (vd : Reg)
  /-- R200, VSSUB: Element-wise saturating signed subtract. -/
  | vssub (cb : Bool) (mk : Bool) (vb : Reg) (va : Reg) (kind : BitVec 2) (vd : Reg)
  /-- R201, VCEQ: Sets mask bits where elements are equal. -/
  | vceq (cb : Bool) (mk : Bool) (vb : Reg) (va : Reg) (kind : BitVec 2) (md : BitVec 3)
  /-- R201, VCNE: Sets mask bits where elements differ. -/
  | vcne (cb : Bool) (mk : Bool) (vb : Reg) (va : Reg) (kind : BitVec 2) (md : BitVec 3)
  /-- R201, VCLT: Sets mask bits where x is signed-less than y. -/
  | vclt (cb : Bool) (mk : Bool) (vb : Reg) (va : Reg) (kind : BitVec 2) (md : BitVec 3)
  /-- R201, VCLE: Sets mask bits where x is signed-less or equal to y. -/
  | vcle (cb : Bool) (mk : Bool) (vb : Reg) (va : Reg) (kind : BitVec 2) (md : BitVec 3)
  /-- R201, VCLTU: Sets mask bits where x is unsigned-less than y. -/
  | vcltu (cb : Bool) (mk : Bool) (vb : Reg) (va : Reg) (kind : BitVec 2) (md : BitVec 3)
  /-- R201, VCLEU: Sets mask bits where x is unsigned-less or equal to y. -/
  | vcleu (cb : Bool) (mk : Bool) (vb : Reg) (va : Reg) (kind : BitVec 2) (md : BitVec 3)
  /-- R202, VFADD: Element-wise floating add. -/
  | vfadd (cb : Bool) (mk : Bool) (vb : Reg) (va : Reg) (kind : BitVec 2) (vd : Reg)
  /-- R202, VFSUB: Element-wise floating subtract. -/
  | vfsub (cb : Bool) (mk : Bool) (vb : Reg) (va : Reg) (kind : BitVec 2) (vd : Reg)
  /-- R202, VFMUL: Element-wise floating multiply. -/
  | vfmul (cb : Bool) (mk : Bool) (vb : Reg) (va : Reg) (kind : BitVec 2) (vd : Reg)
  /-- R202, VFDIV: Element-wise floating divide. -/
  | vfdiv (cb : Bool) (mk : Bool) (vb : Reg) (va : Reg) (kind : BitVec 2) (vd : Reg)
  /-- R202, VFSQRT: Element-wise floating square root. -/
  | vfsqrt (cb : Bool) (mk : Bool) (va : Reg) (vd : Reg)
  /-- R202, VFMA: Element-wise fused multiply-add. -/
  | vfma (cb : Bool) (mk : Bool) (vb : Reg) (va : Reg) (kind : BitVec 2) (vd : Reg)
  /-- R202, VFMS: Element-wise fused multiply-subtract. -/
  | vfms (cb : Bool) (mk : Bool) (vb : Reg) (va : Reg) (kind : BitVec 2) (vd : Reg)
  /-- R202, VFNMA: Element-wise negated-product fused add. -/
  | vfnma (cb : Bool) (mk : Bool) (vb : Reg) (va : Reg) (kind : BitVec 2) (vd : Reg)
  /-- R202, VFMIN: Element-wise floating minimum. -/
  | vfmin (cb : Bool) (mk : Bool) (vb : Reg) (va : Reg) (kind : BitVec 2) (vd : Reg)
  /-- R202, VFMAX: Element-wise floating maximum. -/
  | vfmax (cb : Bool) (mk : Bool) (vb : Reg) (va : Reg) (kind : BitVec 2) (vd : Reg)
  /-- R202, VFABS: Clears element sign bits. -/
  | vfabs (cb : Bool) (mk : Bool) (va : Reg) (vd : Reg)
  /-- R202, VFNEG: Inverts element sign bits. -/
  | vfneg (cb : Bool) (mk : Bool) (va : Reg) (vd : Reg)
  /-- R205, VFRCP: Approximates 1/x by a fixed FP32 procedure. -/
  | vfrcp (cb : Bool) (mk : Bool) (va : Reg) (vd : Reg)
  /-- R206, VFRSQ: Approximates 1/sqrt(x) by a fixed FP32 procedure. -/
  | vfrsq (cb : Bool) (mk : Bool) (va : Reg) (vd : Reg)
  /-- R207, VFEXP2: Approximates 2^x by a fixed FP32 procedure. -/
  | vfexp2 (cb : Bool) (mk : Bool) (va : Reg) (vd : Reg)
  /-- R203, VFCEQ: Sets mask bits where elements compare equal. -/
  | vfceq (cb : Bool) (mk : Bool) (vb : Reg) (va : Reg) (kind : BitVec 2) (md : BitVec 3)
  /-- R203, VFCLT: Sets mask bits where x < y. -/
  | vfclt (cb : Bool) (mk : Bool) (vb : Reg) (va : Reg) (kind : BitVec 2) (md : BitVec 3)
  /-- R203, VFCLE: Sets mask bits where x <= y. -/
  | vfcle (cb : Bool) (mk : Bool) (vb : Reg) (va : Reg) (kind : BitVec 2) (md : BitVec 3)
  /-- R203, VFCLS: Writes each element's class mask. -/
  | vfcls (cb : Bool) (mk : Bool) (va : Reg) (vd : Reg)
  /-- R176, VCFG: Sets THR_VTYPE and THR_VL on the scalar side and returns the granted VL. -/
  | vcfg (cb : Bool) (b : Reg) (a : Reg) (d : Reg)
  /-- R177, VGRANT: Synchronising; takes the next VL-sized share of the thread's strip. -/
  | vgrant (cb : Bool) (d : Reg)
  /-- R217, VCVT: Converts elements to a destination format rounding by RM. -/
  | vcvt (cb : Bool) (mk : Bool) (f : BitVec 5) (va : Reg) (vd : Reg)
  /-- R218, VCVT_SR: Converts elements rounding stochastically and stepping SRSEED. -/
  | vcvtSr (cb : Bool) (mk : Bool) (f : BitVec 5) (va : Reg) (vd : Reg)
  /-- R219, VSPLAT: Writes a scalar or immediate to every present element. -/
  | vsplat (cb : Bool) (mk : Bool) (vb : Reg) (kind : BitVec 2) (vd : Reg)
  /-- R220, VMVS: Synchronising; returns one vector element to a g register. -/
  | vmvs (cb : Bool) (vb : Reg) (va : Reg) (kind : BitVec 2) (d : Reg)
  /-- R219, VMVV: Copies present elements between vector registers. -/
  | vmvv (cb : Bool) (mk : Bool) (va : Reg) (vd : Reg)
  /-- R219, VIOTA: Writes element indices or prefix counts of present elements. -/
  | viota (cb : Bool) (mk : Bool) (vd : Reg)
  /-- R221, VSLUP: Slides elements up by an amount. -/
  | vslup (cb : Bool) (mk : Bool) (vb : Reg) (va : Reg) (kind : BitVec 2) (vd : Reg)
  /-- R221, VSLDN: Slides elements down by an amount. -/
  | vsldn (cb : Bool) (mk : Bool) (vb : Reg) (va : Reg) (kind : BitVec 2) (vd : Reg)
  /-- R222, VGATHR: Gathers from a group of registers by index. -/
  | vgathr (cb : Bool) (vb : Reg) (va : Reg) (kind : BitVec 2) (vd : Reg)
  /-- R223, VCOMPR: Packs elements selected by m0. -/
  | vcompr (cb : Bool) (va : Reg) (vd : Reg)
  /-- R224, VMERGE: Selects per element between va and a source by m0. -/
  | vmerge (cb : Bool) (vb : Reg) (va : Reg) (kind : BitVec 2) (vd : Reg)
  /-- R227, VREDSUM: Integer sum reduction into element 0. -/
  | vredsum (cb : Bool) (mk : Bool) (vb : Reg) (va : Reg) (vd : Reg)
  /-- R227, VREDMIN: Signed minimum reduction. -/
  | vredmin (cb : Bool) (mk : Bool) (vb : Reg) (va : Reg) (vd : Reg)
  /-- R227, VREDMAX: Signed maximum reduction. -/
  | vredmax (cb : Bool) (mk : Bool) (vb : Reg) (va : Reg) (vd : Reg)
  /-- R228, VFREDSUM: Floating sum reduction in lane-grouped or length-agnostic order. -/
  | vfredsum (cb : Bool) (mk : Bool) (vb : Reg) (va : Reg) (vd : Reg)
  /-- R227, VFREDMIN: Floating minimum reduction. -/
  | vfredmin (cb : Bool) (mk : Bool) (vb : Reg) (va : Reg) (vd : Reg)
  /-- R227, VFREDMAX: Floating maximum reduction. -/
  | vfredmax (cb : Bool) (mk : Bool) (vb : Reg) (va : Reg) (vd : Reg)
  /-- R225, MLOG: Combines two mask registers bitwise below VL. -/
  | mlog (cb : Bool) (mb : BitVec 3) (ma : BitVec 3) (kind : BitVec 2) (md : BitVec 3)
  /-- R226, MPOP: Synchronising; counts set mask bits below VL. -/
  | mpop (cb : Bool) (ma : BitVec 3) (d : Reg)
  /-- R226, MFIRST: Synchronising; finds the lowest set mask bit below VL. -/
  | mfirst (cb : Bool) (ma : BitVec 3) (d : Reg)
  /-- R188, VHWM: Synchronising; reads a register's high-water mark in elements. -/
  | vhwm (cb : Bool) (va : Reg) (d : Reg)
  /-- R188, VHWM_CLR: Reads and clears a register's high-water mark. -/
  | vhwmClr (cb : Bool) (va : Reg) (d : Reg)
  /-- R248, MCLAIM: Binds an accumulator name to a reserved zero tile. -/
  | mclaim (c : BitVec 3)
  /-- R248, MRELS: Waits for the tile's tasks then unbinds it. -/
  | mrels (c : BitVec 3)
  /-- R248, MZERO: Waits for the tile's tasks then zeroes it and clears its metadata. -/
  | mzero (c : BitVec 3)
  /-- R249, MTASK: Checks and hands a tile-task record to the quad scheduler, returning its number. -/
  | mtask (a : Reg) (d : Reg)
  /-- R250, MWAIT: Parks until the numbered window of the thread's tasks has completed. -/
  | mwait (a : Reg)
  /-- R250, MWAIT_ACC: Parks until no task of the thread targets the named accumulator. -/
  | mwaitAcc (c : BitVec 3)
  /-- R251, MRD: Reads accumulator rows into a vector register with band, ReLU and conversion options. -/
  | mrd (b : Reg) (c : BitVec 3) (vd : Reg)
  /-- R252, MWR: Writes or accumulates vector elements into a tile. -/
  | mwr (b : Reg) (va : Reg) (c : BitVec 3)
  /-- R253, MSTAT: Returns an accumulator's status word at issue. -/
  | mstat (c : BitVec 3) (d : Reg)
  /-- R260, XCOPY: Issues a byte copy to the cluster copy engine on a channel. -/
  | xcopy (b : Reg) (a : Reg) (ch : BitVec 3) (d : Reg)
  /-- R260, XCOPY2: Issues a two-dimensional strided copy. -/
  | xcopy2 (b : Reg) (a : Reg) (ch : BitVec 3) (d : Reg)
  /-- R262, XPLN: Issues a copy that lays out operand bit planes and scales in scratchpad. -/
  | xpln (b : Reg) (a : Reg) (ch : BitVec 3) (d : Reg)
  /-- R260, XFILL: Issues a pattern fill. -/
  | xfill (b : Reg) (a : Reg) (ch : BitVec 3) (d : Reg)
  /-- R261, XRED: Issues an element-wise add of a source into a destination. -/
  | xred (b : Reg) (a : Reg) (ch : BitVec 3) (d : Reg)
  /-- R263, XCOLL: Sends a contribution to the hub collective engine. -/
  | xcoll (b : Reg) (a : Reg) (ch : BitVec 3) (d : Reg)
  /-- R268, XWAIT: Waits for a transfer identifier to be covered, trapping LATE_COPY if its promise passes. -/
  | xwait (a : Reg) (ch : BitVec 3)
  /-- R255, MBPUT: Parks until a mailbox is empty, then writes four registers into it. -/
  | mbput (mb : BitVec 2) (a : Reg)
  /-- R255, MBTAKE: Parks until a mailbox is full, then takes its four words. -/
  | mbtake (mb : BitVec 2) (d : Reg)
  /-- R290, SEND: Enters a message of 1-8 words for a rank and class in the send buffer. -/
  | send (b : Reg) (a : Reg) (n : BitVec 3) (cls : BitVec 4)
  /-- R294, SENDQ: Sends a payload request to a rank, streaming the payload after acceptance. -/
  | sendq (b : Reg) (a : Reg) (cls : BitVec 4)
  /-- R292, RECV: Parks until the class queue holds a message, then takes it into registers. -/
  | recv (cls : BitVec 4) (n : BitVec 3) (d : Reg)
  /-- R292, RPOLL: Returns the state of a class queue without removing anything. -/
  | rpoll (cls : BitVec 4) (d : Reg)
  /-- R287, MCLASS: Binds or unbinds a message class to a slot. -/
  | mclass (cls : BitVec 4) (a : Reg)
  /-- R299, MIGR: Moves the thread to the core of a rank. -/
  | migr (a : Reg)
  /-- R302, RANK: Returns the thread's rank. -/
  | rank (d : Reg)
  /-- R302, RKSET: Steward writes a rank's authoritative entry at its home. -/
  | rkset (b : Reg) (a : Reg)
  /-- R369, EPOPEN: Opens an episode from a descriptor on a free episode context. -/
  | epopen (a : Reg) (d : Reg)
  /-- R373, EPSEND: Sends action k to an episode's step mailbox. -/
  | epsend (b : Reg) (a : Reg)
  /-- R374, EPRECV: Receives observation k into a buffer. -/
  | eprecv (b : Reg) (a : Reg) (d : Reg)
  /-- R375, EPCLOSE: Aborts the episode, waits for its record and frees the handle. -/
  | epclose (a : Reg)
  /-- R375, EPABORT: Ends a running episode with status ABORTED. -/
  | epabort (a : Reg)
  /-- R377, EPVER_ANN: Sets THR_POLVER. -/
  | epverAnn (a : Reg)
  /-- R377, EPVER_WAIT: Parks until no running episode has a current version below v. -/
  | epverWait (a : Reg)
  /-- R377, EPVER_ABORT: Aborts every running episode whose current version is below v. -/
  | epverAbort (a : Reg)
  /-- R378, EPACT: Episode side takes action k from the mailbox. -/
  | epact (b : Reg) (d : Reg)
  /-- R378, EPOBS: Episode side posts observation k with a reward. -/
  | epobs (b : Reg) (a : Reg)
  /-- R378, EPEND: Episode side ends the episode DONE with a final reward and code. -/
  | epend (b : Reg) (a : Reg)
  /-- R317, AMOADD: Atomic add at the point of R318, returning the old value. -/
  | amoadd (scope : BitVec 2) (b : Reg) (a : Reg) (ord : BitVec 2) (w : Bool) (d : Reg)
  /-- R317, AMOSWP: Atomic swap. -/
  | amoswp (scope : BitVec 2) (b : Reg) (a : Reg) (ord : BitVec 2) (w : Bool) (d : Reg)
  /-- R317, AMOCAS: Atomic compare-and-swap against the old gd. -/
  | amocas (scope : BitVec 2) (b : Reg) (a : Reg) (ord : BitVec 2) (w : Bool) (d : Reg)
  /-- R317, AMOMIN: Atomic signed minimum. -/
  | amomin (scope : BitVec 2) (b : Reg) (a : Reg) (ord : BitVec 2) (w : Bool) (d : Reg)
  /-- R317, AMOMAX: Atomic signed maximum. -/
  | amomax (scope : BitVec 2) (b : Reg) (a : Reg) (ord : BitVec 2) (w : Bool) (d : Reg)
  /-- R317, AMOMINU: Atomic unsigned minimum. -/
  | amominu (scope : BitVec 2) (b : Reg) (a : Reg) (ord : BitVec 2) (w : Bool) (d : Reg)
  /-- R317, AMOMAXU: Atomic unsigned maximum. -/
  | amomaxu (scope : BitVec 2) (b : Reg) (a : Reg) (ord : BitVec 2) (w : Bool) (d : Reg)
  /-- R317, AMOAND: Atomic AND. -/
  | amoand (scope : BitVec 2) (b : Reg) (a : Reg) (ord : BitVec 2) (w : Bool) (d : Reg)
  /-- R317, AMOOR: Atomic OR. -/
  | amoor (scope : BitVec 2) (b : Reg) (a : Reg) (ord : BitVec 2) (w : Bool) (d : Reg)
  /-- R317, AMOXOR: Atomic XOR. -/
  | amoxor (scope : BitVec 2) (b : Reg) (a : Reg) (ord : BitVec 2) (w : Bool) (d : Reg)
  /-- R311, ACQ: Acquire: self-invalidates non-owned sectors of named regions at the scope. -/
  | acq (st : BitVec 4) (a : Reg) (scope : BitVec 2)
  /-- R312, REL: Release: writes back and registers dirty words of named regions up to the scope. -/
  | rel (st : BitVec 4) (a : Reg) (scope : BitVec 2)
  /-- R313, FENCE: Probes banks and waits for the thread's earlier accesses and messages. -/
  | fence (st : BitVec 4) (scope : BitVec 2)
  /-- R316, XFENCE: Orders one engine class's earlier accesses before another's later ones. -/
  | xfence (b : Reg) (a : Reg) (scope : BitVec 2)
  /-- R321, QLOCK: Requests a queue lock at the home pier and parks until granted. -/
  | qlock (a : Reg) (scope : BitVec 2)
  /-- R322, QUNLK: Releases and passes a queue lock. -/
  | qunlk (a : Reg) (scope : BitVec 2)
  /-- R323, QWAIT: Waits at the home pier until a doubleword meets a condition. -/
  | qwait (b : Reg) (a : Reg) (cond : BitVec 3) (d : Reg)
  /-- R324, BAR: Crew, gang or span barrier with release and acquire. -/
  | bar (a : Reg) (level : BitVec 3)
  /-- R325, TAKE: Reads a register and leaves it empty. -/
  | take (a : Reg) (d : Reg)
  /-- R326, FILL: Sends a value to fill a register of another thread by rank. -/
  | fill (b : Reg) (a : Reg) (d : Reg)
  /-- R327, EMPTY: Sets a register empty. -/
  | empty (d : Reg)
  /-- R328, WAITT: Parks until TB reaches a target. -/
  | waitt (a : Reg)
  /-- R352, TSTART: Steward starts a thread from a start record. -/
  | tstart (a : Reg) (d : Reg)
  /-- R354, TREAP: Steward reaps an exited slot, scrubbing and freeing its resources. -/
  | treap (a : Reg) (d : Reg)
  /-- R355, TKILL: Steward kills the thread in a slot. -/
  | tkill (a : Reg)
  /-- R403, TSAVE: Steward requests a save of a slot into an image and waits for it. -/
  | tsave (b : Reg) (a : Reg)
  /-- R403, TLOAD: Steward restores an image into an empty slot. -/
  | tload (b : Reg) (a : Reg)
  /-- R357, TSTAT: Returns the status of a slot. -/
  | tstat (a : Reg) (d : Reg)
  /-- R358, TSELF: Returns the thread's own identity. -/
  | tself (d : Reg)
  /-- R361, SUCC: Leader names a successor for its instance. -/
  | succ (a : Reg) (d : Reg)
  /-- R362, RETIRE: Halts the thread in the retiring state awaiting its instance. -/
  | retire
  /-- R353, EXIT: Releases at package scope and halts the thread. -/
  | exit
  /-- R359, LAUNCH: Hands a launch record to the launch unit and returns its LID. -/
  | launch (a : Reg) (d : Reg)
  /-- R386, CSRR: Reads a CSR. -/
  | csrr (csr : BitVec 12) (d : Reg)
  /-- R386, CSRW: Writes a CSR. -/
  | csrw (csr : BitVec 12) (a : Reg)
  /-- R386, CSRS: Sets CSR bits indivisibly. -/
  | csrs (csr : BitVec 12) (a : Reg)
  /-- R386, CSRC: Clears CSR bits indivisibly. -/
  | csrc (csr : BitVec 12) (a : Reg)
  /-- R387, SYSC: Completes and raises SYSCALL. -/
  | sysc (n : BitVec 12)
  /-- R387, TRAP: Completes and raises USER_TRAP. -/
  | trap (n : BitVec 12)
  /-- R388, TRET: Returns from a handler to THR_TRAPPC. -/
  | tret
  /-- R387, BREAK: Completes and raises BREAKPOINT. -/
  | break (n : BitVec 12)
  /-- R386, REGISTER_WRITE: A write to a CSR that has no behaviour row of its own sets its fields under R7. -/
  | registerWrite (csr : BitVec 12) (v : Word)
  /-- R157, COR_WIN_WRITE: A window write sets its fields and CREW, or raises PRIVILEGE for a disallowed user write. -/
  | corWinWrite (n : BitVec 3) (v : Word)
  /-- R257, XC_STAT_CLEAR: Writing 1 to VALID clears the channel's error record, NFIN and XC_FADDR. -/
  | xcStatClear (n : BitVec 3) (v : Word)
  /-- R169, FAULTRES_RETRY: Resolves a data-fault record by retrying every joined access. -/
  | faultresRetry (v : Word)
  /-- R169, FAULTRES_ABANDON: Resolves a data-fault record by halting joined threads with PAGE_FAULT. -/
  | faultresAbandon (v : Word)
  /-- R170, TLBINV_PAGE: Invalidates one page of a context in every TLB, parking until walks finish. -/
  | tlbinvPage (v : Word)
  /-- R170, TLBINV_ALL: Invalidates every page of a context in every TLB. -/
  | tlbinvAll (v : Word)
  /-- R279, TRCAL_WRITE: Sets the Trestle class weights if they sum to 16 and resets calendar pointers. -/
  | trcalWrite (v : Word)
  /-- R341, LWGT_WRITE: Sets launch priority weights if they sum to 16 and resets the calendar pointer. -/
  | lwgtWrite (v : Word)
  /-- R343, GRAPHREL_RELEASE: Releases a tainted launch so its dependents are satisfied, or resumes a held succession. -/
  | graphrelRelease (v : Word)
  /-- R343, GRAPHREL_DISCARD: Discards the held dependents of a tainted launch transitively. -/
  | graphrelDiscard (v : Word)
  /-- R397, TRAPRES_RESUME: Resumes a halted thread at THR_TRAPPC, optionally writing a register. -/
  | trapresResume (v : Word)
  /-- R397, TRAPRES_RESUME_NEXT: Resumes a halted thread at THR_TRAPPC + 4. -/
  | trapresResumeNext (v : Word)
  /-- R408, KILL_DRAIN_START: A PRT_KILL write with GO quenches a context and starts its drain. -/
  | killDrainStart (v : Word)
  /-- R418, VISW_SWITCH_OUT: Begins switching a virtual interface out, freezing its progress. -/
  | viswSwitchOut (v : Word)
  /-- R419, VISW_SWITCH_IN: Switches a virtual interface in, applying merged register writes. -/
  | viswSwitchIn (v : Word)
  /-- R418, VI_SWITCH_COMPLETE: An interface switch finishes and the parked PRT_VISW write completes. -/
  | viSwitchComplete (vi : Nat)
  /-- R421, RESIZE_WRITE: The supervisor's PRT_RESIZE write lets the hub move departing granules. -/
  | resizeWrite (v : Word)
  /-- R421, GRANULE_MOVE: One granule is written back, copied to its new home and its map entry switched. -/
  | granuleMove (part : Nat) (granule : Nat) (die : Nat)
  /-- R421, RESIZE_TIMEOUT: No PRT_RESIZE write within 1.1e9 A-cycles of the signal resets the partition. -/
  | resizeTimeout (part : Nat)
  /-- R423, PRT_RESET_WRITE: A system write of 1 to PRT_RESET bit 0 resets the partition. -/
  | prtResetWrite (v : Word)
  /-- R404, CTXINV_WRITE: Invalidates every entry of the core's thread-context cache. -/
  | ctxinvWrite (v : Word)
  /-- R395, FQBASE_WRITE: Sets the fault queue base and latches the writer's context tag. -/
  | fqbaseWrite (v : Word)
  /-- R393, THR_TIMER_WRITE: Arms the thread timer or withdraws a pending TIMER. -/
  | thrTimerWrite (v : Word)
  /-- R417, VI_TAIL_WRITE: Advances the launch ring tail, or sets OVF if too far. -/
  | viTailWrite (vi : Nat) (v : Word)
  /-- R417, VI_CQHEAD_WRITE: Advances the completion ring head, or sets OVF beyond CQTAIL. -/
  | viCqheadWrite (vi : Nat) (v : Word)
  /-- R417, VI_RING_BASE_WRITE: Sets a ring base and size only when the rings are idle. -/
  | viRingBaseWrite (vi : Nat) (cq : Bool) (v : Word)
  /-- R415, IRHAM_WRITE: Writes up to 4 KiB to the interface's context after translating every page. -/
  | irhamWrite (vi : Nat) (sq : BitVec 48) (tag : BitVec 128) (addr : Word) (bytes : List (BitVec 8))
  /-- R415, IRHAM_READ: Reads up to 4 KiB from the interface's context. -/
  | irhamRead (vi : Nat) (sq : BitVec 48) (tag : BitVec 128) (addr : Word) (n : Nat)
  /-- R415, IRHAM_REGW: Writes a doorbell-page register. -/
  | irhamRegw (vi : Nat) (sq : BitVec 48) (tag : BitVec 128) (off : BitVec 12) (v : Word)
  /-- R415, IRHAM_REGR: Reads a doorbell-page register. -/
  | irhamRegr (vi : Nat) (sq : BitVec 48) (tag : BitVec 128) (off : BitVec 12)
  /-- R415, IRHAM_INFO: Returns the partition's counts. -/
  | irhamInfo (vi : Nat) (sq : BitVec 48) (tag : BitVec 128)
  /-- R427, IRHAM_ATTEST: Returns a signed quote of the partition's measurements with the nonce. -/
  | irhamAttest (vi : Nat) (sq : BitVec 48) (tag : BitVec 128) (nonce : List (BitVec 8))
  /-- R421, MGMT_BUILD_PARTITION: The management core builds a partition from quarter-dies. `share` is what it gives the partition
  beside them: how many granules of memory, and the virtual interfaces it serves (R30). -/
  | mgmtBuildPartition (part : Nat) (quarters : BitVec 16) (share : Nat × List Nat)
  /-- R429, MGMT_SET_CAP: The management core sets a partition's power cap. -/
  | mgmtSetCap (part : Nat) (capw : BitVec 16)
  /-- R414, MGMT_PROVISION_KEY: The management core provisions an interface's Irham key. -/
  | mgmtProvisionKey (vi : Nat) (key : Nat)
  /-- R421, MGMT_RESIZE_REQUEST: A resize starts with a class 15 signal to the supervisor naming departing quarters. -/
  | mgmtResizeRequest (part : Nat) (leaving : BitVec 16)
  /-- R423, MGMT_RESET_REQUEST: The management core requests a partition reset. -/
  | mgmtResetRequest (part : Nat)
  /-- R425, COLD_RESET: Boot ROM checks firmware, locks the limit record and brings the package up. -/
  | coldReset (signatureGood : Bool)
  /-- R425, THERMAL_TRIP: Reaching the trip temperature stops the package clocks. -/
  | thermalTrip
  /-- R430, ENERGY_ACCRUAL: Each microsecond the energy account gains CAPW µJ up to its capacity. -/
  | energyAccrual (part : Nat)
  /-- R63, ICACHE_REFILL: An instruction-cache line arrives and the parked fetch proceeds. -/
  | icacheRefill (core : Nat) (line : Nat)
  /-- R139, LOAD_REPLY: Reply data of a load or atomic lands in its register or queue entry. -/
  | loadReply (id : Nat)
  /-- R65, DIVIDER_COMPLETE: A divider finishes and its result lands in the pending destination. -/
  | dividerComplete (core : Nat) (id : Nat)
  /-- R167, TRANSLATION_WALK_COMPLETE: A page walk finishes and its joined accesses proceed or fault. -/
  | translationWalkComplete (id : Nat)
  /-- R395, FAULT_RECORD_POST: A waiting record is written to the fault queue once it has room. -/
  | faultRecordPost (part : Nat)
  /-- R158, REMOTE_SCRATCHPAD_ACCESS: A target core admits or refuses a remote scratchpad access against its windows. -/
  | remoteScratchpadAccess (id : Nat)
  /-- R158, REMOTE_ACK: An acknowledgement of a remote store, atomic or copy write lands at the requester. -/
  | remoteAck (id : Nat)
  /-- R159, SPR_REFUSAL_ARRIVAL: A refusal lands and traps SCRATCHPAD_REFUSAL, deferred for a store. -/
  | sprRefusalArrival (id : Nat)
  /-- R306, DEREGISTRATION_NOTICE: A unit clears ownership of a sector, forwards the notice and acknowledges. -/
  | deregistrationNotice (id : Nat)
  /-- R313, FENCE_PROBE_ECHO: A fence probe's echo returns from a bank. -/
  | fenceProbeEcho (id : Nat)
  /-- R318, ATOMIC_AT_POINT: An atomic is performed indivisibly at its point and its reply sent. -/
  | atomicAtPoint (id : Nat)
  /-- R321, LOCK_REQUEST_HOME: The home pier grants or queues a QLOCK request, or refuses it when full. -/
  | lockRequestHome (id : Nat)
  /-- R322, LOCK_RELEASE_HOME: The home pier passes a released lock to the next waiter or frees it. -/
  | lockReleaseHome (id : Nat)
  /-- R323, QWAIT_REQUEST_HOME: The home pier answers a QWAIT or enters it in the wait table. -/
  | qwaitRequestHome (id : Nat)
  /-- R277, SWITCH_GRANT: A free switch output grants a head packet by ageing, toggle and calendar. -/
  | switchGrant (out : Nat)
  /-- R288, RESEND: A refused message, fill, migrant or table request is sent again after its backoff. -/
  | resend (id : Nat)
  /-- R172, LANE_GRANT: The lane allocator grants lane groups to the oldest waiting request. -/
  | laneGrant (quad : Nat)
  /-- R186, VECTOR_CONVOY_START: A ready convoy head starts on its pipes by round-robin. -/
  | vectorConvoyStart (core : Nat) (slot : Nat)
  /-- R180, VECTOR_CONFIRM: A vector instruction is confirmed, freeing history and merging flags. -/
  | vectorConfirm (core : Nat) (slot : Nat)
  /-- R183, VECTOR_TRAP_UNWIND: A trapping vector instruction discards later work and undoes the shadow log. -/
  | vectorTrapUnwind (core : Nat) (slot : Nat)
  /-- R211, CHECK_COMPARE: The check unit recomputes the chosen element and compares it. -/
  | checkCompare (core : Nat) (slot : Nat) (agrees : Bool)
  /-- R212, CHECK_REPLAY: A disagreeing instruction is executed again and compared once more. -/
  | checkReplay (core : Nat) (slot : Nat) (agrees : Bool)
  /-- R194, VLDA_READ_LAND: VLDA data lands and sets an element group's landed bit. -/
  | vldaReadLand (core : Nat) (slot : Nat) (v : Nat) (group : Nat)
  /-- R243, TILE_TASK_START: A free matrix engine takes a ready task. -/
  | tileTaskStart (quad : Nat) (engine : Nat)
  /-- R241, TILE_TASK_COMPLETE: A tile task finishes its passes and writes its accumulator. -/
  | tileTaskComplete (quad : Nat) (engine : Nat) (badChunks : Nat)
  /-- R264, COPY_PIECE: One piece of a copy is checked and performed, or stops the copy with an error. -/
  | copyPiece (cluster : Nat) (id : Nat)
  /-- R265, COPY_COMPLETE: A copy completes, advancing XC_DONE and recording errors. -/
  | copyComplete (cluster : Nat) (id : Nat)
  /-- R267, PROMISE_RENEWAL: When TB reaches a copy's promise, the engine renews it. -/
  | promiseRenewal (cluster : Nat) (id : Nat)
  /-- R263, COLLECTIVE_RESULT: The collective engine combines contributions and delivers the result to members. -/
  | collectiveResult (group : Nat)
  /-- R288, MESSAGE_ARRIVAL: A message for a rank is enqueued and acknowledged, or refused. -/
  | messageArrival (id : Nat)
  /-- R289, MESSAGE_ACK: An acknowledgement frees the send-buffer entry. -/
  | messageAck (id : Nat)
  /-- R288, MESSAGE_REFUSAL: A refused message returns to the sender's interface for resend. -/
  | messageRefusal (id : Nat)
  /-- R285, PACKET_RETURN: A packet whose rank is not in the named slot is returned to its sender or home. -/
  | packetReturn (id : Nat)
  /-- R285, HOME_FORWARD: A home interface forwards or holds a packet for a migratory rank. -/
  | homeForward (id : Nat)
  /-- R285, RANK_ENTRY_FETCH: A sender's interface receives a pinned rank entry from the home. -/
  | rankEntryFetch (id : Nat)
  /-- R301, HOME_DEPART: The home marks a rank in transit and sends a drain token to the source. -/
  | homeDepart (id : Nat)
  /-- R301, DRAIN_TOKEN_AT_SOURCE: The source returns the drain token behind returned packets. -/
  | drainTokenAtSource (id : Nat)
  /-- R301, HOME_ARRIVE: The home records new coordinates and forwards returned then held packets. -/
  | homeArrive (id : Nat)
  /-- R283, HOME_ENTRY_WRITE: The home writes a rank's authoritative entry for RKSET or TSTART. -/
  | homeEntryWrite (id : Nat)
  /-- R296, FILL_ARRIVAL: A fill writes an empty register, pushes a queue, waits in the buffer or is refused. -/
  | fillArrival (id : Nat)
  /-- R296, FILL_BUFFER_APPLY: A buffered fill is applied when its register empties or queue has room. -/
  | fillBufferApply (core : Nat)
  /-- R300, MIGRANT_ARRIVAL: A migration packet is installed, buffered or refused at the target core. -/
  | migrantArrival (id : Nat)
  /-- R300, MIGRANT_INSTALL: A buffered migrant is installed when a migrant slot empties. -/
  | migrantInstall (core : Nat)
  /-- R295, SENDQ_REQUEST: The target checks a SENDQ request and accepts or rejects it. -/
  | sendqRequest (id : Nat)
  /-- R294, SENDQ_REPLY: Acceptance or rejection of a SENDQ request reaches the sender. -/
  | sendqReply (id : Nat)
  /-- R295, SENDQ_DELIVERY: Once the payload is written, the descriptor is enqueued and acknowledged. -/
  | sendqDelivery (id : Nat)
  /-- R416, LAUNCH_RING_READ: The launch unit reads the next ring record and enters it in its queues. -/
  | launchRingRead (vi : Nat)
  /-- R340, LAUNCH_ADMIT: The launch unit admits a launch by calendar and debits its energy. -/
  | launchAdmit (part : Nat)
  /-- R344, INSTANCE_PLACE: The placer places a whole instance where room frees. -/
  | instancePlace (part : Nat) (lid : Nat) (cores : List (Nat × Nat))
  /-- R348, COMPLETION_RECORD_WRITE: A launch's completion record is written once all threads are gone and room exists. -/
  | completionRecordWrite (part : Nat) (lid : Nat) (energy : BitVec 32)
  /-- R363, SUCCESSION_SEQUENCE: After the last retire and owed writes, releases, scrubs and readies the successor. -/
  | successionSequence (part : Nat) (lid : Nat)
  /-- R363, SUCCESSOR_START: When the account covers it, the successor starts in the inherited slots. -/
  | successorStart (part : Nat) (lid : Nat)
  /-- R398, PREEMPT_LANDING: A slot with a save request lands at a landing point and becomes swapping. -/
  | preemptLanding (core : Nat) (slot : Nat)
  /-- R398, FORCED_SAVE: After 65,536 A-cycles without landing the slot is saved at its next boundary. -/
  | forcedSave (core : Nat) (slot : Nat)
  /-- R399, SAVE_WRITE: After owed writes drain, the image is written and the slot freed. -/
  | saveWrite (core : Nat) (slot : Nat)
  /-- R393, TIMER_EXPIRY: TB reaching THR_TIMER makes TIMER pending. -/
  | timerExpiry (core : Nat) (slot : Nat)
  /-- R392, ASYNC_TRAP_TAKE: A pending asynchronous trap is taken at a boundary or withdrawable wait. -/
  | asyncTrapTake (core : Nat) (slot : Nat)
  /-- R408, DRAIN_TOKEN_ARRIVAL: A unit sees drain tokens for a tag, drops its traffic and acknowledges. -/
  | drainTokenArrival (tag : Nat) (unit : Nat)
  /-- R408, KILL_DRAIN_COMPLETE: Every unit has acknowledged and the parked PRT_KILL write completes. -/
  | killDrainComplete (tag : Nat)
  /-- R410, SCRUB_WORD: The background scrubber reads and corrects one word. -/
  | scrubWord (place : Nat) (word : Nat) (kind : Nat)
  /-- R412, METADATA_ERROR: An uncorrectable metadata error ends the owning context by kill-drain. -/
  | metadataError (ctx : Nat)
  /-- R412, OWNER_TAG_ERROR: An uncorrectable owner-tag error resets the partition holding the unit. -/
  | ownerTagError (part : Nat)
  /-- R379, EPISODE_DEADLINE: The step deadline expires and the episode ends TIMEOUT cause 1. -/
  | episodeDeadline (idx : Nat)
  /-- R379, EPISODE_BUDGET: The instruction budget expires and the episode ends TIMEOUT cause 2. -/
  | episodeBudget (idx : Nat)
  /-- R150, HOME_PIER_STORE: A scalar store to a SYNC or CA 2 page is performed at its home pier, where waiters of the word are tested again. -/
  | homePierStore (id : Nat)
  /-- R305, REGISTRATION: The next level receives dirty words, merges them, sets REG to the sender, sends any deregistration notice and replies with the merged sector. -/
  | registration (id : Nat)
  /-- R305, REGISTRATION_REPLY: The merged 128 bytes return and the sender installs them beneath its later writes, setting valid and owned and clearing the sent dirty bits. -/
  | registrationReply (id : Nat)
  /-- R361, SUCC_RESULT_LANDING: The status and successor LID of a SUCC land in its pending destination. -/
  | succResultLanding (id : Nat)
  /-- R190, VECTOR_ACCESS_PERFORMED: Element data of a vector load returns to the vector unit, or the writes of a confirmed vector store are performed. -/
  | vectorAccessPerformed (core : Nat) (slot : Nat)
  /-- R185, CONVOY_DRAINED: The last member of a convoy finishes its last element group, freeing its pipes for the thread's next convoy. -/
  | convoyDrained (core : Nat) (slot : Nat)
  deriving DecidableEq, Repr

end Sys2Proof
end

