-- ==== Sys2Proof/WellFormed.lean ====
section
/-! DEFINITION. The operand limits that an instruction word shows by itself (checks 4 and 5 of R49, from the
role tables R41 to R48), and the rows that are steps of units rather than instruction words. -/

namespace Sys2Proof

/-- The limits of R41 to R48 on the operands of an instruction; a step without an encoding has none.
The field positions that must hold 0 are the decoder's concern; a field of narrower range than its five
bits (a format, a level, a pair, a group of four) is bounded here. -/
def Instr.wellFormed : Instr → Bool
  | .ldb _ _ _ => true
  | .ldh _ _ _ => true
  | .ldw _ _ _ => true
  | .ldd _ _ _ => true
  | .ldbu _ _ _ => true
  | .ldhu _ _ _ => true
  | .ldwu _ _ _ => true
  | .pref _ _ level => decide (level.toNat ≤ 2)
  | .stb _ _ _ => true
  | .sth _ _ _ => true
  | .stw _ _ _ => true
  | .std _ _ _ => true
  | .cpin _ _ => true
  | .cunpin _ _ => true
  | .cflush _ _ => true
  | .addi _ _ _ => true
  | .andi _ _ _ => true
  | .ori _ _ _ => true
  | .xori _ _ _ => true
  | .slti _ _ _ => true
  | .sltiu _ _ _ => true
  | .slli _ _ _ => true
  | .srli _ _ _ => true
  | .srai _ _ _ => true
  | .rori _ _ _ => true
  | .sextb _ _ => true
  | .sexth _ _ => true
  | .sextw _ _ => true
  | .zextb _ _ => true
  | .zexth _ _ => true
  | .zextw _ _ => true
  | .add _ _ _ => true
  | .sub _ _ _ => true
  | .and _ _ _ => true
  | .or _ _ _ => true
  | .xor _ _ _ => true
  | .sll _ _ _ => true
  | .srl _ _ _ => true
  | .sra _ _ _ => true
  | .ror _ _ _ => true
  | .slt _ _ _ => true
  | .sltu _ _ _ => true
  | .min _ _ _ => true
  | .max _ _ _ => true
  | .minu _ _ _ => true
  | .maxu _ _ _ => true
  | .mul _ _ _ => true
  | .mulh _ _ _ => true
  | .mulhu _ _ _ => true
  | .div _ _ _ => true
  | .divu _ _ _ => true
  | .rem _ _ _ => true
  | .remu _ _ _ => true
  | .clz _ _ => true
  | .ctz _ _ => true
  | .popc _ _ => true
  | .bswap _ _ => true
  | .sel _ _ _ => true
  | .andn _ _ _ => true
  | .addw _ _ _ => true
  | .subw _ _ _ => true
  | .mulw _ _ _ => true
  | .sllw _ _ _ => true
  | .srlw _ _ _ => true
  | .sraw _ _ _ => true
  | .divw _ _ _ => true
  | .remw _ _ _ => true
  | .lui _ _ => true
  | .apc _ _ => true
  | .beq _ _ _ => true
  | .bne _ _ _ => true
  | .blt _ _ _ => true
  | .bge _ _ _ => true
  | .bltu _ _ _ => true
  | .bgeu _ _ _ => true
  | .bfull _ _ => true
  | .bempty _ _ => true
  | .jal _ _ => true
  | .jalr _ _ _ => true
  | .loop len _ => decide (len ≠ 0)
  | .loopi len _ => decide (len ≠ 0)
  | .lbrk => true
  | .lnext => true
  | .lidx level _ => decide (level.toNat ≤ 5)
  | .yield _ => true
  | .padd _ _ _ => true
  | .paddi _ _ _ => true
  | .psub _ _ _ => true
  | .psetf _ _ _ _ => true
  | .psetp _ _ _ => true
  | .pgetf _ _ => true
  | .pchk _ _ _ => true
  | .fadd _ _ _ _ => true
  | .fsub _ _ _ _ => true
  | .fmul _ _ _ _ => true
  | .fdiv _ _ _ _ => true
  | .fsqrt _ _ _ => true
  | .fma _ _ _ _ => true
  | .fmin _ _ _ _ => true
  | .fmax _ _ _ _ => true
  | .fneg _ _ _ => true
  | .fabs _ _ _ => true
  | .fsgn _ _ _ _ => true
  | .feq _ _ _ _ => true
  | .flt _ _ _ _ => true
  | .fle _ _ _ _ => true
  | .fcls _ _ _ => true
  | .fcvti c _ _ _ => decide (c.toNat / 4 ≤ 5)
  | .fcvtf c _ _ _ => decide (c.toNat / 4 ≤ 5)
  | .fcvtff c _ fmt _ => decide (c.toNat / 4 ≤ 6 ∧ c.toNat % 4 ≠ fmt.toNat ∧ ¬ (c.toNat / 4 = 6 ∧ c.toNat % 4 = 1))
  | .vld _ _ _ _ => true
  | .vlds _ _ _ _ _ => true
  | .vldx _ _ _ _ _ => true
  | .vst _ _ _ _ => true
  | .vsts _ _ _ _ _ => true
  | .vstx _ _ _ _ _ => true
  | .vlda _ _ _ _ _ => true
  | .vldm _ _ _ => true
  | .vstm _ _ _ => true
  | .vadd _ _ _ _ kind _ => decide (kind ≠ 3)
  | .vsub _ _ _ _ _ _ => true
  | .vmul _ _ _ _ kind _ => decide (kind ≠ 3)
  | .vmulh _ _ _ _ kind _ => decide (kind ≠ 3)
  | .vmulhu _ _ _ _ kind _ => decide (kind ≠ 3)
  | .vmadd _ _ _ _ kind _ => decide (kind ≠ 3)
  | .vmin _ _ _ _ kind _ => decide (kind ≠ 3)
  | .vmax _ _ _ _ kind _ => decide (kind ≠ 3)
  | .vminu _ _ _ _ kind _ => decide (kind ≠ 3)
  | .vmaxu _ _ _ _ kind _ => decide (kind ≠ 3)
  | .vand _ _ _ _ kind _ => decide (kind ≠ 3)
  | .vor _ _ _ _ kind _ => decide (kind ≠ 3)
  | .vxor _ _ _ _ kind _ => decide (kind ≠ 3)
  | .vsll _ _ _ _ _ _ => true
  | .vsrl _ _ _ _ _ _ => true
  | .vsra _ _ _ _ _ _ => true
  | .vsadd _ _ _ _ kind _ => decide (kind ≠ 3)
  | .vssub _ _ _ _ _ _ => true
  | .vceq _ _ _ _ kind _ => decide (kind ≠ 3)
  | .vcne _ _ _ _ kind _ => decide (kind ≠ 3)
  | .vclt _ _ _ _ kind _ => decide (kind ≠ 3)
  | .vcle _ _ _ _ kind _ => decide (kind ≠ 3)
  | .vcltu _ _ _ _ kind _ => decide (kind ≠ 3)
  | .vcleu _ _ _ _ kind _ => decide (kind ≠ 3)
  | .vfadd _ _ _ _ kind _ => decide (kind ≠ 3)
  | .vfsub _ _ _ _ _ _ => true
  | .vfmul _ _ _ _ kind _ => decide (kind ≠ 3)
  | .vfdiv _ _ _ _ _ _ => true
  | .vfsqrt _ _ _ _ => true
  | .vfma _ _ _ _ kind _ => decide (kind ≠ 3)
  | .vfms _ _ _ _ kind _ => decide (kind ≠ 3)
  | .vfnma _ _ _ _ kind _ => decide (kind ≠ 3)
  | .vfmin _ _ _ _ kind _ => decide (kind ≠ 3)
  | .vfmax _ _ _ _ kind _ => decide (kind ≠ 3)
  | .vfabs _ _ _ _ => true
  | .vfneg _ _ _ _ => true
  | .vfrcp _ _ _ _ => true
  | .vfrsq _ _ _ _ => true
  | .vfexp2 _ _ _ _ => true
  | .vfceq _ _ _ _ kind _ => decide (kind ≠ 3)
  | .vfclt _ _ _ _ kind _ => decide (kind ≠ 3)
  | .vfcle _ _ _ _ kind _ => decide (kind ≠ 3)
  | .vfcls _ _ _ _ => true
  | .vcfg _ _ _ _ => true
  | .vgrant _ _ => true
  | .vcvt _ _ f _ _ => decide (f.toNat ≤ 18)
  | .vcvtSr _ _ f _ _ => decide (f.toNat = 9 ∨ f.toNat = 10 ∨ f.toNat = 11 ∨ f.toNat = 12 ∨ f.toNat = 13 ∨ f.toNat = 14 ∨ f.toNat = 15 ∨ f.toNat = 16)
  | .vsplat _ _ _ kind _ => decide (kind = 1 ∨ kind = 2)
  | .vmvs _ _ _ kind _ => decide (kind = 1 ∨ kind = 2)
  | .vmvv _ _ _ _ => true
  | .viota _ _ _ => true
  | .vslup _ _ _ _ kind _ => decide (kind = 1 ∨ kind = 2)
  | .vsldn _ _ _ _ kind _ => decide (kind = 1 ∨ kind = 2)
  | .vgathr _ _ va kind _ => decide (va.toNat % 2 ^ kind.toNat = 0)
  | .vcompr _ _ _ => true
  | .vmerge _ _ _ kind _ => decide (kind ≠ 3)
  | .vredsum _ _ _ _ _ => true
  | .vredmin _ _ _ _ _ => true
  | .vredmax _ _ _ _ _ => true
  | .vfredsum _ _ _ _ _ => true
  | .vfredmin _ _ _ _ _ => true
  | .vfredmax _ _ _ _ _ => true
  | .mlog _ _ _ _ _ => true
  | .mpop _ _ _ => true
  | .mfirst _ _ _ => true
  | .vhwm _ _ _ => true
  | .vhwmClr _ _ _ => true
  | .mclaim _ => true
  | .mrels _ => true
  | .mzero _ => true
  | .mtask _ _ => true
  | .mwait _ => true
  | .mwaitAcc _ => true
  | .mrd _ _ _ => true
  | .mwr _ _ _ => true
  | .mstat _ _ => true
  | .xcopy b a _ _ => decide (a ≠ 0 ∧ a.toNat % 2 = 0 ∧ b ≠ 0 ∧ b.toNat % 2 = 0)
  | .xcopy2 b a _ _ => decide (a ≠ 0 ∧ a.toNat % 2 = 0 ∧ b ≠ 0 ∧ b.toNat % 2 = 0)
  | .xpln b a _ _ => decide (a ≠ 0 ∧ a.toNat % 2 = 0 ∧ b ≠ 0 ∧ b.toNat % 2 = 0)
  | .xfill b a _ _ => decide (a ≠ 0 ∧ a.toNat % 2 = 0 ∧ b ≠ 0 ∧ b.toNat % 2 = 0)
  | .xred b a _ _ => decide (a ≠ 0 ∧ a.toNat % 2 = 0 ∧ b ≠ 0 ∧ b.toNat % 2 = 0)
  | .xcoll b a _ _ => decide (a ≠ 0 ∧ a.toNat % 2 = 0 ∧ b ≠ 0 ∧ b.toNat % 2 = 0)
  | .xwait _ _ => true
  | .mbput _ a => decide (a ≠ 0 ∧ a.toNat % 4 = 0)
  | .mbtake _ d => decide (d ≠ 0 ∧ d.toNat % 4 = 0)
  | .send b _ n _ => decide (b.toNat + n.toNat ≤ 31)
  | .sendq _ _ _ => true
  | .recv _ n d => decide (d ≠ 0 ∧ d.toNat + n.toNat ≤ 31)
  | .rpoll _ _ => true
  | .mclass _ _ => true
  | .migr _ => true
  | .rank _ => true
  | .rkset _ _ => true
  | .epopen _ _ => true
  | .epsend _ _ => true
  | .eprecv _ _ _ => true
  | .epclose _ => true
  | .epabort _ => true
  | .epverAnn _ => true
  | .epverWait _ => true
  | .epverAbort _ => true
  | .epact _ _ => true
  | .epobs _ _ => true
  | .epend _ _ => true
  | .amoadd _ _ _ _ _ _ => true
  | .amoswp _ _ _ _ _ _ => true
  | .amocas _ _ _ _ _ _ => true
  | .amomin _ _ _ _ _ _ => true
  | .amomax _ _ _ _ _ _ => true
  | .amominu _ _ _ _ _ _ => true
  | .amomaxu _ _ _ _ _ _ => true
  | .amoand _ _ _ _ _ _ => true
  | .amoor _ _ _ _ _ _ => true
  | .amoxor _ _ _ _ _ _ => true
  | .acq st _ _ => decide (st ≠ 0)
  | .rel st _ _ => decide (st ≠ 0)
  | .fence st _ => decide (st ≠ 0)
  | .xfence b a _ => decide (a.toNat ≤ 5 ∧ b.toNat ≤ 5)
  | .qlock _ _ => true
  | .qunlk _ _ => true
  | .qwait _ _ cond _ => decide (cond.toNat ≤ 5)
  | .bar _ level => decide (level.toNat ≤ 2)
  | .take _ _ => true
  | .fill _ _ d => decide (d ≠ 0)
  | .empty d => decide (d ≠ 0)
  | .waitt _ => true
  | .tstart _ _ => true
  | .treap _ _ => true
  | .tkill _ => true
  | .tsave _ _ => true
  | .tload _ _ => true
  | .tstat _ _ => true
  | .tself _ => true
  | .succ _ _ => true
  | .retire => true
  | .exit => true
  | .launch _ _ => true
  | .csrr _ _ => true
  | .csrw _ _ => true
  | .csrs _ _ => true
  | .csrc _ _ => true
  | .sysc _ => true
  | .trap _ => true
  | .tret => true
  | .break _ => true
  | .registerWrite _ _ => true
  | .corWinWrite _ _ => true
  | .xcStatClear _ _ => true
  | .faultresRetry _ => true
  | .faultresAbandon _ => true
  | .tlbinvPage _ => true
  | .tlbinvAll _ => true
  | .trcalWrite _ => true
  | .lwgtWrite _ => true
  | .graphrelRelease _ => true
  | .graphrelDiscard _ => true
  | .trapresResume _ => true
  | .trapresResumeNext _ => true
  | .killDrainStart _ => true
  | .viswSwitchOut _ => true
  | .viswSwitchIn _ => true
  | .viSwitchComplete _ => true
  | .resizeWrite _ => true
  | .granuleMove _ _ _ => true
  | .resizeTimeout _ => true
  | .prtResetWrite _ => true
  | .ctxinvWrite _ => true
  | .fqbaseWrite _ => true
  | .thrTimerWrite _ => true
  | .viTailWrite _ _ => true
  | .viCqheadWrite _ _ => true
  | .viRingBaseWrite _ _ _ => true
  | .irhamWrite _ _ _ _ _ => true
  | .irhamRead _ _ _ _ _ => true
  | .irhamRegw _ _ _ _ _ => true
  | .irhamRegr _ _ _ _ => true
  | .irhamInfo _ _ _ => true
  | .irhamAttest _ _ _ _ => true
  | .mgmtBuildPartition _ _ _ => true
  | .mgmtSetCap _ _ => true
  | .mgmtProvisionKey _ _ => true
  | .mgmtResizeRequest _ _ => true
  | .mgmtResetRequest _ => true
  | .coldReset _ => true
  | .thermalTrip => true
  | .energyAccrual _ => true
  | .icacheRefill _ _ => true
  | .loadReply _ => true
  | .dividerComplete _ _ => true
  | .translationWalkComplete _ => true
  | .faultRecordPost _ => true
  | .remoteScratchpadAccess _ => true
  | .remoteAck _ => true
  | .sprRefusalArrival _ => true
  | .deregistrationNotice _ => true
  | .fenceProbeEcho _ => true
  | .atomicAtPoint _ => true
  | .lockRequestHome _ => true
  | .lockReleaseHome _ => true
  | .qwaitRequestHome _ => true
  | .switchGrant _ => true
  | .resend _ => true
  | .laneGrant _ => true
  | .vectorConvoyStart _ _ => true
  | .vectorConfirm _ _ => true
  | .vectorTrapUnwind _ _ => true
  | .checkCompare _ _ _ => true
  | .checkReplay _ _ _ => true
  | .vldaReadLand _ _ _ _ => true
  | .tileTaskStart _ _ => true
  | .tileTaskComplete _ _ _ => true
  | .copyPiece _ _ => true
  | .copyComplete _ _ => true
  | .promiseRenewal _ _ => true
  | .collectiveResult _ => true
  | .messageArrival _ => true
  | .messageAck _ => true
  | .messageRefusal _ => true
  | .packetReturn _ => true
  | .homeForward _ => true
  | .rankEntryFetch _ => true
  | .homeDepart _ => true
  | .drainTokenAtSource _ => true
  | .homeArrive _ => true
  | .homeEntryWrite _ => true
  | .fillArrival _ => true
  | .fillBufferApply _ => true
  | .migrantArrival _ => true
  | .migrantInstall _ => true
  | .sendqRequest _ => true
  | .sendqReply _ => true
  | .sendqDelivery _ => true
  | .launchRingRead _ => true
  | .launchAdmit _ => true
  | .instancePlace _ _ _ => true
  | .completionRecordWrite _ _ _ => true
  | .successionSequence _ _ => true
  | .successorStart _ _ => true
  | .preemptLanding _ _ => true
  | .forcedSave _ _ => true
  | .saveWrite _ _ => true
  | .timerExpiry _ _ => true
  | .asyncTrapTake _ _ => true
  | .drainTokenArrival _ _ => true
  | .killDrainComplete _ => true
  | .scrubWord _ _ _ => true
  | .metadataError _ => true
  | .ownerTagError _ => true
  | .episodeDeadline _ => true
  | .episodeBudget _ => true
  | .homePierStore _ => true
  | .registration _ => true
  | .registrationReply _ => true
  | .succResultLanding _ => true
  | .vectorAccessPerformed _ _ => true
  | .convoyDrained _ _ => true

/-- The rows of the table that have no encoding: steps of engines, networks, hub, host and management core
(95_what_each_step_holds.md). -/
def Instr.isEvent : Instr → Bool
  | .ldb _ _ _ => false
  | .ldh _ _ _ => false
  | .ldw _ _ _ => false
  | .ldd _ _ _ => false
  | .ldbu _ _ _ => false
  | .ldhu _ _ _ => false
  | .ldwu _ _ _ => false
  | .pref _ _ _ => false
  | .stb _ _ _ => false
  | .sth _ _ _ => false
  | .stw _ _ _ => false
  | .std _ _ _ => false
  | .cpin _ _ => false
  | .cunpin _ _ => false
  | .cflush _ _ => false
  | .addi _ _ _ => false
  | .andi _ _ _ => false
  | .ori _ _ _ => false
  | .xori _ _ _ => false
  | .slti _ _ _ => false
  | .sltiu _ _ _ => false
  | .slli _ _ _ => false
  | .srli _ _ _ => false
  | .srai _ _ _ => false
  | .rori _ _ _ => false
  | .sextb _ _ => false
  | .sexth _ _ => false
  | .sextw _ _ => false
  | .zextb _ _ => false
  | .zexth _ _ => false
  | .zextw _ _ => false
  | .add _ _ _ => false
  | .sub _ _ _ => false
  | .and _ _ _ => false
  | .or _ _ _ => false
  | .xor _ _ _ => false
  | .sll _ _ _ => false
  | .srl _ _ _ => false
  | .sra _ _ _ => false
  | .ror _ _ _ => false
  | .slt _ _ _ => false
  | .sltu _ _ _ => false
  | .min _ _ _ => false
  | .max _ _ _ => false
  | .minu _ _ _ => false
  | .maxu _ _ _ => false
  | .mul _ _ _ => false
  | .mulh _ _ _ => false
  | .mulhu _ _ _ => false
  | .div _ _ _ => false
  | .divu _ _ _ => false
  | .rem _ _ _ => false
  | .remu _ _ _ => false
  | .clz _ _ => false
  | .ctz _ _ => false
  | .popc _ _ => false
  | .bswap _ _ => false
  | .sel _ _ _ => false
  | .andn _ _ _ => false
  | .addw _ _ _ => false
  | .subw _ _ _ => false
  | .mulw _ _ _ => false
  | .sllw _ _ _ => false
  | .srlw _ _ _ => false
  | .sraw _ _ _ => false
  | .divw _ _ _ => false
  | .remw _ _ _ => false
  | .lui _ _ => false
  | .apc _ _ => false
  | .beq _ _ _ => false
  | .bne _ _ _ => false
  | .blt _ _ _ => false
  | .bge _ _ _ => false
  | .bltu _ _ _ => false
  | .bgeu _ _ _ => false
  | .bfull _ _ => false
  | .bempty _ _ => false
  | .jal _ _ => false
  | .jalr _ _ _ => false
  | .loop _ _ => false
  | .loopi _ _ => false
  | .lbrk => false
  | .lnext => false
  | .lidx _ _ => false
  | .yield _ => false
  | .padd _ _ _ => false
  | .paddi _ _ _ => false
  | .psub _ _ _ => false
  | .psetf _ _ _ _ => false
  | .psetp _ _ _ => false
  | .pgetf _ _ => false
  | .pchk _ _ _ => false
  | .fadd _ _ _ _ => false
  | .fsub _ _ _ _ => false
  | .fmul _ _ _ _ => false
  | .fdiv _ _ _ _ => false
  | .fsqrt _ _ _ => false
  | .fma _ _ _ _ => false
  | .fmin _ _ _ _ => false
  | .fmax _ _ _ _ => false
  | .fneg _ _ _ => false
  | .fabs _ _ _ => false
  | .fsgn _ _ _ _ => false
  | .feq _ _ _ _ => false
  | .flt _ _ _ _ => false
  | .fle _ _ _ _ => false
  | .fcls _ _ _ => false
  | .fcvti _ _ _ _ => false
  | .fcvtf _ _ _ _ => false
  | .fcvtff _ _ _ _ => false
  | .vld _ _ _ _ => false
  | .vlds _ _ _ _ _ => false
  | .vldx _ _ _ _ _ => false
  | .vst _ _ _ _ => false
  | .vsts _ _ _ _ _ => false
  | .vstx _ _ _ _ _ => false
  | .vlda _ _ _ _ _ => false
  | .vldm _ _ _ => false
  | .vstm _ _ _ => false
  | .vadd _ _ _ _ _ _ => false
  | .vsub _ _ _ _ _ _ => false
  | .vmul _ _ _ _ _ _ => false
  | .vmulh _ _ _ _ _ _ => false
  | .vmulhu _ _ _ _ _ _ => false
  | .vmadd _ _ _ _ _ _ => false
  | .vmin _ _ _ _ _ _ => false
  | .vmax _ _ _ _ _ _ => false
  | .vminu _ _ _ _ _ _ => false
  | .vmaxu _ _ _ _ _ _ => false
  | .vand _ _ _ _ _ _ => false
  | .vor _ _ _ _ _ _ => false
  | .vxor _ _ _ _ _ _ => false
  | .vsll _ _ _ _ _ _ => false
  | .vsrl _ _ _ _ _ _ => false
  | .vsra _ _ _ _ _ _ => false
  | .vsadd _ _ _ _ _ _ => false
  | .vssub _ _ _ _ _ _ => false
  | .vceq _ _ _ _ _ _ => false
  | .vcne _ _ _ _ _ _ => false
  | .vclt _ _ _ _ _ _ => false
  | .vcle _ _ _ _ _ _ => false
  | .vcltu _ _ _ _ _ _ => false
  | .vcleu _ _ _ _ _ _ => false
  | .vfadd _ _ _ _ _ _ => false
  | .vfsub _ _ _ _ _ _ => false
  | .vfmul _ _ _ _ _ _ => false
  | .vfdiv _ _ _ _ _ _ => false
  | .vfsqrt _ _ _ _ => false
  | .vfma _ _ _ _ _ _ => false
  | .vfms _ _ _ _ _ _ => false
  | .vfnma _ _ _ _ _ _ => false
  | .vfmin _ _ _ _ _ _ => false
  | .vfmax _ _ _ _ _ _ => false
  | .vfabs _ _ _ _ => false
  | .vfneg _ _ _ _ => false
  | .vfrcp _ _ _ _ => false
  | .vfrsq _ _ _ _ => false
  | .vfexp2 _ _ _ _ => false
  | .vfceq _ _ _ _ _ _ => false
  | .vfclt _ _ _ _ _ _ => false
  | .vfcle _ _ _ _ _ _ => false
  | .vfcls _ _ _ _ => false
  | .vcfg _ _ _ _ => false
  | .vgrant _ _ => false
  | .vcvt _ _ _ _ _ => false
  | .vcvtSr _ _ _ _ _ => false
  | .vsplat _ _ _ _ _ => false
  | .vmvs _ _ _ _ _ => false
  | .vmvv _ _ _ _ => false
  | .viota _ _ _ => false
  | .vslup _ _ _ _ _ _ => false
  | .vsldn _ _ _ _ _ _ => false
  | .vgathr _ _ _ _ _ => false
  | .vcompr _ _ _ => false
  | .vmerge _ _ _ _ _ => false
  | .vredsum _ _ _ _ _ => false
  | .vredmin _ _ _ _ _ => false
  | .vredmax _ _ _ _ _ => false
  | .vfredsum _ _ _ _ _ => false
  | .vfredmin _ _ _ _ _ => false
  | .vfredmax _ _ _ _ _ => false
  | .mlog _ _ _ _ _ => false
  | .mpop _ _ _ => false
  | .mfirst _ _ _ => false
  | .vhwm _ _ _ => false
  | .vhwmClr _ _ _ => false
  | .mclaim _ => false
  | .mrels _ => false
  | .mzero _ => false
  | .mtask _ _ => false
  | .mwait _ => false
  | .mwaitAcc _ => false
  | .mrd _ _ _ => false
  | .mwr _ _ _ => false
  | .mstat _ _ => false
  | .xcopy _ _ _ _ => false
  | .xcopy2 _ _ _ _ => false
  | .xpln _ _ _ _ => false
  | .xfill _ _ _ _ => false
  | .xred _ _ _ _ => false
  | .xcoll _ _ _ _ => false
  | .xwait _ _ => false
  | .mbput _ _ => false
  | .mbtake _ _ => false
  | .send _ _ _ _ => false
  | .sendq _ _ _ => false
  | .recv _ _ _ => false
  | .rpoll _ _ => false
  | .mclass _ _ => false
  | .migr _ => false
  | .rank _ => false
  | .rkset _ _ => false
  | .epopen _ _ => false
  | .epsend _ _ => false
  | .eprecv _ _ _ => false
  | .epclose _ => false
  | .epabort _ => false
  | .epverAnn _ => false
  | .epverWait _ => false
  | .epverAbort _ => false
  | .epact _ _ => false
  | .epobs _ _ => false
  | .epend _ _ => false
  | .amoadd _ _ _ _ _ _ => false
  | .amoswp _ _ _ _ _ _ => false
  | .amocas _ _ _ _ _ _ => false
  | .amomin _ _ _ _ _ _ => false
  | .amomax _ _ _ _ _ _ => false
  | .amominu _ _ _ _ _ _ => false
  | .amomaxu _ _ _ _ _ _ => false
  | .amoand _ _ _ _ _ _ => false
  | .amoor _ _ _ _ _ _ => false
  | .amoxor _ _ _ _ _ _ => false
  | .acq _ _ _ => false
  | .rel _ _ _ => false
  | .fence _ _ => false
  | .xfence _ _ _ => false
  | .qlock _ _ => false
  | .qunlk _ _ => false
  | .qwait _ _ _ _ => false
  | .bar _ _ => false
  | .take _ _ => false
  | .fill _ _ _ => false
  | .empty _ => false
  | .waitt _ => false
  | .tstart _ _ => false
  | .treap _ _ => false
  | .tkill _ => false
  | .tsave _ _ => false
  | .tload _ _ => false
  | .tstat _ _ => false
  | .tself _ => false
  | .succ _ _ => false
  | .retire => false
  | .exit => false
  | .launch _ _ => false
  | .csrr _ _ => false
  | .csrw _ _ => false
  | .csrs _ _ => false
  | .csrc _ _ => false
  | .sysc _ => false
  | .trap _ => false
  | .tret => false
  | .break _ => false
  | .registerWrite _ _ => true
  | .corWinWrite _ _ => true
  | .xcStatClear _ _ => true
  | .faultresRetry _ => true
  | .faultresAbandon _ => true
  | .tlbinvPage _ => true
  | .tlbinvAll _ => true
  | .trcalWrite _ => true
  | .lwgtWrite _ => true
  | .graphrelRelease _ => true
  | .graphrelDiscard _ => true
  | .trapresResume _ => true
  | .trapresResumeNext _ => true
  | .killDrainStart _ => true
  | .viswSwitchOut _ => true
  | .viswSwitchIn _ => true
  | .viSwitchComplete _ => true
  | .resizeWrite _ => true
  | .granuleMove _ _ _ => true
  | .resizeTimeout _ => true
  | .prtResetWrite _ => true
  | .ctxinvWrite _ => true
  | .fqbaseWrite _ => true
  | .thrTimerWrite _ => true
  | .viTailWrite _ _ => true
  | .viCqheadWrite _ _ => true
  | .viRingBaseWrite _ _ _ => true
  | .irhamWrite _ _ _ _ _ => true
  | .irhamRead _ _ _ _ _ => true
  | .irhamRegw _ _ _ _ _ => true
  | .irhamRegr _ _ _ _ => true
  | .irhamInfo _ _ _ => true
  | .irhamAttest _ _ _ _ => true
  | .mgmtBuildPartition _ _ _ => true
  | .mgmtSetCap _ _ => true
  | .mgmtProvisionKey _ _ => true
  | .mgmtResizeRequest _ _ => true
  | .mgmtResetRequest _ => true
  | .coldReset _ => true
  | .thermalTrip => true
  | .energyAccrual _ => true
  | .icacheRefill _ _ => true
  | .loadReply _ => true
  | .dividerComplete _ _ => true
  | .translationWalkComplete _ => true
  | .faultRecordPost _ => true
  | .remoteScratchpadAccess _ => true
  | .remoteAck _ => true
  | .sprRefusalArrival _ => true
  | .deregistrationNotice _ => true
  | .fenceProbeEcho _ => true
  | .atomicAtPoint _ => true
  | .lockRequestHome _ => true
  | .lockReleaseHome _ => true
  | .qwaitRequestHome _ => true
  | .switchGrant _ => true
  | .resend _ => true
  | .laneGrant _ => true
  | .vectorConvoyStart _ _ => true
  | .vectorConfirm _ _ => true
  | .vectorTrapUnwind _ _ => true
  | .checkCompare _ _ _ => true
  | .checkReplay _ _ _ => true
  | .vldaReadLand _ _ _ _ => true
  | .tileTaskStart _ _ => true
  | .tileTaskComplete _ _ _ => true
  | .copyPiece _ _ => true
  | .copyComplete _ _ => true
  | .promiseRenewal _ _ => true
  | .collectiveResult _ => true
  | .messageArrival _ => true
  | .messageAck _ => true
  | .messageRefusal _ => true
  | .packetReturn _ => true
  | .homeForward _ => true
  | .rankEntryFetch _ => true
  | .homeDepart _ => true
  | .drainTokenAtSource _ => true
  | .homeArrive _ => true
  | .homeEntryWrite _ => true
  | .fillArrival _ => true
  | .fillBufferApply _ => true
  | .migrantArrival _ => true
  | .migrantInstall _ => true
  | .sendqRequest _ => true
  | .sendqReply _ => true
  | .sendqDelivery _ => true
  | .launchRingRead _ => true
  | .launchAdmit _ => true
  | .instancePlace _ _ _ => true
  | .completionRecordWrite _ _ _ => true
  | .successionSequence _ _ => true
  | .successorStart _ _ => true
  | .preemptLanding _ _ => true
  | .forcedSave _ _ => true
  | .saveWrite _ _ => true
  | .timerExpiry _ _ => true
  | .asyncTrapTake _ _ => true
  | .drainTokenArrival _ _ => true
  | .killDrainComplete _ => true
  | .scrubWord _ _ _ => true
  | .metadataError _ => true
  | .ownerTagError _ => true
  | .episodeDeadline _ => true
  | .episodeBudget _ => true
  | .homePierStore _ => true
  | .registration _ => true
  | .registrationReply _ => true
  | .succResultLanding _ => true
  | .vectorAccessPerformed _ _ => true
  | .convoyDrained _ _ => true

end Sys2Proof
end

