-- ==== Sys2Proof/Decode.lean ====
section
/-! DEFINITION. The decoder of R34 to R49, the encoder written from the same role tables, and the bit-field
helpers both use. A word is numbered from its least significant bit (R3).

The definitions that build an instruction of the last majors carry no compiled code: Lean's runtime numbers
the constructors of a type with eight bits, and this table has 375 rows. Lean's kernel evaluates all of them. -/

namespace Sys2Proof

/-- Why a word is not an instruction: the checks of R49 that a word fails by itself. -/
inductive DecodeError where
  /-- Check 1: bits [1:0] are not 0b11. -/
  | lowBits
  /-- Check 2: the word is 0xFFFF_FFFF. -/
  | allOnes
  /-- Check 3: a major opcode from 25 to 31. -/
  | future
  /-- Check 4: a function number that is not assigned. -/
  | unassigned
  /-- Checks 4 and 5: an illegal sub-field, a field that must be 0, or an operand outside R41 to R48. -/
  | badField
  deriving DecidableEq, Repr

/-- Bits [hi:lo] of a word, as an unsigned integer (R3, R11). -/
def fld (x hi lo : Nat) : Nat := x / 2 ^ lo % 2 ^ (hi + 1 - lo)

/-- An instruction whose fixed fields hold what R41 to R48 require, or the rejection of check 5. -/
def chk (ok : Bool) (i : Instr) : Except DecodeError Instr :=
  if ok then .ok i else .error .badField

/-- Major 0 (R39, R40): LDB, LDH, LDW, LDD, LDBU, LDHU, LDWU, PREF. -/
def decodeMajor0 (x : Nat) : Except DecodeError Instr :=
  match fld x 14 12 with
  | 0 => chk (true) (.ldb (.ofNat 12 (fld x 31 20)) (.ofNat 5 (fld x 19 15)) (.ofNat 5 (fld x 11 7)))
  | 1 => chk (true) (.ldh (.ofNat 12 (fld x 31 20)) (.ofNat 5 (fld x 19 15)) (.ofNat 5 (fld x 11 7)))
  | 2 => chk (true) (.ldw (.ofNat 12 (fld x 31 20)) (.ofNat 5 (fld x 19 15)) (.ofNat 5 (fld x 11 7)))
  | 3 => chk (true) (.ldd (.ofNat 12 (fld x 31 20)) (.ofNat 5 (fld x 19 15)) (.ofNat 5 (fld x 11 7)))
  | 4 => chk (true) (.ldbu (.ofNat 12 (fld x 31 20)) (.ofNat 5 (fld x 19 15)) (.ofNat 5 (fld x 11 7)))
  | 5 => chk (true) (.ldhu (.ofNat 12 (fld x 31 20)) (.ofNat 5 (fld x 19 15)) (.ofNat 5 (fld x 11 7)))
  | 6 => chk (true) (.ldwu (.ofNat 12 (fld x 31 20)) (.ofNat 5 (fld x 19 15)) (.ofNat 5 (fld x 11 7)))
  | 7 => chk (true) (.pref (.ofNat 12 (fld x 31 20)) (.ofNat 5 (fld x 19 15)) (.ofNat 5 (fld x 11 7)))
  | _ => .error .unassigned

/-- Major 1 (R39, R40): STB, STH, STW, STD, CPIN, CUNPIN, CFLUSH. -/
def decodeMajor1 (x : Nat) : Except DecodeError Instr :=
  match fld x 14 12 with
  | 0 => chk (true) (.stb (.ofNat 12 (fld x 31 25 * 32 + fld x 11 7)) (.ofNat 5 (fld x 24 20)) (.ofNat 5 (fld x 19 15)))
  | 1 => chk (true) (.sth (.ofNat 12 (fld x 31 25 * 32 + fld x 11 7)) (.ofNat 5 (fld x 24 20)) (.ofNat 5 (fld x 19 15)))
  | 2 => chk (true) (.stw (.ofNat 12 (fld x 31 25 * 32 + fld x 11 7)) (.ofNat 5 (fld x 24 20)) (.ofNat 5 (fld x 19 15)))
  | 3 => chk (true) (.std (.ofNat 12 (fld x 31 25 * 32 + fld x 11 7)) (.ofNat 5 (fld x 24 20)) (.ofNat 5 (fld x 19 15)))
  | 4 => chk (fld x 24 20 == 0) (.cpin (.ofNat 12 (fld x 31 25 * 32 + fld x 11 7)) (.ofNat 5 (fld x 19 15)))
  | 5 => chk (fld x 24 20 == 0) (.cunpin (.ofNat 12 (fld x 31 25 * 32 + fld x 11 7)) (.ofNat 5 (fld x 19 15)))
  | 6 => chk (fld x 24 20 == 0) (.cflush (.ofNat 12 (fld x 31 25 * 32 + fld x 11 7)) (.ofNat 5 (fld x 19 15)))
  | _ => .error .unassigned

/-- Major 2 (R39, R40): ADDI, ANDI, ORI, XORI, SLTI, SLTIU, SLLI, SRLI, SRAI, RORI, SEXTB, SEXTH, SEXTW, ZEXTB, ZEXTH, ZEXTW. -/
def decodeMajor2 (x : Nat) : Except DecodeError Instr :=
  match fld x 14 12 with
  | 0 => chk (true) (.addi (.ofNat 12 (fld x 31 20)) (.ofNat 5 (fld x 19 15)) (.ofNat 5 (fld x 11 7)))
  | 1 => chk (true) (.andi (.ofNat 12 (fld x 31 20)) (.ofNat 5 (fld x 19 15)) (.ofNat 5 (fld x 11 7)))
  | 2 => chk (true) (.ori (.ofNat 12 (fld x 31 20)) (.ofNat 5 (fld x 19 15)) (.ofNat 5 (fld x 11 7)))
  | 3 => chk (true) (.xori (.ofNat 12 (fld x 31 20)) (.ofNat 5 (fld x 19 15)) (.ofNat 5 (fld x 11 7)))
  | 4 => chk (true) (.slti (.ofNat 12 (fld x 31 20)) (.ofNat 5 (fld x 19 15)) (.ofNat 5 (fld x 11 7)))
  | 5 => chk (true) (.sltiu (.ofNat 12 (fld x 31 20)) (.ofNat 5 (fld x 19 15)) (.ofNat 5 (fld x 11 7)))
  | 6 => match fld x 31 30 with
    | 0 => chk (fld x 29 26 == 0) (.slli (.ofNat 6 (fld x 25 20)) (.ofNat 5 (fld x 19 15)) (.ofNat 5 (fld x 11 7)))
    | 1 => chk (fld x 29 26 == 0) (.srli (.ofNat 6 (fld x 25 20)) (.ofNat 5 (fld x 19 15)) (.ofNat 5 (fld x 11 7)))
    | 2 => chk (fld x 29 26 == 0) (.srai (.ofNat 6 (fld x 25 20)) (.ofNat 5 (fld x 19 15)) (.ofNat 5 (fld x 11 7)))
    | 3 => chk (fld x 29 26 == 0) (.rori (.ofNat 6 (fld x 25 20)) (.ofNat 5 (fld x 19 15)) (.ofNat 5 (fld x 11 7)))
    | _ => .error .badField
  | 7 => match fld x 31 29 with
    | 0 => chk (fld x 28 20 == 0) (.sextb (.ofNat 5 (fld x 19 15)) (.ofNat 5 (fld x 11 7)))
    | 1 => chk (fld x 28 20 == 0) (.sexth (.ofNat 5 (fld x 19 15)) (.ofNat 5 (fld x 11 7)))
    | 2 => chk (fld x 28 20 == 0) (.sextw (.ofNat 5 (fld x 19 15)) (.ofNat 5 (fld x 11 7)))
    | 3 => chk (fld x 28 20 == 0) (.zextb (.ofNat 5 (fld x 19 15)) (.ofNat 5 (fld x 11 7)))
    | 4 => chk (fld x 28 20 == 0) (.zexth (.ofNat 5 (fld x 19 15)) (.ofNat 5 (fld x 11 7)))
    | 5 => chk (fld x 28 20 == 0) (.zextw (.ofNat 5 (fld x 19 15)) (.ofNat 5 (fld x 11 7)))
    | _ => .error .badField
  | _ => .error .unassigned

/-- Major 3 (R39, R40): ADD, SUB, AND, OR, XOR, SLL, SRL, SRA, ROR, SLT, SLTU, MIN, MAX, MINU, MAXU, MUL, MULH, MULHU, DIV, DIVU, REM, REMU, CLZ, CTZ, POPC, BSWAP, SEL, ANDN. -/
def decodeMajor3 (x : Nat) : Except DecodeError Instr :=
  match fld x 31 25 with
  | 0 => chk (fld x 14 12 == 0) (.add (.ofNat 5 (fld x 24 20)) (.ofNat 5 (fld x 19 15)) (.ofNat 5 (fld x 11 7)))
  | 1 => chk (fld x 14 12 == 0) (.sub (.ofNat 5 (fld x 24 20)) (.ofNat 5 (fld x 19 15)) (.ofNat 5 (fld x 11 7)))
  | 2 => chk (fld x 14 12 == 0) (.and (.ofNat 5 (fld x 24 20)) (.ofNat 5 (fld x 19 15)) (.ofNat 5 (fld x 11 7)))
  | 3 => chk (fld x 14 12 == 0) (.or (.ofNat 5 (fld x 24 20)) (.ofNat 5 (fld x 19 15)) (.ofNat 5 (fld x 11 7)))
  | 4 => chk (fld x 14 12 == 0) (.xor (.ofNat 5 (fld x 24 20)) (.ofNat 5 (fld x 19 15)) (.ofNat 5 (fld x 11 7)))
  | 5 => chk (fld x 14 12 == 0) (.sll (.ofNat 5 (fld x 24 20)) (.ofNat 5 (fld x 19 15)) (.ofNat 5 (fld x 11 7)))
  | 6 => chk (fld x 14 12 == 0) (.srl (.ofNat 5 (fld x 24 20)) (.ofNat 5 (fld x 19 15)) (.ofNat 5 (fld x 11 7)))
  | 7 => chk (fld x 14 12 == 0) (.sra (.ofNat 5 (fld x 24 20)) (.ofNat 5 (fld x 19 15)) (.ofNat 5 (fld x 11 7)))
  | 8 => chk (fld x 14 12 == 0) (.ror (.ofNat 5 (fld x 24 20)) (.ofNat 5 (fld x 19 15)) (.ofNat 5 (fld x 11 7)))
  | 9 => chk (fld x 14 12 == 0) (.slt (.ofNat 5 (fld x 24 20)) (.ofNat 5 (fld x 19 15)) (.ofNat 5 (fld x 11 7)))
  | 10 => chk (fld x 14 12 == 0) (.sltu (.ofNat 5 (fld x 24 20)) (.ofNat 5 (fld x 19 15)) (.ofNat 5 (fld x 11 7)))
  | 11 => chk (fld x 14 12 == 0) (.min (.ofNat 5 (fld x 24 20)) (.ofNat 5 (fld x 19 15)) (.ofNat 5 (fld x 11 7)))
  | 12 => chk (fld x 14 12 == 0) (.max (.ofNat 5 (fld x 24 20)) (.ofNat 5 (fld x 19 15)) (.ofNat 5 (fld x 11 7)))
  | 13 => chk (fld x 14 12 == 0) (.minu (.ofNat 5 (fld x 24 20)) (.ofNat 5 (fld x 19 15)) (.ofNat 5 (fld x 11 7)))
  | 14 => chk (fld x 14 12 == 0) (.maxu (.ofNat 5 (fld x 24 20)) (.ofNat 5 (fld x 19 15)) (.ofNat 5 (fld x 11 7)))
  | 15 => chk (fld x 14 12 == 0) (.mul (.ofNat 5 (fld x 24 20)) (.ofNat 5 (fld x 19 15)) (.ofNat 5 (fld x 11 7)))
  | 16 => chk (fld x 14 12 == 0) (.mulh (.ofNat 5 (fld x 24 20)) (.ofNat 5 (fld x 19 15)) (.ofNat 5 (fld x 11 7)))
  | 17 => chk (fld x 14 12 == 0) (.mulhu (.ofNat 5 (fld x 24 20)) (.ofNat 5 (fld x 19 15)) (.ofNat 5 (fld x 11 7)))
  | 18 => chk (fld x 14 12 == 0) (.div (.ofNat 5 (fld x 24 20)) (.ofNat 5 (fld x 19 15)) (.ofNat 5 (fld x 11 7)))
  | 19 => chk (fld x 14 12 == 0) (.divu (.ofNat 5 (fld x 24 20)) (.ofNat 5 (fld x 19 15)) (.ofNat 5 (fld x 11 7)))
  | 20 => chk (fld x 14 12 == 0) (.rem (.ofNat 5 (fld x 24 20)) (.ofNat 5 (fld x 19 15)) (.ofNat 5 (fld x 11 7)))
  | 21 => chk (fld x 14 12 == 0) (.remu (.ofNat 5 (fld x 24 20)) (.ofNat 5 (fld x 19 15)) (.ofNat 5 (fld x 11 7)))
  | 22 => chk (fld x 24 20 == 0 && fld x 14 12 == 0) (.clz (.ofNat 5 (fld x 19 15)) (.ofNat 5 (fld x 11 7)))
  | 23 => chk (fld x 24 20 == 0 && fld x 14 12 == 0) (.ctz (.ofNat 5 (fld x 19 15)) (.ofNat 5 (fld x 11 7)))
  | 24 => chk (fld x 24 20 == 0 && fld x 14 12 == 0) (.popc (.ofNat 5 (fld x 19 15)) (.ofNat 5 (fld x 11 7)))
  | 25 => chk (fld x 24 20 == 0 && fld x 14 12 == 0) (.bswap (.ofNat 5 (fld x 19 15)) (.ofNat 5 (fld x 11 7)))
  | 26 => chk (fld x 14 12 == 0) (.sel (.ofNat 5 (fld x 24 20)) (.ofNat 5 (fld x 19 15)) (.ofNat 5 (fld x 11 7)))
  | 27 => chk (fld x 14 12 == 0) (.andn (.ofNat 5 (fld x 24 20)) (.ofNat 5 (fld x 19 15)) (.ofNat 5 (fld x 11 7)))
  | _ => .error .unassigned

/-- Major 4 (R39, R40): ADDW, SUBW, MULW, SLLW, SRLW, SRAW, DIVW, REMW. -/
def decodeMajor4 (x : Nat) : Except DecodeError Instr :=
  match fld x 31 25 with
  | 0 => chk (fld x 14 12 == 0) (.addw (.ofNat 5 (fld x 24 20)) (.ofNat 5 (fld x 19 15)) (.ofNat 5 (fld x 11 7)))
  | 1 => chk (fld x 14 12 == 0) (.subw (.ofNat 5 (fld x 24 20)) (.ofNat 5 (fld x 19 15)) (.ofNat 5 (fld x 11 7)))
  | 2 => chk (fld x 14 12 == 0) (.mulw (.ofNat 5 (fld x 24 20)) (.ofNat 5 (fld x 19 15)) (.ofNat 5 (fld x 11 7)))
  | 3 => chk (fld x 14 12 == 0) (.sllw (.ofNat 5 (fld x 24 20)) (.ofNat 5 (fld x 19 15)) (.ofNat 5 (fld x 11 7)))
  | 4 => chk (fld x 14 12 == 0) (.srlw (.ofNat 5 (fld x 24 20)) (.ofNat 5 (fld x 19 15)) (.ofNat 5 (fld x 11 7)))
  | 5 => chk (fld x 14 12 == 0) (.sraw (.ofNat 5 (fld x 24 20)) (.ofNat 5 (fld x 19 15)) (.ofNat 5 (fld x 11 7)))
  | 6 => chk (fld x 14 12 == 0) (.divw (.ofNat 5 (fld x 24 20)) (.ofNat 5 (fld x 19 15)) (.ofNat 5 (fld x 11 7)))
  | 7 => chk (fld x 14 12 == 0) (.remw (.ofNat 5 (fld x 24 20)) (.ofNat 5 (fld x 19 15)) (.ofNat 5 (fld x 11 7)))
  | _ => .error .unassigned

/-- Major 5 (R39, R40): LUI. -/
def decodeMajor5 (x : Nat) : Except DecodeError Instr :=
  chk (true) (.lui (.ofNat 20 (fld x 31 12)) (.ofNat 5 (fld x 11 7)))

/-- Major 6 (R39, R40): APC. -/
def decodeMajor6 (x : Nat) : Except DecodeError Instr :=
  chk (true) (.apc (.ofNat 20 (fld x 31 12)) (.ofNat 5 (fld x 11 7)))

/-- Major 7 (R39, R40): BEQ, BNE, BLT, BGE, BLTU, BGEU, BFULL, BEMPTY. -/
def decodeMajor7 (x : Nat) : Except DecodeError Instr :=
  match fld x 14 12 with
  | 0 => chk (true) (.beq (.ofNat 12 (fld x 31 25 * 32 + fld x 11 7)) (.ofNat 5 (fld x 24 20)) (.ofNat 5 (fld x 19 15)))
  | 1 => chk (true) (.bne (.ofNat 12 (fld x 31 25 * 32 + fld x 11 7)) (.ofNat 5 (fld x 24 20)) (.ofNat 5 (fld x 19 15)))
  | 2 => chk (true) (.blt (.ofNat 12 (fld x 31 25 * 32 + fld x 11 7)) (.ofNat 5 (fld x 24 20)) (.ofNat 5 (fld x 19 15)))
  | 3 => chk (true) (.bge (.ofNat 12 (fld x 31 25 * 32 + fld x 11 7)) (.ofNat 5 (fld x 24 20)) (.ofNat 5 (fld x 19 15)))
  | 4 => chk (true) (.bltu (.ofNat 12 (fld x 31 25 * 32 + fld x 11 7)) (.ofNat 5 (fld x 24 20)) (.ofNat 5 (fld x 19 15)))
  | 5 => chk (true) (.bgeu (.ofNat 12 (fld x 31 25 * 32 + fld x 11 7)) (.ofNat 5 (fld x 24 20)) (.ofNat 5 (fld x 19 15)))
  | 6 => chk (fld x 24 20 == 0) (.bfull (.ofNat 12 (fld x 31 25 * 32 + fld x 11 7)) (.ofNat 5 (fld x 19 15)))
  | 7 => chk (fld x 24 20 == 0) (.bempty (.ofNat 12 (fld x 31 25 * 32 + fld x 11 7)) (.ofNat 5 (fld x 19 15)))
  | _ => .error .unassigned

/-- Major 8 (R39, R40): JAL. -/
def decodeMajor8 (x : Nat) : Except DecodeError Instr :=
  chk (true) (.jal (.ofNat 20 (fld x 31 12)) (.ofNat 5 (fld x 11 7)))

/-- Major 9 (R39, R40): JALR. -/
def decodeMajor9 (x : Nat) : Except DecodeError Instr :=
  chk (fld x 14 12 == 0) (.jalr (.ofNat 12 (fld x 31 20)) (.ofNat 5 (fld x 19 15)) (.ofNat 5 (fld x 11 7)))

/-- Major 10 (R39, R40): LOOP, LOOPI, LBRK, LNEXT, LIDX, YIELD. -/
def decodeMajor10 (x : Nat) : Except DecodeError Instr :=
  match fld x 14 12 with
  | 0 => chk (fld x 11 7 == 0) (.loop (.ofNat 12 (fld x 31 20)) (.ofNat 5 (fld x 19 15)))
  | 1 => chk (true) (.loopi (.ofNat 12 (fld x 31 20)) (.ofNat 10 (fld x 19 15 * 32 + fld x 11 7)))
  | 2 => chk (fld x 31 15 == 0 && fld x 11 7 == 0) (.lbrk)
  | 3 => chk (fld x 31 15 == 0 && fld x 11 7 == 0) (.lnext)
  | 4 => chk (fld x 31 23 == 0 && fld x 19 15 == 0) (.lidx (.ofNat 3 (fld x 22 20)) (.ofNat 5 (fld x 11 7)))
  | 5 => chk (fld x 31 28 == 0 && fld x 19 15 == 0 && fld x 11 7 == 0) (.yield (.ofNat 8 (fld x 27 20)))
  | _ => .error .unassigned

/-- Major 11 (R39, R40): PADD, PADDI, PSUB, PSETF, PSETP, PGETF, PCHK. -/
def decodeMajor11 (x : Nat) : Except DecodeError Instr :=
  match fld x 14 12 with
  | 0 => chk (fld x 31 25 == 0) (.padd (.ofNat 5 (fld x 24 20)) (.ofNat 5 (fld x 19 15)) (.ofNat 5 (fld x 11 7)))
  | 1 => chk (true) (.paddi (.ofNat 12 (fld x 31 20)) (.ofNat 5 (fld x 19 15)) (.ofNat 5 (fld x 11 7)))
  | 2 => chk (fld x 31 25 == 0) (.psub (.ofNat 5 (fld x 24 20)) (.ofNat 5 (fld x 19 15)) (.ofNat 5 (fld x 11 7)))
  | 3 => chk (fld x 31 28 == 0) (.psetf (.ofNat 3 (fld x 27 25)) (.ofNat 5 (fld x 24 20)) (.ofNat 5 (fld x 19 15)) (.ofNat 5 (fld x 11 7)))
  | 4 => chk (fld x 31 23 == 0) (.psetp (.ofNat 3 (fld x 22 20)) (.ofNat 5 (fld x 19 15)) (.ofNat 5 (fld x 11 7)))
  | 5 => chk (fld x 31 20 == 0) (.pgetf (.ofNat 5 (fld x 19 15)) (.ofNat 5 (fld x 11 7)))
  | 6 => chk (fld x 31 25 == 0) (.pchk (.ofNat 5 (fld x 24 20)) (.ofNat 5 (fld x 19 15)) (.ofNat 5 (fld x 11 7)))
  | _ => .error .unassigned

/-- Major 12 (R39, R40): FADD, FSUB, FMUL, FDIV, FSQRT, FMA, FMIN, FMAX, FNEG, FABS, FSGN, FEQ, FLT, FLE, FCLS, FCVTI, FCVTF, FCVTFF. -/
def decodeMajor12 (x : Nat) : Except DecodeError Instr :=
  match fld x 31 25 with
  | 0 => chk (fld x 14 14 == 0) (.fadd (.ofNat 5 (fld x 24 20)) (.ofNat 5 (fld x 19 15)) (.ofNat 2 (fld x 13 12)) (.ofNat 5 (fld x 11 7)))
  | 1 => chk (fld x 14 14 == 0) (.fsub (.ofNat 5 (fld x 24 20)) (.ofNat 5 (fld x 19 15)) (.ofNat 2 (fld x 13 12)) (.ofNat 5 (fld x 11 7)))
  | 2 => chk (fld x 14 14 == 0) (.fmul (.ofNat 5 (fld x 24 20)) (.ofNat 5 (fld x 19 15)) (.ofNat 2 (fld x 13 12)) (.ofNat 5 (fld x 11 7)))
  | 3 => chk (fld x 14 14 == 0) (.fdiv (.ofNat 5 (fld x 24 20)) (.ofNat 5 (fld x 19 15)) (.ofNat 2 (fld x 13 12)) (.ofNat 5 (fld x 11 7)))
  | 4 => chk (fld x 24 20 == 0 && fld x 14 14 == 0) (.fsqrt (.ofNat 5 (fld x 19 15)) (.ofNat 2 (fld x 13 12)) (.ofNat 5 (fld x 11 7)))
  | 5 => chk (fld x 14 14 == 0) (.fma (.ofNat 5 (fld x 24 20)) (.ofNat 5 (fld x 19 15)) (.ofNat 2 (fld x 13 12)) (.ofNat 5 (fld x 11 7)))
  | 6 => chk (fld x 14 14 == 0) (.fmin (.ofNat 5 (fld x 24 20)) (.ofNat 5 (fld x 19 15)) (.ofNat 2 (fld x 13 12)) (.ofNat 5 (fld x 11 7)))
  | 7 => chk (fld x 14 14 == 0) (.fmax (.ofNat 5 (fld x 24 20)) (.ofNat 5 (fld x 19 15)) (.ofNat 2 (fld x 13 12)) (.ofNat 5 (fld x 11 7)))
  | 8 => chk (fld x 24 20 == 0 && fld x 14 14 == 0) (.fneg (.ofNat 5 (fld x 19 15)) (.ofNat 2 (fld x 13 12)) (.ofNat 5 (fld x 11 7)))
  | 9 => chk (fld x 24 20 == 0 && fld x 14 14 == 0) (.fabs (.ofNat 5 (fld x 19 15)) (.ofNat 2 (fld x 13 12)) (.ofNat 5 (fld x 11 7)))
  | 10 => chk (fld x 14 14 == 0) (.fsgn (.ofNat 5 (fld x 24 20)) (.ofNat 5 (fld x 19 15)) (.ofNat 2 (fld x 13 12)) (.ofNat 5 (fld x 11 7)))
  | 11 => chk (fld x 14 14 == 0) (.feq (.ofNat 5 (fld x 24 20)) (.ofNat 5 (fld x 19 15)) (.ofNat 2 (fld x 13 12)) (.ofNat 5 (fld x 11 7)))
  | 12 => chk (fld x 14 14 == 0) (.flt (.ofNat 5 (fld x 24 20)) (.ofNat 5 (fld x 19 15)) (.ofNat 2 (fld x 13 12)) (.ofNat 5 (fld x 11 7)))
  | 13 => chk (fld x 14 14 == 0) (.fle (.ofNat 5 (fld x 24 20)) (.ofNat 5 (fld x 19 15)) (.ofNat 2 (fld x 13 12)) (.ofNat 5 (fld x 11 7)))
  | 14 => chk (fld x 24 20 == 0 && fld x 14 14 == 0) (.fcls (.ofNat 5 (fld x 19 15)) (.ofNat 2 (fld x 13 12)) (.ofNat 5 (fld x 11 7)))
  | 15 => chk (fld x 14 14 == 0) (.fcvti (.ofNat 5 (fld x 24 20)) (.ofNat 5 (fld x 19 15)) (.ofNat 2 (fld x 13 12)) (.ofNat 5 (fld x 11 7)))
  | 16 => chk (fld x 14 14 == 0) (.fcvtf (.ofNat 5 (fld x 24 20)) (.ofNat 5 (fld x 19 15)) (.ofNat 2 (fld x 13 12)) (.ofNat 5 (fld x 11 7)))
  | 17 => chk (fld x 14 14 == 0) (.fcvtff (.ofNat 5 (fld x 24 20)) (.ofNat 5 (fld x 19 15)) (.ofNat 2 (fld x 13 12)) (.ofNat 5 (fld x 11 7)))
  | _ => .error .unassigned

/-- Major 13 (R39, R40): VLD, VLDS, VLDX, VST, VSTS, VSTX, VLDA, VLDM, VSTM. -/
def decodeMajor13 (x : Nat) : Except DecodeError Instr :=
  match fld x 30 26 with
  | 0 => chk (fld x 24 20 == 0 && fld x 14 12 == 0) (.vld (fld x 31 31 == 1) (fld x 25 25 == 1) (.ofNat 5 (fld x 19 15)) (.ofNat 5 (fld x 11 7)))
  | 1 => chk (fld x 14 12 == 1) (.vlds (fld x 31 31 == 1) (fld x 25 25 == 1) (.ofNat 5 (fld x 24 20)) (.ofNat 5 (fld x 19 15)) (.ofNat 5 (fld x 11 7)))
  | 2 => chk (fld x 14 12 == 0) (.vldx (fld x 31 31 == 1) (fld x 25 25 == 1) (.ofNat 5 (fld x 24 20)) (.ofNat 5 (fld x 19 15)) (.ofNat 5 (fld x 11 7)))
  | 3 => chk (fld x 24 20 == 0 && fld x 14 12 == 0) (.vst (fld x 31 31 == 1) (fld x 25 25 == 1) (.ofNat 5 (fld x 19 15)) (.ofNat 5 (fld x 11 7)))
  | 4 => chk (fld x 14 12 == 1) (.vsts (fld x 31 31 == 1) (fld x 25 25 == 1) (.ofNat 5 (fld x 24 20)) (.ofNat 5 (fld x 19 15)) (.ofNat 5 (fld x 11 7)))
  | 5 => chk (fld x 14 12 == 0) (.vstx (fld x 31 31 == 1) (fld x 25 25 == 1) (.ofNat 5 (fld x 24 20)) (.ofNat 5 (fld x 19 15)) (.ofNat 5 (fld x 11 7)))
  | 6 => chk (fld x 14 12 == 0) (.vlda (fld x 31 31 == 1) (fld x 25 25 == 1) (.ofNat 5 (fld x 24 20)) (.ofNat 5 (fld x 19 15)) (.ofNat 5 (fld x 11 7)))
  | 7 => chk (fld x 25 20 == 0 && fld x 14 10 == 0) (.vldm (fld x 31 31 == 1) (.ofNat 5 (fld x 19 15)) (.ofNat 3 (fld x 9 7)))
  | 8 => chk (fld x 25 20 == 0 && fld x 14 10 == 0) (.vstm (fld x 31 31 == 1) (.ofNat 5 (fld x 19 15)) (.ofNat 3 (fld x 9 7)))
  | _ => .error .unassigned

/-- Major 14 (R39, R40): VADD, VSUB, VMUL, VMULH, VMULHU, VMADD, VMIN, VMAX, VMINU, VMAXU, VAND, VOR, VXOR, VSLL, VSRL, VSRA, VSADD, VSSUB, VCEQ, VCNE, VCLT, VCLE, VCLTU, VCLEU. -/
def decodeMajor14 (x : Nat) : Except DecodeError Instr :=
  match fld x 30 26 with
  | 0 => chk (fld x 14 14 == 0) (.vadd (fld x 31 31 == 1) (fld x 25 25 == 1) (.ofNat 5 (fld x 24 20)) (.ofNat 5 (fld x 19 15)) (.ofNat 2 (fld x 13 12)) (.ofNat 5 (fld x 11 7)))
  | 1 => chk (fld x 14 14 == 0) (.vsub (fld x 31 31 == 1) (fld x 25 25 == 1) (.ofNat 5 (fld x 24 20)) (.ofNat 5 (fld x 19 15)) (.ofNat 2 (fld x 13 12)) (.ofNat 5 (fld x 11 7)))
  | 2 => chk (fld x 14 14 == 0) (.vmul (fld x 31 31 == 1) (fld x 25 25 == 1) (.ofNat 5 (fld x 24 20)) (.ofNat 5 (fld x 19 15)) (.ofNat 2 (fld x 13 12)) (.ofNat 5 (fld x 11 7)))
  | 3 => chk (fld x 14 14 == 0) (.vmulh (fld x 31 31 == 1) (fld x 25 25 == 1) (.ofNat 5 (fld x 24 20)) (.ofNat 5 (fld x 19 15)) (.ofNat 2 (fld x 13 12)) (.ofNat 5 (fld x 11 7)))
  | 4 => chk (fld x 14 14 == 0) (.vmulhu (fld x 31 31 == 1) (fld x 25 25 == 1) (.ofNat 5 (fld x 24 20)) (.ofNat 5 (fld x 19 15)) (.ofNat 2 (fld x 13 12)) (.ofNat 5 (fld x 11 7)))
  | 5 => chk (fld x 14 14 == 0) (.vmadd (fld x 31 31 == 1) (fld x 25 25 == 1) (.ofNat 5 (fld x 24 20)) (.ofNat 5 (fld x 19 15)) (.ofNat 2 (fld x 13 12)) (.ofNat 5 (fld x 11 7)))
  | 6 => chk (fld x 14 14 == 0) (.vmin (fld x 31 31 == 1) (fld x 25 25 == 1) (.ofNat 5 (fld x 24 20)) (.ofNat 5 (fld x 19 15)) (.ofNat 2 (fld x 13 12)) (.ofNat 5 (fld x 11 7)))
  | 7 => chk (fld x 14 14 == 0) (.vmax (fld x 31 31 == 1) (fld x 25 25 == 1) (.ofNat 5 (fld x 24 20)) (.ofNat 5 (fld x 19 15)) (.ofNat 2 (fld x 13 12)) (.ofNat 5 (fld x 11 7)))
  | 8 => chk (fld x 14 14 == 0) (.vminu (fld x 31 31 == 1) (fld x 25 25 == 1) (.ofNat 5 (fld x 24 20)) (.ofNat 5 (fld x 19 15)) (.ofNat 2 (fld x 13 12)) (.ofNat 5 (fld x 11 7)))
  | 9 => chk (fld x 14 14 == 0) (.vmaxu (fld x 31 31 == 1) (fld x 25 25 == 1) (.ofNat 5 (fld x 24 20)) (.ofNat 5 (fld x 19 15)) (.ofNat 2 (fld x 13 12)) (.ofNat 5 (fld x 11 7)))
  | 10 => chk (fld x 14 14 == 0) (.vand (fld x 31 31 == 1) (fld x 25 25 == 1) (.ofNat 5 (fld x 24 20)) (.ofNat 5 (fld x 19 15)) (.ofNat 2 (fld x 13 12)) (.ofNat 5 (fld x 11 7)))
  | 11 => chk (fld x 14 14 == 0) (.vor (fld x 31 31 == 1) (fld x 25 25 == 1) (.ofNat 5 (fld x 24 20)) (.ofNat 5 (fld x 19 15)) (.ofNat 2 (fld x 13 12)) (.ofNat 5 (fld x 11 7)))
  | 12 => chk (fld x 14 14 == 0) (.vxor (fld x 31 31 == 1) (fld x 25 25 == 1) (.ofNat 5 (fld x 24 20)) (.ofNat 5 (fld x 19 15)) (.ofNat 2 (fld x 13 12)) (.ofNat 5 (fld x 11 7)))
  | 13 => chk (fld x 14 14 == 0) (.vsll (fld x 31 31 == 1) (fld x 25 25 == 1) (.ofNat 5 (fld x 24 20)) (.ofNat 5 (fld x 19 15)) (.ofNat 2 (fld x 13 12)) (.ofNat 5 (fld x 11 7)))
  | 14 => chk (fld x 14 14 == 0) (.vsrl (fld x 31 31 == 1) (fld x 25 25 == 1) (.ofNat 5 (fld x 24 20)) (.ofNat 5 (fld x 19 15)) (.ofNat 2 (fld x 13 12)) (.ofNat 5 (fld x 11 7)))
  | 15 => chk (fld x 14 14 == 0) (.vsra (fld x 31 31 == 1) (fld x 25 25 == 1) (.ofNat 5 (fld x 24 20)) (.ofNat 5 (fld x 19 15)) (.ofNat 2 (fld x 13 12)) (.ofNat 5 (fld x 11 7)))
  | 16 => chk (fld x 14 14 == 0) (.vsadd (fld x 31 31 == 1) (fld x 25 25 == 1) (.ofNat 5 (fld x 24 20)) (.ofNat 5 (fld x 19 15)) (.ofNat 2 (fld x 13 12)) (.ofNat 5 (fld x 11 7)))
  | 17 => chk (fld x 14 14 == 0) (.vssub (fld x 31 31 == 1) (fld x 25 25 == 1) (.ofNat 5 (fld x 24 20)) (.ofNat 5 (fld x 19 15)) (.ofNat 2 (fld x 13 12)) (.ofNat 5 (fld x 11 7)))
  | 18 => chk (fld x 14 14 == 0 && fld x 11 10 == 0) (.vceq (fld x 31 31 == 1) (fld x 25 25 == 1) (.ofNat 5 (fld x 24 20)) (.ofNat 5 (fld x 19 15)) (.ofNat 2 (fld x 13 12)) (.ofNat 3 (fld x 9 7)))
  | 19 => chk (fld x 14 14 == 0 && fld x 11 10 == 0) (.vcne (fld x 31 31 == 1) (fld x 25 25 == 1) (.ofNat 5 (fld x 24 20)) (.ofNat 5 (fld x 19 15)) (.ofNat 2 (fld x 13 12)) (.ofNat 3 (fld x 9 7)))
  | 20 => chk (fld x 14 14 == 0 && fld x 11 10 == 0) (.vclt (fld x 31 31 == 1) (fld x 25 25 == 1) (.ofNat 5 (fld x 24 20)) (.ofNat 5 (fld x 19 15)) (.ofNat 2 (fld x 13 12)) (.ofNat 3 (fld x 9 7)))
  | 21 => chk (fld x 14 14 == 0 && fld x 11 10 == 0) (.vcle (fld x 31 31 == 1) (fld x 25 25 == 1) (.ofNat 5 (fld x 24 20)) (.ofNat 5 (fld x 19 15)) (.ofNat 2 (fld x 13 12)) (.ofNat 3 (fld x 9 7)))
  | 22 => chk (fld x 14 14 == 0 && fld x 11 10 == 0) (.vcltu (fld x 31 31 == 1) (fld x 25 25 == 1) (.ofNat 5 (fld x 24 20)) (.ofNat 5 (fld x 19 15)) (.ofNat 2 (fld x 13 12)) (.ofNat 3 (fld x 9 7)))
  | 23 => chk (fld x 14 14 == 0 && fld x 11 10 == 0) (.vcleu (fld x 31 31 == 1) (fld x 25 25 == 1) (.ofNat 5 (fld x 24 20)) (.ofNat 5 (fld x 19 15)) (.ofNat 2 (fld x 13 12)) (.ofNat 3 (fld x 9 7)))
  | _ => .error .unassigned

/-- Major 15 (R39, R40): VFADD, VFSUB, VFMUL, VFDIV, VFSQRT, VFMA, VFMS, VFNMA, VFMIN, VFMAX, VFABS, VFNEG, VFRCP, VFRSQ, VFEXP2, VFCEQ, VFCLT, VFCLE, VFCLS. -/
def decodeMajor15 (x : Nat) : Except DecodeError Instr :=
  match fld x 30 26 with
  | 0 => chk (fld x 14 14 == 0) (.vfadd (fld x 31 31 == 1) (fld x 25 25 == 1) (.ofNat 5 (fld x 24 20)) (.ofNat 5 (fld x 19 15)) (.ofNat 2 (fld x 13 12)) (.ofNat 5 (fld x 11 7)))
  | 1 => chk (fld x 14 14 == 0) (.vfsub (fld x 31 31 == 1) (fld x 25 25 == 1) (.ofNat 5 (fld x 24 20)) (.ofNat 5 (fld x 19 15)) (.ofNat 2 (fld x 13 12)) (.ofNat 5 (fld x 11 7)))
  | 2 => chk (fld x 14 14 == 0) (.vfmul (fld x 31 31 == 1) (fld x 25 25 == 1) (.ofNat 5 (fld x 24 20)) (.ofNat 5 (fld x 19 15)) (.ofNat 2 (fld x 13 12)) (.ofNat 5 (fld x 11 7)))
  | 3 => chk (fld x 14 14 == 0) (.vfdiv (fld x 31 31 == 1) (fld x 25 25 == 1) (.ofNat 5 (fld x 24 20)) (.ofNat 5 (fld x 19 15)) (.ofNat 2 (fld x 13 12)) (.ofNat 5 (fld x 11 7)))
  | 4 => chk (fld x 24 20 == 0 && fld x 14 12 == 0) (.vfsqrt (fld x 31 31 == 1) (fld x 25 25 == 1) (.ofNat 5 (fld x 19 15)) (.ofNat 5 (fld x 11 7)))
  | 5 => chk (fld x 14 14 == 0) (.vfma (fld x 31 31 == 1) (fld x 25 25 == 1) (.ofNat 5 (fld x 24 20)) (.ofNat 5 (fld x 19 15)) (.ofNat 2 (fld x 13 12)) (.ofNat 5 (fld x 11 7)))
  | 6 => chk (fld x 14 14 == 0) (.vfms (fld x 31 31 == 1) (fld x 25 25 == 1) (.ofNat 5 (fld x 24 20)) (.ofNat 5 (fld x 19 15)) (.ofNat 2 (fld x 13 12)) (.ofNat 5 (fld x 11 7)))
  | 7 => chk (fld x 14 14 == 0) (.vfnma (fld x 31 31 == 1) (fld x 25 25 == 1) (.ofNat 5 (fld x 24 20)) (.ofNat 5 (fld x 19 15)) (.ofNat 2 (fld x 13 12)) (.ofNat 5 (fld x 11 7)))
  | 8 => chk (fld x 14 14 == 0) (.vfmin (fld x 31 31 == 1) (fld x 25 25 == 1) (.ofNat 5 (fld x 24 20)) (.ofNat 5 (fld x 19 15)) (.ofNat 2 (fld x 13 12)) (.ofNat 5 (fld x 11 7)))
  | 9 => chk (fld x 14 14 == 0) (.vfmax (fld x 31 31 == 1) (fld x 25 25 == 1) (.ofNat 5 (fld x 24 20)) (.ofNat 5 (fld x 19 15)) (.ofNat 2 (fld x 13 12)) (.ofNat 5 (fld x 11 7)))
  | 10 => chk (fld x 24 20 == 0 && fld x 14 12 == 0) (.vfabs (fld x 31 31 == 1) (fld x 25 25 == 1) (.ofNat 5 (fld x 19 15)) (.ofNat 5 (fld x 11 7)))
  | 11 => chk (fld x 24 20 == 0 && fld x 14 12 == 0) (.vfneg (fld x 31 31 == 1) (fld x 25 25 == 1) (.ofNat 5 (fld x 19 15)) (.ofNat 5 (fld x 11 7)))
  | 12 => chk (fld x 24 20 == 0 && fld x 14 12 == 0) (.vfrcp (fld x 31 31 == 1) (fld x 25 25 == 1) (.ofNat 5 (fld x 19 15)) (.ofNat 5 (fld x 11 7)))
  | 13 => chk (fld x 24 20 == 0 && fld x 14 12 == 0) (.vfrsq (fld x 31 31 == 1) (fld x 25 25 == 1) (.ofNat 5 (fld x 19 15)) (.ofNat 5 (fld x 11 7)))
  | 14 => chk (fld x 24 20 == 0 && fld x 14 12 == 0) (.vfexp2 (fld x 31 31 == 1) (fld x 25 25 == 1) (.ofNat 5 (fld x 19 15)) (.ofNat 5 (fld x 11 7)))
  | 15 => chk (fld x 14 14 == 0 && fld x 11 10 == 0) (.vfceq (fld x 31 31 == 1) (fld x 25 25 == 1) (.ofNat 5 (fld x 24 20)) (.ofNat 5 (fld x 19 15)) (.ofNat 2 (fld x 13 12)) (.ofNat 3 (fld x 9 7)))
  | 16 => chk (fld x 14 14 == 0 && fld x 11 10 == 0) (.vfclt (fld x 31 31 == 1) (fld x 25 25 == 1) (.ofNat 5 (fld x 24 20)) (.ofNat 5 (fld x 19 15)) (.ofNat 2 (fld x 13 12)) (.ofNat 3 (fld x 9 7)))
  | 17 => chk (fld x 14 14 == 0 && fld x 11 10 == 0) (.vfcle (fld x 31 31 == 1) (fld x 25 25 == 1) (.ofNat 5 (fld x 24 20)) (.ofNat 5 (fld x 19 15)) (.ofNat 2 (fld x 13 12)) (.ofNat 3 (fld x 9 7)))
  | 18 => chk (fld x 24 20 == 0 && fld x 14 12 == 0) (.vfcls (fld x 31 31 == 1) (fld x 25 25 == 1) (.ofNat 5 (fld x 19 15)) (.ofNat 5 (fld x 11 7)))
  | _ => .error .unassigned

/-- Major 16 (R39, R40): VCFG, VGRANT, VCVT, VCVT_SR, VSPLAT, VMVS, VMVV, VIOTA, VSLUP, VSLDN, VGATHR, VCOMPR, VMERGE, VREDSUM, VREDMIN, VREDMAX, VFREDSUM, VFREDMIN, VFREDMAX, MLOG, MPOP, MFIRST, VHWM, VHWM_CLR. -/
def decodeMajor16 (x : Nat) : Except DecodeError Instr :=
  match fld x 30 26 with
  | 0 => chk (fld x 25 25 == 0 && fld x 14 12 == 1) (.vcfg (fld x 31 31 == 1) (.ofNat 5 (fld x 24 20)) (.ofNat 5 (fld x 19 15)) (.ofNat 5 (fld x 11 7)))
  | 1 => chk (fld x 25 12 == 0) (.vgrant (fld x 31 31 == 1) (.ofNat 5 (fld x 11 7)))
  | 2 => match fld x 14 12 with
    | 0 => chk (true) (.vcvt (fld x 31 31 == 1) (fld x 25 25 == 1) (.ofNat 5 (fld x 24 20)) (.ofNat 5 (fld x 19 15)) (.ofNat 5 (fld x 11 7)))
    | 3 => chk (true) (.vcvtSr (fld x 31 31 == 1) (fld x 25 25 == 1) (.ofNat 5 (fld x 24 20)) (.ofNat 5 (fld x 19 15)) (.ofNat 5 (fld x 11 7)))
    | _ => .error .badField
  | 3 => chk (fld x 19 14 == 0) (.vsplat (fld x 31 31 == 1) (fld x 25 25 == 1) (.ofNat 5 (fld x 24 20)) (.ofNat 2 (fld x 13 12)) (.ofNat 5 (fld x 11 7)))
  | 4 => chk (fld x 25 25 == 0 && fld x 14 14 == 0) (.vmvs (fld x 31 31 == 1) (.ofNat 5 (fld x 24 20)) (.ofNat 5 (fld x 19 15)) (.ofNat 2 (fld x 13 12)) (.ofNat 5 (fld x 11 7)))
  | 5 => chk (fld x 24 20 == 0 && fld x 14 12 == 0) (.vmvv (fld x 31 31 == 1) (fld x 25 25 == 1) (.ofNat 5 (fld x 19 15)) (.ofNat 5 (fld x 11 7)))
  | 6 => chk (fld x 24 12 == 0) (.viota (fld x 31 31 == 1) (fld x 25 25 == 1) (.ofNat 5 (fld x 11 7)))
  | 7 => chk (fld x 14 14 == 0) (.vslup (fld x 31 31 == 1) (fld x 25 25 == 1) (.ofNat 5 (fld x 24 20)) (.ofNat 5 (fld x 19 15)) (.ofNat 2 (fld x 13 12)) (.ofNat 5 (fld x 11 7)))
  | 8 => chk (fld x 14 14 == 0) (.vsldn (fld x 31 31 == 1) (fld x 25 25 == 1) (.ofNat 5 (fld x 24 20)) (.ofNat 5 (fld x 19 15)) (.ofNat 2 (fld x 13 12)) (.ofNat 5 (fld x 11 7)))
  | 9 => chk (fld x 25 25 == 0 && fld x 14 14 == 0) (.vgathr (fld x 31 31 == 1) (.ofNat 5 (fld x 24 20)) (.ofNat 5 (fld x 19 15)) (.ofNat 2 (fld x 13 12)) (.ofNat 5 (fld x 11 7)))
  | 10 => chk (fld x 25 20 == 0 && fld x 14 12 == 0) (.vcompr (fld x 31 31 == 1) (.ofNat 5 (fld x 19 15)) (.ofNat 5 (fld x 11 7)))
  | 11 => chk (fld x 25 25 == 1 && fld x 14 14 == 0) (.vmerge (fld x 31 31 == 1) (.ofNat 5 (fld x 24 20)) (.ofNat 5 (fld x 19 15)) (.ofNat 2 (fld x 13 12)) (.ofNat 5 (fld x 11 7)))
  | 12 => chk (fld x 14 12 == 0) (.vredsum (fld x 31 31 == 1) (fld x 25 25 == 1) (.ofNat 5 (fld x 24 20)) (.ofNat 5 (fld x 19 15)) (.ofNat 5 (fld x 11 7)))
  | 13 => chk (fld x 14 12 == 0) (.vredmin (fld x 31 31 == 1) (fld x 25 25 == 1) (.ofNat 5 (fld x 24 20)) (.ofNat 5 (fld x 19 15)) (.ofNat 5 (fld x 11 7)))
  | 14 => chk (fld x 14 12 == 0) (.vredmax (fld x 31 31 == 1) (fld x 25 25 == 1) (.ofNat 5 (fld x 24 20)) (.ofNat 5 (fld x 19 15)) (.ofNat 5 (fld x 11 7)))
  | 15 => chk (fld x 14 12 == 0) (.vfredsum (fld x 31 31 == 1) (fld x 25 25 == 1) (.ofNat 5 (fld x 24 20)) (.ofNat 5 (fld x 19 15)) (.ofNat 5 (fld x 11 7)))
  | 16 => chk (fld x 14 12 == 0) (.vfredmin (fld x 31 31 == 1) (fld x 25 25 == 1) (.ofNat 5 (fld x 24 20)) (.ofNat 5 (fld x 19 15)) (.ofNat 5 (fld x 11 7)))
  | 17 => chk (fld x 14 12 == 0) (.vfredmax (fld x 31 31 == 1) (fld x 25 25 == 1) (.ofNat 5 (fld x 24 20)) (.ofNat 5 (fld x 19 15)) (.ofNat 5 (fld x 11 7)))
  | 18 => chk (fld x 25 23 == 0 && fld x 19 18 == 0 && fld x 14 14 == 0 && fld x 11 10 == 0) (.mlog (fld x 31 31 == 1) (.ofNat 3 (fld x 22 20)) (.ofNat 3 (fld x 17 15)) (.ofNat 2 (fld x 13 12)) (.ofNat 3 (fld x 9 7)))
  | 19 => chk (fld x 25 18 == 0 && fld x 14 12 == 0) (.mpop (fld x 31 31 == 1) (.ofNat 3 (fld x 17 15)) (.ofNat 5 (fld x 11 7)))
  | 20 => chk (fld x 25 18 == 0 && fld x 14 12 == 0) (.mfirst (fld x 31 31 == 1) (.ofNat 3 (fld x 17 15)) (.ofNat 5 (fld x 11 7)))
  | 21 => match fld x 14 12 with
    | 0 => chk (fld x 25 20 == 0) (.vhwm (fld x 31 31 == 1) (.ofNat 5 (fld x 19 15)) (.ofNat 5 (fld x 11 7)))
    | 3 => chk (fld x 25 20 == 0) (.vhwmClr (fld x 31 31 == 1) (.ofNat 5 (fld x 19 15)) (.ofNat 5 (fld x 11 7)))
    | _ => .error .badField
  | _ => .error .unassigned

/-- Major 17 (R39, R40): MCLAIM, MRELS, MZERO, MTASK, MWAIT, MWAIT_ACC, MRD, MWR, MSTAT. -/
def decodeMajor17 (x : Nat) : Except DecodeError Instr :=
  match fld x 31 25 with
  | 0 => chk (fld x 24 10 == 0) (.mclaim (.ofNat 3 (fld x 9 7)))
  | 1 => chk (fld x 24 10 == 0) (.mrels (.ofNat 3 (fld x 9 7)))
  | 2 => chk (fld x 24 10 == 0) (.mzero (.ofNat 3 (fld x 9 7)))
  | 3 => chk (fld x 24 20 == 0 && fld x 14 12 == 0) (.mtask (.ofNat 5 (fld x 19 15)) (.ofNat 5 (fld x 11 7)))
  | 4 => match fld x 14 12 with
    | 0 => chk (fld x 24 20 == 0 && fld x 11 7 == 0) (.mwait (.ofNat 5 (fld x 19 15)))
    | 1 => chk (fld x 24 18 == 0 && fld x 11 7 == 0) (.mwaitAcc (.ofNat 3 (fld x 17 15)))
    | _ => .error .badField
  | 5 => chk (fld x 19 18 == 0 && fld x 14 12 == 0) (.mrd (.ofNat 5 (fld x 24 20)) (.ofNat 3 (fld x 17 15)) (.ofNat 5 (fld x 11 7)))
  | 6 => chk (fld x 14 10 == 0) (.mwr (.ofNat 5 (fld x 24 20)) (.ofNat 5 (fld x 19 15)) (.ofNat 3 (fld x 9 7)))
  | 7 => chk (fld x 24 18 == 0 && fld x 14 12 == 0) (.mstat (.ofNat 3 (fld x 17 15)) (.ofNat 5 (fld x 11 7)))
  | _ => .error .unassigned

/-- Major 18 (R39, R40): XCOPY, XCOPY2, XPLN, XFILL, XRED, XCOLL, XWAIT, MBPUT, MBTAKE. -/
def decodeMajor18 (x : Nat) : Except DecodeError Instr :=
  match fld x 31 25 with
  | 0 => chk (true) (.xcopy (.ofNat 5 (fld x 24 20)) (.ofNat 5 (fld x 19 15)) (.ofNat 3 (fld x 14 12)) (.ofNat 5 (fld x 11 7)))
  | 1 => chk (true) (.xcopy2 (.ofNat 5 (fld x 24 20)) (.ofNat 5 (fld x 19 15)) (.ofNat 3 (fld x 14 12)) (.ofNat 5 (fld x 11 7)))
  | 2 => chk (true) (.xpln (.ofNat 5 (fld x 24 20)) (.ofNat 5 (fld x 19 15)) (.ofNat 3 (fld x 14 12)) (.ofNat 5 (fld x 11 7)))
  | 3 => chk (true) (.xfill (.ofNat 5 (fld x 24 20)) (.ofNat 5 (fld x 19 15)) (.ofNat 3 (fld x 14 12)) (.ofNat 5 (fld x 11 7)))
  | 4 => chk (true) (.xred (.ofNat 5 (fld x 24 20)) (.ofNat 5 (fld x 19 15)) (.ofNat 3 (fld x 14 12)) (.ofNat 5 (fld x 11 7)))
  | 5 => chk (true) (.xcoll (.ofNat 5 (fld x 24 20)) (.ofNat 5 (fld x 19 15)) (.ofNat 3 (fld x 14 12)) (.ofNat 5 (fld x 11 7)))
  | 6 => chk (fld x 24 20 == 0 && fld x 11 7 == 0) (.xwait (.ofNat 5 (fld x 19 15)) (.ofNat 3 (fld x 14 12)))
  | 7 => chk (fld x 24 22 == 0 && fld x 14 7 == 0) (.mbput (.ofNat 2 (fld x 21 20)) (.ofNat 5 (fld x 19 15)))
  | 8 => chk (fld x 24 22 == 0 && fld x 19 12 == 0) (.mbtake (.ofNat 2 (fld x 21 20)) (.ofNat 5 (fld x 11 7)))
  | _ => .error .unassigned

/-- Major 19 (R39, R40): SEND, SENDQ, RECV, RPOLL, MCLASS, MIGR, RANK, RKSET. -/
def decodeMajor19 (x : Nat) : Except DecodeError Instr :=
  match fld x 31 25 with
  | 0 => chk (fld x 11 11 == 0) (.send (.ofNat 5 (fld x 24 20)) (.ofNat 5 (fld x 19 15)) (.ofNat 3 (fld x 14 12)) (.ofNat 4 (fld x 10 7)))
  | 1 => chk (fld x 14 11 == 0) (.sendq (.ofNat 5 (fld x 24 20)) (.ofNat 5 (fld x 19 15)) (.ofNat 4 (fld x 10 7)))
  | 2 => chk (fld x 24 24 == 0 && fld x 19 15 == 0) (.recv (.ofNat 4 (fld x 23 20)) (.ofNat 3 (fld x 14 12)) (.ofNat 5 (fld x 11 7)))
  | 3 => chk (fld x 24 24 == 0 && fld x 19 12 == 0) (.rpoll (.ofNat 4 (fld x 23 20)) (.ofNat 5 (fld x 11 7)))
  | 4 => chk (fld x 24 24 == 0 && fld x 14 7 == 0) (.mclass (.ofNat 4 (fld x 23 20)) (.ofNat 5 (fld x 19 15)))
  | 5 => chk (fld x 24 20 == 0 && fld x 14 7 == 0) (.migr (.ofNat 5 (fld x 19 15)))
  | 6 => chk (fld x 24 12 == 0) (.rank (.ofNat 5 (fld x 11 7)))
  | 7 => chk (fld x 14 7 == 0) (.rkset (.ofNat 5 (fld x 24 20)) (.ofNat 5 (fld x 19 15)))
  | _ => .error .unassigned

/-- Major 20 (R39, R40): EPOPEN, EPSEND, EPRECV, EPCLOSE, EPABORT, EPVER_ANN, EPVER_WAIT, EPVER_ABORT, EPACT, EPOBS, EPEND. -/
def decodeMajor20 (x : Nat) : Except DecodeError Instr :=
  match fld x 31 25 with
  | 0 => chk (fld x 24 20 == 0 && fld x 14 12 == 0) (.epopen (.ofNat 5 (fld x 19 15)) (.ofNat 5 (fld x 11 7)))
  | 1 => chk (fld x 14 7 == 0) (.epsend (.ofNat 5 (fld x 24 20)) (.ofNat 5 (fld x 19 15)))
  | 2 => chk (fld x 14 12 == 0) (.eprecv (.ofNat 5 (fld x 24 20)) (.ofNat 5 (fld x 19 15)) (.ofNat 5 (fld x 11 7)))
  | 3 => chk (fld x 24 20 == 0 && fld x 14 7 == 0) (.epclose (.ofNat 5 (fld x 19 15)))
  | 4 => chk (fld x 24 20 == 0 && fld x 14 7 == 0) (.epabort (.ofNat 5 (fld x 19 15)))
  | 5 => match fld x 14 12 with
    | 0 => chk (fld x 24 20 == 0 && fld x 11 7 == 0) (.epverAnn (.ofNat 5 (fld x 19 15)))
    | 1 => chk (fld x 24 20 == 0 && fld x 11 7 == 0) (.epverWait (.ofNat 5 (fld x 19 15)))
    | 2 => chk (fld x 24 20 == 0 && fld x 11 7 == 0) (.epverAbort (.ofNat 5 (fld x 19 15)))
    | _ => .error .badField
  | 6 => chk (fld x 19 12 == 0) (.epact (.ofNat 5 (fld x 24 20)) (.ofNat 5 (fld x 11 7)))
  | 7 => chk (fld x 14 7 == 0) (.epobs (.ofNat 5 (fld x 24 20)) (.ofNat 5 (fld x 19 15)))
  | 8 => chk (fld x 14 7 == 0) (.epend (.ofNat 5 (fld x 24 20)) (.ofNat 5 (fld x 19 15)))
  | _ => .error .unassigned

/-- Major 21 (R39, R40): AMOADD, AMOSWP, AMOCAS, AMOMIN, AMOMAX, AMOMINU, AMOMAXU, AMOAND, AMOOR, AMOXOR. -/
def decodeMajor21 (x : Nat) : Except DecodeError Instr :=
  match fld x 31 27 with
  | 0 => chk (true) (.amoadd (.ofNat 2 (fld x 26 25)) (.ofNat 5 (fld x 24 20)) (.ofNat 5 (fld x 19 15)) (.ofNat 2 (fld x 14 13)) (fld x 12 12 == 1) (.ofNat 5 (fld x 11 7)))
  | 1 => chk (true) (.amoswp (.ofNat 2 (fld x 26 25)) (.ofNat 5 (fld x 24 20)) (.ofNat 5 (fld x 19 15)) (.ofNat 2 (fld x 14 13)) (fld x 12 12 == 1) (.ofNat 5 (fld x 11 7)))
  | 2 => chk (true) (.amocas (.ofNat 2 (fld x 26 25)) (.ofNat 5 (fld x 24 20)) (.ofNat 5 (fld x 19 15)) (.ofNat 2 (fld x 14 13)) (fld x 12 12 == 1) (.ofNat 5 (fld x 11 7)))
  | 3 => chk (true) (.amomin (.ofNat 2 (fld x 26 25)) (.ofNat 5 (fld x 24 20)) (.ofNat 5 (fld x 19 15)) (.ofNat 2 (fld x 14 13)) (fld x 12 12 == 1) (.ofNat 5 (fld x 11 7)))
  | 4 => chk (true) (.amomax (.ofNat 2 (fld x 26 25)) (.ofNat 5 (fld x 24 20)) (.ofNat 5 (fld x 19 15)) (.ofNat 2 (fld x 14 13)) (fld x 12 12 == 1) (.ofNat 5 (fld x 11 7)))
  | 5 => chk (true) (.amominu (.ofNat 2 (fld x 26 25)) (.ofNat 5 (fld x 24 20)) (.ofNat 5 (fld x 19 15)) (.ofNat 2 (fld x 14 13)) (fld x 12 12 == 1) (.ofNat 5 (fld x 11 7)))
  | 6 => chk (true) (.amomaxu (.ofNat 2 (fld x 26 25)) (.ofNat 5 (fld x 24 20)) (.ofNat 5 (fld x 19 15)) (.ofNat 2 (fld x 14 13)) (fld x 12 12 == 1) (.ofNat 5 (fld x 11 7)))
  | 7 => chk (true) (.amoand (.ofNat 2 (fld x 26 25)) (.ofNat 5 (fld x 24 20)) (.ofNat 5 (fld x 19 15)) (.ofNat 2 (fld x 14 13)) (fld x 12 12 == 1) (.ofNat 5 (fld x 11 7)))
  | 8 => chk (true) (.amoor (.ofNat 2 (fld x 26 25)) (.ofNat 5 (fld x 24 20)) (.ofNat 5 (fld x 19 15)) (.ofNat 2 (fld x 14 13)) (fld x 12 12 == 1) (.ofNat 5 (fld x 11 7)))
  | 9 => chk (true) (.amoxor (.ofNat 2 (fld x 26 25)) (.ofNat 5 (fld x 24 20)) (.ofNat 5 (fld x 19 15)) (.ofNat 2 (fld x 14 13)) (fld x 12 12 == 1) (.ofNat 5 (fld x 11 7)))
  | _ => .error .unassigned

/-- Major 22 (R39, R40): ACQ, REL, FENCE, XFENCE, QLOCK, QUNLK, QWAIT, BAR, TAKE, FILL, EMPTY, WAITT. -/
noncomputable def decodeMajor22 (x : Nat) : Except DecodeError Instr :=
  match fld x 31 25 with
  | 0 => chk (fld x 24 24 == 0 && fld x 14 14 == 0 && fld x 11 7 == 0) (.acq (.ofNat 4 (fld x 23 20)) (.ofNat 5 (fld x 19 15)) (.ofNat 2 (fld x 13 12)))
  | 1 => chk (fld x 24 24 == 0 && fld x 14 14 == 0 && fld x 11 7 == 0) (.rel (.ofNat 4 (fld x 23 20)) (.ofNat 5 (fld x 19 15)) (.ofNat 2 (fld x 13 12)))
  | 2 => chk (fld x 24 24 == 0 && fld x 19 14 == 0 && fld x 11 7 == 0) (.fence (.ofNat 4 (fld x 23 20)) (.ofNat 2 (fld x 13 12)))
  | 3 => chk (fld x 14 14 == 0 && fld x 11 7 == 0) (.xfence (.ofNat 5 (fld x 24 20)) (.ofNat 5 (fld x 19 15)) (.ofNat 2 (fld x 13 12)))
  | 4 => chk (fld x 24 20 == 0 && fld x 14 14 == 0 && fld x 11 7 == 0) (.qlock (.ofNat 5 (fld x 19 15)) (.ofNat 2 (fld x 13 12)))
  | 5 => chk (fld x 24 20 == 0 && fld x 14 14 == 0 && fld x 11 7 == 0) (.qunlk (.ofNat 5 (fld x 19 15)) (.ofNat 2 (fld x 13 12)))
  | 6 => chk (true) (.qwait (.ofNat 5 (fld x 24 20)) (.ofNat 5 (fld x 19 15)) (.ofNat 3 (fld x 14 12)) (.ofNat 5 (fld x 11 7)))
  | 7 => chk (fld x 24 20 == 0 && fld x 11 7 == 0) (.bar (.ofNat 5 (fld x 19 15)) (.ofNat 3 (fld x 14 12)))
  | 8 => chk (fld x 24 20 == 0 && fld x 14 12 == 0) (.take (.ofNat 5 (fld x 19 15)) (.ofNat 5 (fld x 11 7)))
  | 9 => chk (fld x 14 12 == 0) (.fill (.ofNat 5 (fld x 24 20)) (.ofNat 5 (fld x 19 15)) (.ofNat 5 (fld x 11 7)))
  | 10 => chk (fld x 24 12 == 0) (.empty (.ofNat 5 (fld x 11 7)))
  | 11 => chk (fld x 24 20 == 0 && fld x 14 7 == 0) (.waitt (.ofNat 5 (fld x 19 15)))
  | _ => .error .unassigned

/-- Major 23 (R39, R40): TSTART, TREAP, TKILL, TSAVE, TLOAD, TSTAT, TSELF, SUCC, RETIRE, EXIT, LAUNCH. -/
noncomputable def decodeMajor23 (x : Nat) : Except DecodeError Instr :=
  match fld x 31 25 with
  | 0 => chk (fld x 24 20 == 0 && fld x 14 12 == 0) (.tstart (.ofNat 5 (fld x 19 15)) (.ofNat 5 (fld x 11 7)))
  | 1 => chk (fld x 24 20 == 0 && fld x 14 12 == 0) (.treap (.ofNat 5 (fld x 19 15)) (.ofNat 5 (fld x 11 7)))
  | 2 => chk (fld x 24 20 == 0 && fld x 14 7 == 0) (.tkill (.ofNat 5 (fld x 19 15)))
  | 3 => chk (fld x 14 7 == 0) (.tsave (.ofNat 5 (fld x 24 20)) (.ofNat 5 (fld x 19 15)))
  | 4 => chk (fld x 14 7 == 0) (.tload (.ofNat 5 (fld x 24 20)) (.ofNat 5 (fld x 19 15)))
  | 5 => chk (fld x 24 20 == 0 && fld x 14 12 == 0) (.tstat (.ofNat 5 (fld x 19 15)) (.ofNat 5 (fld x 11 7)))
  | 6 => chk (fld x 24 12 == 0) (.tself (.ofNat 5 (fld x 11 7)))
  | 7 => chk (fld x 24 20 == 0 && fld x 14 12 == 0) (.succ (.ofNat 5 (fld x 19 15)) (.ofNat 5 (fld x 11 7)))
  | 8 => chk (fld x 24 7 == 0) (.retire)
  | 9 => chk (fld x 24 7 == 0) (.exit)
  | 10 => chk (fld x 24 20 == 0 && fld x 14 12 == 0) (.launch (.ofNat 5 (fld x 19 15)) (.ofNat 5 (fld x 11 7)))
  | _ => .error .unassigned

/-- Major 24 (R39, R40): CSRR, CSRW, CSRS, CSRC, SYSC, TRAP, TRET, BREAK. -/
noncomputable def decodeMajor24 (x : Nat) : Except DecodeError Instr :=
  match fld x 14 12 with
  | 0 => chk (fld x 19 15 == 0) (.csrr (.ofNat 12 (fld x 31 20)) (.ofNat 5 (fld x 11 7)))
  | 1 => chk (fld x 11 7 == 0) (.csrw (.ofNat 12 (fld x 31 20)) (.ofNat 5 (fld x 19 15)))
  | 2 => chk (fld x 11 7 == 0) (.csrs (.ofNat 12 (fld x 31 20)) (.ofNat 5 (fld x 19 15)))
  | 3 => chk (fld x 11 7 == 0) (.csrc (.ofNat 12 (fld x 31 20)) (.ofNat 5 (fld x 19 15)))
  | 4 => chk (fld x 19 15 == 0 && fld x 11 7 == 0) (.sysc (.ofNat 12 (fld x 31 20)))
  | 5 => chk (fld x 19 15 == 0 && fld x 11 7 == 0) (.trap (.ofNat 12 (fld x 31 20)))
  | 6 => chk (fld x 31 15 == 0 && fld x 11 7 == 0) (.tret)
  | 7 => chk (fld x 19 15 == 0 && fld x 11 7 == 0) (.break (.ofNat 12 (fld x 31 20)))
  | _ => .error .unassigned

/-- The class of a word by its major opcode (R39), after checks 1 and 2 of R49. -/
noncomputable def decodeMajor (x : Nat) : Except DecodeError Instr :=
  match fld x 6 2 with
  | 0 => decodeMajor0 x
  | 1 => decodeMajor1 x
  | 2 => decodeMajor2 x
  | 3 => decodeMajor3 x
  | 4 => decodeMajor4 x
  | 5 => decodeMajor5 x
  | 6 => decodeMajor6 x
  | 7 => decodeMajor7 x
  | 8 => decodeMajor8 x
  | 9 => decodeMajor9 x
  | 10 => decodeMajor10 x
  | 11 => decodeMajor11 x
  | 12 => decodeMajor12 x
  | 13 => decodeMajor13 x
  | 14 => decodeMajor14 x
  | 15 => decodeMajor15 x
  | 16 => decodeMajor16 x
  | 17 => decodeMajor17 x
  | 18 => decodeMajor18 x
  | 19 => decodeMajor19 x
  | 20 => decodeMajor20 x
  | 21 => decodeMajor21 x
  | 22 => decodeMajor22 x
  | 23 => decodeMajor23 x
  | 24 => decodeMajor24 x
  | _ => .error .future

/-- The decoder: checks 1 to 5 of R49 in their order, then the operand limits of R41 to R48. -/
noncomputable def decodeNat (x : Nat) : Except DecodeError Instr :=
  if fld x 1 0 ≠ 3 then .error .lowBits
  else if x = 0xFFFFFFFF then .error .allOnes
  else match decodeMajor x with
    | .error e => .error e
    | .ok i => if i.wellFormed then .ok i else .error .badField

/-- The decoder on an instruction word (R34). -/
noncomputable def decode (w : BitVec 32) : Except DecodeError Instr := decodeNat w.toNat

/-- The four bytes of a word in memory order, least significant first (R4, R34), as the word. -/
def wordOfBytes (b0 b1 b2 b3 : Byte) : BitVec 32 :=
  .ofNat 32 (b0.toNat + b1.toNat * 2 ^ 8 + b2.toNat * 2 ^ 16 + b3.toNat * 2 ^ 24)

/-- The decoder on any bytes: an instruction and the bytes after it, or the reason there is none. Fewer
than four bytes hold no instruction word. -/
noncomputable def decodeBytes : List Byte → Except DecodeError (Instr × List Byte)
  | b0 :: b1 :: b2 :: b3 :: rest =>
    match decode (wordOfBytes b0 b1 b2 b3) with
    | .ok i => .ok (i, rest)
    | .error e => .error e
  | _ => .error .lowBits

/-- The bytes of a table word as the hardware stores it: four bytes, least significant first (R34). -/
def tableBytes (w : Nat) : List Byte :=
  [.ofNat 8 w, .ofNat 8 (w / 2 ^ 8), .ofNat 8 (w / 2 ^ 16), .ofNat 8 (w / 2 ^ 24)]

/-- The instruction the decoder reads from a word numbered as the opcode table numbers it. Every encoded row
has 32 bits, so the word is the whole instruction. -/
noncomputable def decodeTableWord (nbits w : Nat) : Option Instr :=
  match decodeBytes (tableBytes (w % 2 ^ nbits)) with
  | .ok (i, _) => some i
  | .error _ => none

/-- The word of an instruction, from the forms of R35 and the role tables of R41 to R48; a step without an
encoding has none. -/
def encodeNat : Instr → Option Nat
  | .ldb imm a d => some (3 + imm.toNat * 1048576 + a.toNat * 32768 + d.toNat * 128)
  | .ldh imm a d => some (4099 + imm.toNat * 1048576 + a.toNat * 32768 + d.toNat * 128)
  | .ldw imm a d => some (8195 + imm.toNat * 1048576 + a.toNat * 32768 + d.toNat * 128)
  | .ldd imm a d => some (12291 + imm.toNat * 1048576 + a.toNat * 32768 + d.toNat * 128)
  | .ldbu imm a d => some (16387 + imm.toNat * 1048576 + a.toNat * 32768 + d.toNat * 128)
  | .ldhu imm a d => some (20483 + imm.toNat * 1048576 + a.toNat * 32768 + d.toNat * 128)
  | .ldwu imm a d => some (24579 + imm.toNat * 1048576 + a.toNat * 32768 + d.toNat * 128)
  | .pref imm a level => some (28675 + imm.toNat * 1048576 + a.toNat * 32768 + level.toNat * 128)
  | .stb imm b a => some (7 + imm.toNat / 32 * 33554432 + imm.toNat % 32 * 128 + b.toNat * 1048576 + a.toNat * 32768)
  | .sth imm b a => some (4103 + imm.toNat / 32 * 33554432 + imm.toNat % 32 * 128 + b.toNat * 1048576 + a.toNat * 32768)
  | .stw imm b a => some (8199 + imm.toNat / 32 * 33554432 + imm.toNat % 32 * 128 + b.toNat * 1048576 + a.toNat * 32768)
  | .std imm b a => some (12295 + imm.toNat / 32 * 33554432 + imm.toNat % 32 * 128 + b.toNat * 1048576 + a.toNat * 32768)
  | .cpin imm a => some (16391 + imm.toNat / 32 * 33554432 + imm.toNat % 32 * 128 + a.toNat * 32768)
  | .cunpin imm a => some (20487 + imm.toNat / 32 * 33554432 + imm.toNat % 32 * 128 + a.toNat * 32768)
  | .cflush imm a => some (24583 + imm.toNat / 32 * 33554432 + imm.toNat % 32 * 128 + a.toNat * 32768)
  | .addi imm a d => some (11 + imm.toNat * 1048576 + a.toNat * 32768 + d.toNat * 128)
  | .andi imm a d => some (4107 + imm.toNat * 1048576 + a.toNat * 32768 + d.toNat * 128)
  | .ori imm a d => some (8203 + imm.toNat * 1048576 + a.toNat * 32768 + d.toNat * 128)
  | .xori imm a d => some (12299 + imm.toNat * 1048576 + a.toNat * 32768 + d.toNat * 128)
  | .slti imm a d => some (16395 + imm.toNat * 1048576 + a.toNat * 32768 + d.toNat * 128)
  | .sltiu imm a d => some (20491 + imm.toNat * 1048576 + a.toNat * 32768 + d.toNat * 128)
  | .slli n a d => some (24587 + n.toNat * 1048576 + a.toNat * 32768 + d.toNat * 128)
  | .srli n a d => some (1073766411 + n.toNat * 1048576 + a.toNat * 32768 + d.toNat * 128)
  | .srai n a d => some (2147508235 + n.toNat * 1048576 + a.toNat * 32768 + d.toNat * 128)
  | .rori n a d => some (3221250059 + n.toNat * 1048576 + a.toNat * 32768 + d.toNat * 128)
  | .sextb a d => some (28683 + a.toNat * 32768 + d.toNat * 128)
  | .sexth a d => some (536899595 + a.toNat * 32768 + d.toNat * 128)
  | .sextw a d => some (1073770507 + a.toNat * 32768 + d.toNat * 128)
  | .zextb a d => some (1610641419 + a.toNat * 32768 + d.toNat * 128)
  | .zexth a d => some (2147512331 + a.toNat * 32768 + d.toNat * 128)
  | .zextw a d => some (2684383243 + a.toNat * 32768 + d.toNat * 128)
  | .add b a d => some (15 + b.toNat * 1048576 + a.toNat * 32768 + d.toNat * 128)
  | .sub b a d => some (33554447 + b.toNat * 1048576 + a.toNat * 32768 + d.toNat * 128)
  | .and b a d => some (67108879 + b.toNat * 1048576 + a.toNat * 32768 + d.toNat * 128)
  | .or b a d => some (100663311 + b.toNat * 1048576 + a.toNat * 32768 + d.toNat * 128)
  | .xor b a d => some (134217743 + b.toNat * 1048576 + a.toNat * 32768 + d.toNat * 128)
  | .sll b a d => some (167772175 + b.toNat * 1048576 + a.toNat * 32768 + d.toNat * 128)
  | .srl b a d => some (201326607 + b.toNat * 1048576 + a.toNat * 32768 + d.toNat * 128)
  | .sra b a d => some (234881039 + b.toNat * 1048576 + a.toNat * 32768 + d.toNat * 128)
  | .ror b a d => some (268435471 + b.toNat * 1048576 + a.toNat * 32768 + d.toNat * 128)
  | .slt b a d => some (301989903 + b.toNat * 1048576 + a.toNat * 32768 + d.toNat * 128)
  | .sltu b a d => some (335544335 + b.toNat * 1048576 + a.toNat * 32768 + d.toNat * 128)
  | .min b a d => some (369098767 + b.toNat * 1048576 + a.toNat * 32768 + d.toNat * 128)
  | .max b a d => some (402653199 + b.toNat * 1048576 + a.toNat * 32768 + d.toNat * 128)
  | .minu b a d => some (436207631 + b.toNat * 1048576 + a.toNat * 32768 + d.toNat * 128)
  | .maxu b a d => some (469762063 + b.toNat * 1048576 + a.toNat * 32768 + d.toNat * 128)
  | .mul b a d => some (503316495 + b.toNat * 1048576 + a.toNat * 32768 + d.toNat * 128)
  | .mulh b a d => some (536870927 + b.toNat * 1048576 + a.toNat * 32768 + d.toNat * 128)
  | .mulhu b a d => some (570425359 + b.toNat * 1048576 + a.toNat * 32768 + d.toNat * 128)
  | .div b a d => some (603979791 + b.toNat * 1048576 + a.toNat * 32768 + d.toNat * 128)
  | .divu b a d => some (637534223 + b.toNat * 1048576 + a.toNat * 32768 + d.toNat * 128)
  | .rem b a d => some (671088655 + b.toNat * 1048576 + a.toNat * 32768 + d.toNat * 128)
  | .remu b a d => some (704643087 + b.toNat * 1048576 + a.toNat * 32768 + d.toNat * 128)
  | .clz a d => some (738197519 + a.toNat * 32768 + d.toNat * 128)
  | .ctz a d => some (771751951 + a.toNat * 32768 + d.toNat * 128)
  | .popc a d => some (805306383 + a.toNat * 32768 + d.toNat * 128)
  | .bswap a d => some (838860815 + a.toNat * 32768 + d.toNat * 128)
  | .sel b a d => some (872415247 + b.toNat * 1048576 + a.toNat * 32768 + d.toNat * 128)
  | .andn b a d => some (905969679 + b.toNat * 1048576 + a.toNat * 32768 + d.toNat * 128)
  | .addw b a d => some (19 + b.toNat * 1048576 + a.toNat * 32768 + d.toNat * 128)
  | .subw b a d => some (33554451 + b.toNat * 1048576 + a.toNat * 32768 + d.toNat * 128)
  | .mulw b a d => some (67108883 + b.toNat * 1048576 + a.toNat * 32768 + d.toNat * 128)
  | .sllw b a d => some (100663315 + b.toNat * 1048576 + a.toNat * 32768 + d.toNat * 128)
  | .srlw b a d => some (134217747 + b.toNat * 1048576 + a.toNat * 32768 + d.toNat * 128)
  | .sraw b a d => some (167772179 + b.toNat * 1048576 + a.toNat * 32768 + d.toNat * 128)
  | .divw b a d => some (201326611 + b.toNat * 1048576 + a.toNat * 32768 + d.toNat * 128)
  | .remw b a d => some (234881043 + b.toNat * 1048576 + a.toNat * 32768 + d.toNat * 128)
  | .lui imm d => some (23 + imm.toNat * 4096 + d.toNat * 128)
  | .apc imm d => some (27 + imm.toNat * 4096 + d.toNat * 128)
  | .beq off b a => some (31 + off.toNat / 32 * 33554432 + off.toNat % 32 * 128 + b.toNat * 1048576 + a.toNat * 32768)
  | .bne off b a => some (4127 + off.toNat / 32 * 33554432 + off.toNat % 32 * 128 + b.toNat * 1048576 + a.toNat * 32768)
  | .blt off b a => some (8223 + off.toNat / 32 * 33554432 + off.toNat % 32 * 128 + b.toNat * 1048576 + a.toNat * 32768)
  | .bge off b a => some (12319 + off.toNat / 32 * 33554432 + off.toNat % 32 * 128 + b.toNat * 1048576 + a.toNat * 32768)
  | .bltu off b a => some (16415 + off.toNat / 32 * 33554432 + off.toNat % 32 * 128 + b.toNat * 1048576 + a.toNat * 32768)
  | .bgeu off b a => some (20511 + off.toNat / 32 * 33554432 + off.toNat % 32 * 128 + b.toNat * 1048576 + a.toNat * 32768)
  | .bfull off a => some (24607 + off.toNat / 32 * 33554432 + off.toNat % 32 * 128 + a.toNat * 32768)
  | .bempty off a => some (28703 + off.toNat / 32 * 33554432 + off.toNat % 32 * 128 + a.toNat * 32768)
  | .jal off d => some (35 + off.toNat * 4096 + d.toNat * 128)
  | .jalr imm a d => some (39 + imm.toNat * 1048576 + a.toNat * 32768 + d.toNat * 128)
  | .loop len a => some (43 + len.toNat * 1048576 + a.toNat * 32768)
  | .loopi len count => some (4139 + len.toNat * 1048576 + count.toNat / 32 * 32768 + count.toNat % 32 * 128)
  | .lbrk => some (8235)
  | .lnext => some (12331)
  | .lidx level d => some (16427 + level.toNat * 1048576 + d.toNat * 128)
  | .yield mask => some (20523 + mask.toNat * 1048576)
  | .padd b a d => some (47 + b.toNat * 1048576 + a.toNat * 32768 + d.toNat * 128)
  | .paddi imm a d => some (4143 + imm.toNat * 1048576 + a.toNat * 32768 + d.toNat * 128)
  | .psub b a d => some (8239 + b.toNat * 1048576 + a.toNat * 32768 + d.toNat * 128)
  | .psetf l f a d => some (12335 + l.toNat * 33554432 + f.toNat * 1048576 + a.toNat * 32768 + d.toNat * 128)
  | .psetp path a d => some (16431 + path.toNat * 1048576 + a.toNat * 32768 + d.toNat * 128)
  | .pgetf a d => some (20527 + a.toNat * 32768 + d.toNat * 128)
  | .pchk b a d => some (24623 + b.toNat * 1048576 + a.toNat * 32768 + d.toNat * 128)
  | .fadd b a fmt d => some (51 + b.toNat * 1048576 + a.toNat * 32768 + fmt.toNat * 4096 + d.toNat * 128)
  | .fsub b a fmt d => some (33554483 + b.toNat * 1048576 + a.toNat * 32768 + fmt.toNat * 4096 + d.toNat * 128)
  | .fmul b a fmt d => some (67108915 + b.toNat * 1048576 + a.toNat * 32768 + fmt.toNat * 4096 + d.toNat * 128)
  | .fdiv b a fmt d => some (100663347 + b.toNat * 1048576 + a.toNat * 32768 + fmt.toNat * 4096 + d.toNat * 128)
  | .fsqrt a fmt d => some (134217779 + a.toNat * 32768 + fmt.toNat * 4096 + d.toNat * 128)
  | .fma b a fmt d => some (167772211 + b.toNat * 1048576 + a.toNat * 32768 + fmt.toNat * 4096 + d.toNat * 128)
  | .fmin b a fmt d => some (201326643 + b.toNat * 1048576 + a.toNat * 32768 + fmt.toNat * 4096 + d.toNat * 128)
  | .fmax b a fmt d => some (234881075 + b.toNat * 1048576 + a.toNat * 32768 + fmt.toNat * 4096 + d.toNat * 128)
  | .fneg a fmt d => some (268435507 + a.toNat * 32768 + fmt.toNat * 4096 + d.toNat * 128)
  | .fabs a fmt d => some (301989939 + a.toNat * 32768 + fmt.toNat * 4096 + d.toNat * 128)
  | .fsgn b a fmt d => some (335544371 + b.toNat * 1048576 + a.toNat * 32768 + fmt.toNat * 4096 + d.toNat * 128)
  | .feq b a fmt d => some (369098803 + b.toNat * 1048576 + a.toNat * 32768 + fmt.toNat * 4096 + d.toNat * 128)
  | .flt b a fmt d => some (402653235 + b.toNat * 1048576 + a.toNat * 32768 + fmt.toNat * 4096 + d.toNat * 128)
  | .fle b a fmt d => some (436207667 + b.toNat * 1048576 + a.toNat * 32768 + fmt.toNat * 4096 + d.toNat * 128)
  | .fcls a fmt d => some (469762099 + a.toNat * 32768 + fmt.toNat * 4096 + d.toNat * 128)
  | .fcvti c a fmt d => some (503316531 + c.toNat * 1048576 + a.toNat * 32768 + fmt.toNat * 4096 + d.toNat * 128)
  | .fcvtf c a fmt d => some (536870963 + c.toNat * 1048576 + a.toNat * 32768 + fmt.toNat * 4096 + d.toNat * 128)
  | .fcvtff c a fmt d => some (570425395 + c.toNat * 1048576 + a.toNat * 32768 + fmt.toNat * 4096 + d.toNat * 128)
  | .vld cb mk a vd => some (55 + cb.toNat * 2147483648 + mk.toNat * 33554432 + a.toNat * 32768 + vd.toNat * 128)
  | .vlds cb mk b a vd => some (67113015 + cb.toNat * 2147483648 + mk.toNat * 33554432 + b.toNat * 1048576 + a.toNat * 32768 + vd.toNat * 128)
  | .vldx cb mk vb a vd => some (134217783 + cb.toNat * 2147483648 + mk.toNat * 33554432 + vb.toNat * 1048576 + a.toNat * 32768 + vd.toNat * 128)
  | .vst cb mk a vd => some (201326647 + cb.toNat * 2147483648 + mk.toNat * 33554432 + a.toNat * 32768 + vd.toNat * 128)
  | .vsts cb mk b a vd => some (268439607 + cb.toNat * 2147483648 + mk.toNat * 33554432 + b.toNat * 1048576 + a.toNat * 32768 + vd.toNat * 128)
  | .vstx cb mk vb a vd => some (335544375 + cb.toNat * 2147483648 + mk.toNat * 33554432 + vb.toNat * 1048576 + a.toNat * 32768 + vd.toNat * 128)
  | .vlda cb mk vb a vd => some (402653239 + cb.toNat * 2147483648 + mk.toNat * 33554432 + vb.toNat * 1048576 + a.toNat * 32768 + vd.toNat * 128)
  | .vldm cb a md => some (469762103 + cb.toNat * 2147483648 + a.toNat * 32768 + md.toNat * 128)
  | .vstm cb a md => some (536870967 + cb.toNat * 2147483648 + a.toNat * 32768 + md.toNat * 128)
  | .vadd cb mk vb va kind vd => some (59 + cb.toNat * 2147483648 + mk.toNat * 33554432 + vb.toNat * 1048576 + va.toNat * 32768 + kind.toNat * 4096 + vd.toNat * 128)
  | .vsub cb mk vb va kind vd => some (67108923 + cb.toNat * 2147483648 + mk.toNat * 33554432 + vb.toNat * 1048576 + va.toNat * 32768 + kind.toNat * 4096 + vd.toNat * 128)
  | .vmul cb mk vb va kind vd => some (134217787 + cb.toNat * 2147483648 + mk.toNat * 33554432 + vb.toNat * 1048576 + va.toNat * 32768 + kind.toNat * 4096 + vd.toNat * 128)
  | .vmulh cb mk vb va kind vd => some (201326651 + cb.toNat * 2147483648 + mk.toNat * 33554432 + vb.toNat * 1048576 + va.toNat * 32768 + kind.toNat * 4096 + vd.toNat * 128)
  | .vmulhu cb mk vb va kind vd => some (268435515 + cb.toNat * 2147483648 + mk.toNat * 33554432 + vb.toNat * 1048576 + va.toNat * 32768 + kind.toNat * 4096 + vd.toNat * 128)
  | .vmadd cb mk vb va kind vd => some (335544379 + cb.toNat * 2147483648 + mk.toNat * 33554432 + vb.toNat * 1048576 + va.toNat * 32768 + kind.toNat * 4096 + vd.toNat * 128)
  | .vmin cb mk vb va kind vd => some (402653243 + cb.toNat * 2147483648 + mk.toNat * 33554432 + vb.toNat * 1048576 + va.toNat * 32768 + kind.toNat * 4096 + vd.toNat * 128)
  | .vmax cb mk vb va kind vd => some (469762107 + cb.toNat * 2147483648 + mk.toNat * 33554432 + vb.toNat * 1048576 + va.toNat * 32768 + kind.toNat * 4096 + vd.toNat * 128)
  | .vminu cb mk vb va kind vd => some (536870971 + cb.toNat * 2147483648 + mk.toNat * 33554432 + vb.toNat * 1048576 + va.toNat * 32768 + kind.toNat * 4096 + vd.toNat * 128)
  | .vmaxu cb mk vb va kind vd => some (603979835 + cb.toNat * 2147483648 + mk.toNat * 33554432 + vb.toNat * 1048576 + va.toNat * 32768 + kind.toNat * 4096 + vd.toNat * 128)
  | .vand cb mk vb va kind vd => some (671088699 + cb.toNat * 2147483648 + mk.toNat * 33554432 + vb.toNat * 1048576 + va.toNat * 32768 + kind.toNat * 4096 + vd.toNat * 128)
  | .vor cb mk vb va kind vd => some (738197563 + cb.toNat * 2147483648 + mk.toNat * 33554432 + vb.toNat * 1048576 + va.toNat * 32768 + kind.toNat * 4096 + vd.toNat * 128)
  | .vxor cb mk vb va kind vd => some (805306427 + cb.toNat * 2147483648 + mk.toNat * 33554432 + vb.toNat * 1048576 + va.toNat * 32768 + kind.toNat * 4096 + vd.toNat * 128)
  | .vsll cb mk vb va kind vd => some (872415291 + cb.toNat * 2147483648 + mk.toNat * 33554432 + vb.toNat * 1048576 + va.toNat * 32768 + kind.toNat * 4096 + vd.toNat * 128)
  | .vsrl cb mk vb va kind vd => some (939524155 + cb.toNat * 2147483648 + mk.toNat * 33554432 + vb.toNat * 1048576 + va.toNat * 32768 + kind.toNat * 4096 + vd.toNat * 128)
  | .vsra cb mk vb va kind vd => some (1006633019 + cb.toNat * 2147483648 + mk.toNat * 33554432 + vb.toNat * 1048576 + va.toNat * 32768 + kind.toNat * 4096 + vd.toNat * 128)
  | .vsadd cb mk vb va kind vd => some (1073741883 + cb.toNat * 2147483648 + mk.toNat * 33554432 + vb.toNat * 1048576 + va.toNat * 32768 + kind.toNat * 4096 + vd.toNat * 128)
  | .vssub cb mk vb va kind vd => some (1140850747 + cb.toNat * 2147483648 + mk.toNat * 33554432 + vb.toNat * 1048576 + va.toNat * 32768 + kind.toNat * 4096 + vd.toNat * 128)
  | .vceq cb mk vb va kind md => some (1207959611 + cb.toNat * 2147483648 + mk.toNat * 33554432 + vb.toNat * 1048576 + va.toNat * 32768 + kind.toNat * 4096 + md.toNat * 128)
  | .vcne cb mk vb va kind md => some (1275068475 + cb.toNat * 2147483648 + mk.toNat * 33554432 + vb.toNat * 1048576 + va.toNat * 32768 + kind.toNat * 4096 + md.toNat * 128)
  | .vclt cb mk vb va kind md => some (1342177339 + cb.toNat * 2147483648 + mk.toNat * 33554432 + vb.toNat * 1048576 + va.toNat * 32768 + kind.toNat * 4096 + md.toNat * 128)
  | .vcle cb mk vb va kind md => some (1409286203 + cb.toNat * 2147483648 + mk.toNat * 33554432 + vb.toNat * 1048576 + va.toNat * 32768 + kind.toNat * 4096 + md.toNat * 128)
  | .vcltu cb mk vb va kind md => some (1476395067 + cb.toNat * 2147483648 + mk.toNat * 33554432 + vb.toNat * 1048576 + va.toNat * 32768 + kind.toNat * 4096 + md.toNat * 128)
  | .vcleu cb mk vb va kind md => some (1543503931 + cb.toNat * 2147483648 + mk.toNat * 33554432 + vb.toNat * 1048576 + va.toNat * 32768 + kind.toNat * 4096 + md.toNat * 128)
  | .vfadd cb mk vb va kind vd => some (63 + cb.toNat * 2147483648 + mk.toNat * 33554432 + vb.toNat * 1048576 + va.toNat * 32768 + kind.toNat * 4096 + vd.toNat * 128)
  | .vfsub cb mk vb va kind vd => some (67108927 + cb.toNat * 2147483648 + mk.toNat * 33554432 + vb.toNat * 1048576 + va.toNat * 32768 + kind.toNat * 4096 + vd.toNat * 128)
  | .vfmul cb mk vb va kind vd => some (134217791 + cb.toNat * 2147483648 + mk.toNat * 33554432 + vb.toNat * 1048576 + va.toNat * 32768 + kind.toNat * 4096 + vd.toNat * 128)
  | .vfdiv cb mk vb va kind vd => some (201326655 + cb.toNat * 2147483648 + mk.toNat * 33554432 + vb.toNat * 1048576 + va.toNat * 32768 + kind.toNat * 4096 + vd.toNat * 128)
  | .vfsqrt cb mk va vd => some (268435519 + cb.toNat * 2147483648 + mk.toNat * 33554432 + va.toNat * 32768 + vd.toNat * 128)
  | .vfma cb mk vb va kind vd => some (335544383 + cb.toNat * 2147483648 + mk.toNat * 33554432 + vb.toNat * 1048576 + va.toNat * 32768 + kind.toNat * 4096 + vd.toNat * 128)
  | .vfms cb mk vb va kind vd => some (402653247 + cb.toNat * 2147483648 + mk.toNat * 33554432 + vb.toNat * 1048576 + va.toNat * 32768 + kind.toNat * 4096 + vd.toNat * 128)
  | .vfnma cb mk vb va kind vd => some (469762111 + cb.toNat * 2147483648 + mk.toNat * 33554432 + vb.toNat * 1048576 + va.toNat * 32768 + kind.toNat * 4096 + vd.toNat * 128)
  | .vfmin cb mk vb va kind vd => some (536870975 + cb.toNat * 2147483648 + mk.toNat * 33554432 + vb.toNat * 1048576 + va.toNat * 32768 + kind.toNat * 4096 + vd.toNat * 128)
  | .vfmax cb mk vb va kind vd => some (603979839 + cb.toNat * 2147483648 + mk.toNat * 33554432 + vb.toNat * 1048576 + va.toNat * 32768 + kind.toNat * 4096 + vd.toNat * 128)
  | .vfabs cb mk va vd => some (671088703 + cb.toNat * 2147483648 + mk.toNat * 33554432 + va.toNat * 32768 + vd.toNat * 128)
  | .vfneg cb mk va vd => some (738197567 + cb.toNat * 2147483648 + mk.toNat * 33554432 + va.toNat * 32768 + vd.toNat * 128)
  | .vfrcp cb mk va vd => some (805306431 + cb.toNat * 2147483648 + mk.toNat * 33554432 + va.toNat * 32768 + vd.toNat * 128)
  | .vfrsq cb mk va vd => some (872415295 + cb.toNat * 2147483648 + mk.toNat * 33554432 + va.toNat * 32768 + vd.toNat * 128)
  | .vfexp2 cb mk va vd => some (939524159 + cb.toNat * 2147483648 + mk.toNat * 33554432 + va.toNat * 32768 + vd.toNat * 128)
  | .vfceq cb mk vb va kind md => some (1006633023 + cb.toNat * 2147483648 + mk.toNat * 33554432 + vb.toNat * 1048576 + va.toNat * 32768 + kind.toNat * 4096 + md.toNat * 128)
  | .vfclt cb mk vb va kind md => some (1073741887 + cb.toNat * 2147483648 + mk.toNat * 33554432 + vb.toNat * 1048576 + va.toNat * 32768 + kind.toNat * 4096 + md.toNat * 128)
  | .vfcle cb mk vb va kind md => some (1140850751 + cb.toNat * 2147483648 + mk.toNat * 33554432 + vb.toNat * 1048576 + va.toNat * 32768 + kind.toNat * 4096 + md.toNat * 128)
  | .vfcls cb mk va vd => some (1207959615 + cb.toNat * 2147483648 + mk.toNat * 33554432 + va.toNat * 32768 + vd.toNat * 128)
  | .vcfg cb b a d => some (4163 + cb.toNat * 2147483648 + b.toNat * 1048576 + a.toNat * 32768 + d.toNat * 128)
  | .vgrant cb d => some (67108931 + cb.toNat * 2147483648 + d.toNat * 128)
  | .vcvt cb mk f va vd => some (134217795 + cb.toNat * 2147483648 + mk.toNat * 33554432 + f.toNat * 1048576 + va.toNat * 32768 + vd.toNat * 128)
  | .vcvtSr cb mk f va vd => some (134230083 + cb.toNat * 2147483648 + mk.toNat * 33554432 + f.toNat * 1048576 + va.toNat * 32768 + vd.toNat * 128)
  | .vsplat cb mk vb kind vd => some (201326659 + cb.toNat * 2147483648 + mk.toNat * 33554432 + vb.toNat * 1048576 + kind.toNat * 4096 + vd.toNat * 128)
  | .vmvs cb vb va kind d => some (268435523 + cb.toNat * 2147483648 + vb.toNat * 1048576 + va.toNat * 32768 + kind.toNat * 4096 + d.toNat * 128)
  | .vmvv cb mk va vd => some (335544387 + cb.toNat * 2147483648 + mk.toNat * 33554432 + va.toNat * 32768 + vd.toNat * 128)
  | .viota cb mk vd => some (402653251 + cb.toNat * 2147483648 + mk.toNat * 33554432 + vd.toNat * 128)
  | .vslup cb mk vb va kind vd => some (469762115 + cb.toNat * 2147483648 + mk.toNat * 33554432 + vb.toNat * 1048576 + va.toNat * 32768 + kind.toNat * 4096 + vd.toNat * 128)
  | .vsldn cb mk vb va kind vd => some (536870979 + cb.toNat * 2147483648 + mk.toNat * 33554432 + vb.toNat * 1048576 + va.toNat * 32768 + kind.toNat * 4096 + vd.toNat * 128)
  | .vgathr cb vb va kind vd => some (603979843 + cb.toNat * 2147483648 + vb.toNat * 1048576 + va.toNat * 32768 + kind.toNat * 4096 + vd.toNat * 128)
  | .vcompr cb va vd => some (671088707 + cb.toNat * 2147483648 + va.toNat * 32768 + vd.toNat * 128)
  | .vmerge cb vb va kind vd => some (771752003 + cb.toNat * 2147483648 + vb.toNat * 1048576 + va.toNat * 32768 + kind.toNat * 4096 + vd.toNat * 128)
  | .vredsum cb mk vb va vd => some (805306435 + cb.toNat * 2147483648 + mk.toNat * 33554432 + vb.toNat * 1048576 + va.toNat * 32768 + vd.toNat * 128)
  | .vredmin cb mk vb va vd => some (872415299 + cb.toNat * 2147483648 + mk.toNat * 33554432 + vb.toNat * 1048576 + va.toNat * 32768 + vd.toNat * 128)
  | .vredmax cb mk vb va vd => some (939524163 + cb.toNat * 2147483648 + mk.toNat * 33554432 + vb.toNat * 1048576 + va.toNat * 32768 + vd.toNat * 128)
  | .vfredsum cb mk vb va vd => some (1006633027 + cb.toNat * 2147483648 + mk.toNat * 33554432 + vb.toNat * 1048576 + va.toNat * 32768 + vd.toNat * 128)
  | .vfredmin cb mk vb va vd => some (1073741891 + cb.toNat * 2147483648 + mk.toNat * 33554432 + vb.toNat * 1048576 + va.toNat * 32768 + vd.toNat * 128)
  | .vfredmax cb mk vb va vd => some (1140850755 + cb.toNat * 2147483648 + mk.toNat * 33554432 + vb.toNat * 1048576 + va.toNat * 32768 + vd.toNat * 128)
  | .mlog cb mb ma kind md => some (1207959619 + cb.toNat * 2147483648 + mb.toNat * 1048576 + ma.toNat * 32768 + kind.toNat * 4096 + md.toNat * 128)
  | .mpop cb ma d => some (1275068483 + cb.toNat * 2147483648 + ma.toNat * 32768 + d.toNat * 128)
  | .mfirst cb ma d => some (1342177347 + cb.toNat * 2147483648 + ma.toNat * 32768 + d.toNat * 128)
  | .vhwm cb va d => some (1409286211 + cb.toNat * 2147483648 + va.toNat * 32768 + d.toNat * 128)
  | .vhwmClr cb va d => some (1409298499 + cb.toNat * 2147483648 + va.toNat * 32768 + d.toNat * 128)
  | .mclaim c => some (71 + c.toNat * 128)
  | .mrels c => some (33554503 + c.toNat * 128)
  | .mzero c => some (67108935 + c.toNat * 128)
  | .mtask a d => some (100663367 + a.toNat * 32768 + d.toNat * 128)
  | .mwait a => some (134217799 + a.toNat * 32768)
  | .mwaitAcc c => some (134221895 + c.toNat * 32768)
  | .mrd b c vd => some (167772231 + b.toNat * 1048576 + c.toNat * 32768 + vd.toNat * 128)
  | .mwr b va c => some (201326663 + b.toNat * 1048576 + va.toNat * 32768 + c.toNat * 128)
  | .mstat c d => some (234881095 + c.toNat * 32768 + d.toNat * 128)
  | .xcopy b a ch d => some (75 + b.toNat * 1048576 + a.toNat * 32768 + ch.toNat * 4096 + d.toNat * 128)
  | .xcopy2 b a ch d => some (33554507 + b.toNat * 1048576 + a.toNat * 32768 + ch.toNat * 4096 + d.toNat * 128)
  | .xpln b a ch d => some (67108939 + b.toNat * 1048576 + a.toNat * 32768 + ch.toNat * 4096 + d.toNat * 128)
  | .xfill b a ch d => some (100663371 + b.toNat * 1048576 + a.toNat * 32768 + ch.toNat * 4096 + d.toNat * 128)
  | .xred b a ch d => some (134217803 + b.toNat * 1048576 + a.toNat * 32768 + ch.toNat * 4096 + d.toNat * 128)
  | .xcoll b a ch d => some (167772235 + b.toNat * 1048576 + a.toNat * 32768 + ch.toNat * 4096 + d.toNat * 128)
  | .xwait a ch => some (201326667 + a.toNat * 32768 + ch.toNat * 4096)
  | .mbput mb a => some (234881099 + mb.toNat * 1048576 + a.toNat * 32768)
  | .mbtake mb d => some (268435531 + mb.toNat * 1048576 + d.toNat * 128)
  | .send b a n cls => some (79 + b.toNat * 1048576 + a.toNat * 32768 + n.toNat * 4096 + cls.toNat * 128)
  | .sendq b a cls => some (33554511 + b.toNat * 1048576 + a.toNat * 32768 + cls.toNat * 128)
  | .recv cls n d => some (67108943 + cls.toNat * 1048576 + n.toNat * 4096 + d.toNat * 128)
  | .rpoll cls d => some (100663375 + cls.toNat * 1048576 + d.toNat * 128)
  | .mclass cls a => some (134217807 + cls.toNat * 1048576 + a.toNat * 32768)
  | .migr a => some (167772239 + a.toNat * 32768)
  | .rank d => some (201326671 + d.toNat * 128)
  | .rkset b a => some (234881103 + b.toNat * 1048576 + a.toNat * 32768)
  | .epopen a d => some (83 + a.toNat * 32768 + d.toNat * 128)
  | .epsend b a => some (33554515 + b.toNat * 1048576 + a.toNat * 32768)
  | .eprecv b a d => some (67108947 + b.toNat * 1048576 + a.toNat * 32768 + d.toNat * 128)
  | .epclose a => some (100663379 + a.toNat * 32768)
  | .epabort a => some (134217811 + a.toNat * 32768)
  | .epverAnn a => some (167772243 + a.toNat * 32768)
  | .epverWait a => some (167776339 + a.toNat * 32768)
  | .epverAbort a => some (167780435 + a.toNat * 32768)
  | .epact b d => some (201326675 + b.toNat * 1048576 + d.toNat * 128)
  | .epobs b a => some (234881107 + b.toNat * 1048576 + a.toNat * 32768)
  | .epend b a => some (268435539 + b.toNat * 1048576 + a.toNat * 32768)
  | .amoadd scope b a ord w d => some (87 + scope.toNat * 33554432 + b.toNat * 1048576 + a.toNat * 32768 + ord.toNat * 8192 + w.toNat * 4096 + d.toNat * 128)
  | .amoswp scope b a ord w d => some (134217815 + scope.toNat * 33554432 + b.toNat * 1048576 + a.toNat * 32768 + ord.toNat * 8192 + w.toNat * 4096 + d.toNat * 128)
  | .amocas scope b a ord w d => some (268435543 + scope.toNat * 33554432 + b.toNat * 1048576 + a.toNat * 32768 + ord.toNat * 8192 + w.toNat * 4096 + d.toNat * 128)
  | .amomin scope b a ord w d => some (402653271 + scope.toNat * 33554432 + b.toNat * 1048576 + a.toNat * 32768 + ord.toNat * 8192 + w.toNat * 4096 + d.toNat * 128)
  | .amomax scope b a ord w d => some (536870999 + scope.toNat * 33554432 + b.toNat * 1048576 + a.toNat * 32768 + ord.toNat * 8192 + w.toNat * 4096 + d.toNat * 128)
  | .amominu scope b a ord w d => some (671088727 + scope.toNat * 33554432 + b.toNat * 1048576 + a.toNat * 32768 + ord.toNat * 8192 + w.toNat * 4096 + d.toNat * 128)
  | .amomaxu scope b a ord w d => some (805306455 + scope.toNat * 33554432 + b.toNat * 1048576 + a.toNat * 32768 + ord.toNat * 8192 + w.toNat * 4096 + d.toNat * 128)
  | .amoand scope b a ord w d => some (939524183 + scope.toNat * 33554432 + b.toNat * 1048576 + a.toNat * 32768 + ord.toNat * 8192 + w.toNat * 4096 + d.toNat * 128)
  | .amoor scope b a ord w d => some (1073741911 + scope.toNat * 33554432 + b.toNat * 1048576 + a.toNat * 32768 + ord.toNat * 8192 + w.toNat * 4096 + d.toNat * 128)
  | .amoxor scope b a ord w d => some (1207959639 + scope.toNat * 33554432 + b.toNat * 1048576 + a.toNat * 32768 + ord.toNat * 8192 + w.toNat * 4096 + d.toNat * 128)
  | .acq st a scope => some (91 + st.toNat * 1048576 + a.toNat * 32768 + scope.toNat * 4096)
  | .rel st a scope => some (33554523 + st.toNat * 1048576 + a.toNat * 32768 + scope.toNat * 4096)
  | .fence st scope => some (67108955 + st.toNat * 1048576 + scope.toNat * 4096)
  | .xfence b a scope => some (100663387 + b.toNat * 1048576 + a.toNat * 32768 + scope.toNat * 4096)
  | .qlock a scope => some (134217819 + a.toNat * 32768 + scope.toNat * 4096)
  | .qunlk a scope => some (167772251 + a.toNat * 32768 + scope.toNat * 4096)
  | .qwait b a cond d => some (201326683 + b.toNat * 1048576 + a.toNat * 32768 + cond.toNat * 4096 + d.toNat * 128)
  | .bar a level => some (234881115 + a.toNat * 32768 + level.toNat * 4096)
  | .take a d => some (268435547 + a.toNat * 32768 + d.toNat * 128)
  | .fill b a d => some (301989979 + b.toNat * 1048576 + a.toNat * 32768 + d.toNat * 128)
  | .empty d => some (335544411 + d.toNat * 128)
  | .waitt a => some (369098843 + a.toNat * 32768)
  | .tstart a d => some (95 + a.toNat * 32768 + d.toNat * 128)
  | .treap a d => some (33554527 + a.toNat * 32768 + d.toNat * 128)
  | .tkill a => some (67108959 + a.toNat * 32768)
  | .tsave b a => some (100663391 + b.toNat * 1048576 + a.toNat * 32768)
  | .tload b a => some (134217823 + b.toNat * 1048576 + a.toNat * 32768)
  | .tstat a d => some (167772255 + a.toNat * 32768 + d.toNat * 128)
  | .tself d => some (201326687 + d.toNat * 128)
  | .succ a d => some (234881119 + a.toNat * 32768 + d.toNat * 128)
  | .retire => some (268435551)
  | .exit => some (301989983)
  | .launch a d => some (335544415 + a.toNat * 32768 + d.toNat * 128)
  | .csrr csr d => some (99 + csr.toNat * 1048576 + d.toNat * 128)
  | .csrw csr a => some (4195 + csr.toNat * 1048576 + a.toNat * 32768)
  | .csrs csr a => some (8291 + csr.toNat * 1048576 + a.toNat * 32768)
  | .csrc csr a => some (12387 + csr.toNat * 1048576 + a.toNat * 32768)
  | .sysc n => some (16483 + n.toNat * 1048576)
  | .trap n => some (20579 + n.toNat * 1048576)
  | .tret => some (24675)
  | .break n => some (28771 + n.toNat * 1048576)
  | .registerWrite _ _ => none
  | .corWinWrite _ _ => none
  | .xcStatClear _ _ => none
  | .faultresRetry _ => none
  | .faultresAbandon _ => none
  | .tlbinvPage _ => none
  | .tlbinvAll _ => none
  | .trcalWrite _ => none
  | .lwgtWrite _ => none
  | .graphrelRelease _ => none
  | .graphrelDiscard _ => none
  | .trapresResume _ => none
  | .trapresResumeNext _ => none
  | .killDrainStart _ => none
  | .viswSwitchOut _ => none
  | .viswSwitchIn _ => none
  | .viSwitchComplete _ => none
  | .resizeWrite _ => none
  | .granuleMove _ _ _ => none
  | .resizeTimeout _ => none
  | .prtResetWrite _ => none
  | .ctxinvWrite _ => none
  | .fqbaseWrite _ => none
  | .thrTimerWrite _ => none
  | .viTailWrite _ _ => none
  | .viCqheadWrite _ _ => none
  | .viRingBaseWrite _ _ _ => none
  | .irhamWrite _ _ _ _ _ => none
  | .irhamRead _ _ _ _ _ => none
  | .irhamRegw _ _ _ _ _ => none
  | .irhamRegr _ _ _ _ => none
  | .irhamInfo _ _ _ => none
  | .irhamAttest _ _ _ _ => none
  | .mgmtBuildPartition _ _ _ => none
  | .mgmtSetCap _ _ => none
  | .mgmtProvisionKey _ _ => none
  | .mgmtResizeRequest _ _ => none
  | .mgmtResetRequest _ => none
  | .coldReset _ => none
  | .thermalTrip => none
  | .energyAccrual _ => none
  | .icacheRefill _ _ => none
  | .loadReply _ => none
  | .dividerComplete _ _ => none
  | .translationWalkComplete _ => none
  | .faultRecordPost _ => none
  | .remoteScratchpadAccess _ => none
  | .remoteAck _ => none
  | .sprRefusalArrival _ => none
  | .deregistrationNotice _ => none
  | .fenceProbeEcho _ => none
  | .atomicAtPoint _ => none
  | .lockRequestHome _ => none
  | .lockReleaseHome _ => none
  | .qwaitRequestHome _ => none
  | .switchGrant _ => none
  | .resend _ => none
  | .laneGrant _ => none
  | .vectorConvoyStart _ _ => none
  | .vectorConfirm _ _ => none
  | .vectorTrapUnwind _ _ => none
  | .checkCompare _ _ _ => none
  | .checkReplay _ _ _ => none
  | .vldaReadLand _ _ _ _ => none
  | .tileTaskStart _ _ => none
  | .tileTaskComplete _ _ _ => none
  | .copyPiece _ _ => none
  | .copyComplete _ _ => none
  | .promiseRenewal _ _ => none
  | .collectiveResult _ => none
  | .messageArrival _ => none
  | .messageAck _ => none
  | .messageRefusal _ => none
  | .packetReturn _ => none
  | .homeForward _ => none
  | .rankEntryFetch _ => none
  | .homeDepart _ => none
  | .drainTokenAtSource _ => none
  | .homeArrive _ => none
  | .homeEntryWrite _ => none
  | .fillArrival _ => none
  | .fillBufferApply _ => none
  | .migrantArrival _ => none
  | .migrantInstall _ => none
  | .sendqRequest _ => none
  | .sendqReply _ => none
  | .sendqDelivery _ => none
  | .launchRingRead _ => none
  | .launchAdmit _ => none
  | .instancePlace _ _ _ => none
  | .completionRecordWrite _ _ _ => none
  | .successionSequence _ _ => none
  | .successorStart _ _ => none
  | .preemptLanding _ _ => none
  | .forcedSave _ _ => none
  | .saveWrite _ _ => none
  | .timerExpiry _ _ => none
  | .asyncTrapTake _ _ => none
  | .drainTokenArrival _ _ => none
  | .killDrainComplete _ => none
  | .scrubWord _ _ _ => none
  | .metadataError _ => none
  | .ownerTagError _ => none
  | .episodeDeadline _ => none
  | .episodeBudget _ => none
  | .homePierStore _ => none
  | .registration _ => none
  | .registrationReply _ => none
  | .succResultLanding _ => none
  | .vectorAccessPerformed _ _ => none
  | .convoyDrained _ _ => none

/-- The encoder: the word of a well-formed instruction. -/
def encode (i : Instr) : Option (BitVec 32) := (encodeNat i).map (BitVec.ofNat 32)

end Sys2Proof
end

