-- ==== Sys2Proof/Machine/Table.lean ====
section
/-! DEFINITION. Finite tables and byte memories as plain data. A table is a list of (number, value) pairs; what
an unlisted number holds is given by the reader. A memory is a table of bytes in one canonical form: addresses
rise strictly and no listed byte is 0, which is what an unlisted address reads as (assumption 3). -/

namespace Sys2Proof.Machine

/-- A table from numbers to values. -/
abbrev Tab (α : Type) := List (Nat × α)

/-- The value listed for `k`, if any: the first entry counts. -/
def Tab.find? {α : Type} : Tab α → Nat → Option α
  | [], _ => none
  | (j, v) :: t, k => if j = k then some v else Tab.find? t k

/-- The value listed for `k`, or `d`. -/
def Tab.get {α : Type} (d : α) (t : Tab α) (k : Nat) : α := (Tab.find? t k).getD d

/-- The table with `v` at `k`, keeping the numbers in rising order. -/
def Tab.set {α : Type} : Tab α → Nat → α → Tab α
  | [], k, v => [(k, v)]
  | (j, w) :: t, k, v =>
    if j = k then (k, v) :: t
    else if k < j then (k, v) :: (j, w) :: t
    else (j, w) :: Tab.set t k v

/-- The table without any entry for `k`. -/
def Tab.erase {α : Type} (t : Tab α) (k : Nat) : Tab α := t.filter (fun p => p.1 != k)

/-- A byte memory, of any storage of the package. -/
abbrev Memory := List Host.Cell

/-- The byte at `a`; an unlisted address reads 0. -/
def Memory.byte (m : Memory) (a : Nat) : Byte := Tab.get 0 m a

/-- The memory with byte `b` at `a`, in canonical form again: a 0 is not listed. -/
def Memory.setByte (m : Memory) (a : Nat) (b : Byte) : Memory :=
  if b = 0 then Tab.erase m a else Tab.set m a b

/-- Whether a memory is in canonical form: addresses strictly rising, no listed byte 0. -/
def Memory.wf : Memory → Bool
  | [] => true
  | [(_, b)] => b != 0
  | (a, b) :: (a', b') :: m => b != 0 && decide (a < a') && Memory.wf ((a', b') :: m)

/-- `n` bytes from `a`, least significant first, as an unsigned integer (R4). -/
def Memory.readLE (m : Memory) (a : Nat) : Nat → Nat
  | 0 => 0
  | n + 1 => (m.byte a).toNat + 256 * Memory.readLE m (a + 1) n

/-- The low `n` bytes of `v` at `a`, least significant first (R4). -/
def Memory.writeLE (m : Memory) (a : Nat) : Nat → Nat → Memory
  | 0, _ => m
  | n + 1, v => Memory.writeLE (m.setByte a (.ofNat 8 v)) (a + 1) n (v / 256)

/-- The bytes of a list, laid down from `a` upward. -/
def Memory.writeBytes (m : Memory) (a : Nat) : List Byte → Memory
  | [] => m
  | b :: bs => Memory.writeBytes (m.setByte a b) (a + 1) bs

/-- `n` bytes from `a` upward, as a list. -/
def Memory.readBytes (m : Memory) (a : Nat) : Nat → List Byte
  | 0 => []
  | n + 1 => m.byte a :: Memory.readBytes m (a + 1) n

/-- Bytes `a` to `a + n - 1` set to 0 (a scrub). -/
def Memory.clear (m : Memory) (a n : Nat) : Memory :=
  m.filter (fun p => decide (p.1 < a ∨ a + n ≤ p.1))

/-- An unsigned integer of `n` bytes, least significant first. -/
def bytesLE : Nat → Nat → List Byte
  | 0, _ => []
  | n + 1, v => .ofNat 8 v :: bytesLE n (v / 256)

/-- The unsigned integer that bytes, least significant first, hold. -/
def leNat : List Byte → Nat
  | [] => 0
  | b :: bs => b.toNat + 256 * leNat bs

/-- The integer field of `n` bytes at offset `o` of a record (R4). -/
def recField (bs : List Byte) (o n : Nat) : Nat := leNat ((bs.drop o).take n)

end Sys2Proof.Machine
end

