-- ==== Sys2Proof/Machine/State.lean ====
section
/-! DEFINITION. The state of one D9 package: everything the spec gives the machine, as plain data. Numbers of
cores, clusters, quads and dies are the package numbers of R16. The state right after package reset closes the file. -/

namespace Sys2Proof.Machine

/-- Why the machine stops with a fault. -/
inductive Fault where
  /-- The package has stopped its clocks after a thermal trip; only a cold reset restarts it (R425). Raised by
  `step`; safe: nothing runs in that state. -/
  | clocksStopped
  deriving DecidableEq, Repr

/-- Why a step has no meaning. -/
inductive Refusal where
  /-- An instruction whose meaning is not modelled, by its mnemonic. Raised by `exec`; safe. -/
  | notModelled (mnemonic : String)
  deriving DecidableEq, Repr

/-- Who takes a turn: a slot of a compute core (R60), or an episode context of the Causeway (R365). -/
inductive Actor where
  | slot (core slot : Nat)
  | episode (idx : Nat)
  deriving DecidableEq, Repr

/-- The trap causes of R389. -/
inductive Cause where
  | illegalInstruction | futureInstruction | privilege | pointerFault | formatFault | branchTarget | loopFault
  | scratchpadRefusal | vaultFault | migrationFault | vectorAbsent | checkFault | accumulatorFault | lateCopy
  | messageNack | sendqReject | syncFault | episodeFault | timer | userTrap | syscall | breakpoint | pageFault
  | imageFeature | poison
  deriving DecidableEq, Repr

/-- One active level of a loop stack (R83). -/
structure LoopLevel where
  count : BitVec 32 := 0
  index : BitVec 32 := 0
  start : BitVec 53 := 0
  stop : BitVec 53 := 0
  deriving DecidableEq, Repr

/-- A pending asynchronous trap: its cause and its THR_TVAL (R392). -/
structure AsyncTrap where
  cause : Cause
  tval : Word
  deriving DecidableEq, Repr

/-- What a bound thread is doing (R61, R357); `killed` while its kill waits for what it has sent (R407). -/
inductive Run where
  | issuing | exited | trapped | swapping | retiring | killed
  deriving DecidableEq, Repr

/-- The CSRs of a thread (R384), each a word whose fields are read by accessors. -/
structure ThrCsrs where
  status : Word := 0      -- THR_STATUS, R385: INH [0]; PL, HELD, FRC are formed on reading
  cause : Word := 0       -- THR_CAUSE, R385
  trappc : Word := 0      -- THR_TRAPPC, R385
  tval : Word := 0        -- THR_TVAL, R385
  trapvec : Word := 0     -- THR_TRAPVEC, R385
  timer : Word := 0       -- THR_TIMER, R385, R393
  hscr : Word := 0        -- THR_HSCR, R385
  qmap : Word := 0        -- THR_QMAP, R69
  livetile : Word := 0xFF -- THR_LIVETILE, R98
  fpctl : Word := 0x0000000100000001  -- THR_FPCTL, R126: RM = 1, SRSEED = 1
  oorflag : Word := 0     -- THR_OORFLAG, R156
  ooraddr : Word := 0     -- THR_OORADDR, R156
  vtype : Word := 3       -- THR_VTYPE, R175: ET = E32
  vl : Word := 0          -- THR_VL, R175
  vlceil : Word := 0      -- THR_VLCEIL, R175: from the start record
  strip : Word := 0       -- THR_STRIP, R175: from the start record
  seed : Word := 1        -- THR_SEED, R209
  rank : Word := 0        -- THR_RANK, R284: from TSTART
  migmask : Word := 0xFFFE -- THR_MIGMASK, R284: g1 to g15
  regmask : Word := 0xFFFFFFFFFFFFFFFE -- THR_REGMASK, R308
  tbmask : Word := 0      -- THR_TBMASK, R309
  tbmaskx : Word := 0     -- THR_TBMASKX, R309
  polver : Word := 0      -- THR_POLVER, R376
  deriving DecidableEq, Repr

/-- Where the result of an access or of a divide lands: a g register of a thread, an entry of a core's queue
that the instruction reserved (R67, R71), or nowhere (g0). -/
inductive Dest where
  | none
  | reg (r : Reg)
  | queue (q tag : Nat)
  deriving DecidableEq, Repr

/-- An undo entry of a thread's scalar shadow log (R181): what a scalar write of the thread replaced. `after` is
the number of the youngest vector instruction dispatched before the write. -/
inductive Undo where
  | reg (after : Nat) (r : Reg) (val : Word) (empty pending : Bool)
  | csr (after : Nat) (num : Nat) (val : Word)
  deriving DecidableEq, Repr

/-- How far a dispatched vector instruction has come (R178 to R186, R210 to R213): waiting in the dispatch queue, its
convoy started, its first check disagreed, or its check passed. -/
inductive VStage where
  | queued | started | replay | checked
  deriving DecidableEq, Repr

/-- A vector instruction as its word gives it (R43 to R46): majors 13 to 16, or 17 for MRD and MWR. -/
structure VOp where
  major : Nat
  f5 : Nat
  masked : Bool := false
  vb : Nat := 0
  va : Nat := 0
  kind : Nat := 0
  vd : Nat := 0
  deriving DecidableEq, Repr

/-- One memory access of a vector instruction that has passed its checks: the element, its pointer, its bytes, the value
a store writes, the leaf and page size of a translated address, and the core × 16 + slot an SPR pointer names. -/
structure VTarget where
  elem : Nat
  ptr : Word
  n : Nat
  val : Nat := 0
  leaf : Word := 0
  shift : Nat := 0
  unit : Nat := 0
  deriving DecidableEq, Repr

/-- One dispatched vector instruction, with everything it copied at dispatch (R179). It stays listed after its
confirmation until its accesses are performed. -/
structure VEntry where
  seq : Nat := 0                       -- its number in the thread's program order
  stamp : Nat := 0                     -- its place in the order of dispatch of the core
  op : VOp
  pc : BitVec 53 := 0
  loops : List LoopLevel := []         -- the loop stack at dispatch, for the unwind of R183
  xs : List Word := []                 -- the values of its g operands
  vl : Nat := 0
  vtype : Word := 3
  rm : Nat := 1
  dst : Dest := .none                  -- the pending destination of a synchronising instruction (R182)
  took : List (Nat × Word) := []       -- the queue entries its dispatch took (R70, R183)
  head : Bool := false                 -- it begins a convoy (R185)
  convoy : Nat := 0                    -- the number of the instruction that began its convoy
  stage : VStage := .queued
  confirmed : Bool := false            -- it can no longer trap (R180)
  trap : Option (Cause × Word) := none -- the cause found by its checks
  stalled : Bool := false              -- it waits on a data-fault record (R190)
  outs : List VTarget := []            -- the accesses of a confirmed load or store
  got : Tab Nat := []                  -- those performed, by their place in `outs`, with the value a load has read
  deriving DecidableEq, Repr

/-- The reads of a VLDA element group still to land (R194): its register, its group, the THR_VTYPE the VLDA copied, and
the accesses. -/
structure VldaRead where
  v : Nat
  group : Nat
  vtype : Word
  elems : List VTarget
  got : Tab Nat := []                  -- those performed, by their place, with the value read
  deriving DecidableEq, Repr

/-- The vector context of a thread (R171, R187, R194). -/
structure VecCtx where
  v : Tab Memory := []                 -- v0 to v31, 1,024 bytes each
  w : Tab Nat := []                    -- high-water marks, in bytes
  m : Tab (BitVec 2048) := []          -- m0 to m7
  unlanded : List VldaRead := []       -- element groups whose landed bit is clear
  bad : List (Nat × Nat) := []         -- poisoned words: register and 8-byte word of it (R410)
  deriving DecidableEq, Repr

/-- A tile of accumulator memory bound to a thread's name c0 to c7 (R240). -/
structure Tile where
  ty : Option Bool := none             -- none, some false = FP32, some true = INT32
  sat : Bool := false
  xerr : Bool := false
  flt : Bool := false
  band : Option (BitVec 32) := none
  data : Tab (BitVec 32) := []         -- element 64 × row + column
  bad : List Nat := []                 -- poisoned words: elements 2w and 2w + 1 (R410)
  deriving DecidableEq, Repr

/-- One thread: the sequencer bound to a slot or an episode context. -/
structure Thread where
  uid : Nat := 0                       -- the model's own number of the thread on its slot
  ctx : Nat := 0                       -- THR_CTX, R385
  crew : Nat := 0                      -- the index of its crew on the core it was started on
  ord : Nat := 0                       -- its crew's ordinal in the launch, floor(TIDX / THREADS) (R352)
  lid : BitVec 32 := 0
  tidx : BitVec 32 := 0
  lead : Bool := false
  xfer : Bool := false
  pc : BitVec 53 := 0                  -- R83
  loops : List LoopLevel := []         -- l0 first, R83
  g : Tab Word := []                   -- g1 to g31, R66
  empty : BitVec 32 := 0               -- bit i: register i is empty, R66
  pending : BitVec 32 := 0             -- bit i: register i is pending, R67
  late : BitVec 32 := 0                -- bit i: register i was filled in F-cycle lateAt, which turns see from the next on (R62, R68)
  latePend : BitVec 32 := 0            -- those of them that were pending
  lateAt : Nat := 0
  csr : ThrCsrs := {}
  run : Run := .issuing
  parked : Bool := false               -- the last turn was a bubble of a parked instruction (R61, R62)
  withdrawable : Bool := false         -- the park is a withdrawable wait (R392)
  held : Bool := false                 -- R336
  arriving : Bool := false             -- the TSTART or TLOAD that brings it has not ended: it does not issue yet (R352)
  startCheck : Bool := false           -- the pc was set without a check: R462 at the first turn
  stage : Nat := 0                     -- how far the current instruction has come, when it has more than one act: 1 to 3 in waits that
                                       -- begin again after a landing, 4 and above in waits it has committed itself to (R314)
  vals : List Word := []               -- the operands it read at its first act
  arg : Nat := 0                       -- a number it keeps between acts
  popped : List (Nat × Word) := []     -- the queue entries its operands took, while it can still be withdrawn (R70, R392)
  reserved : List (Nat × Nat) := []    -- the queue entries it reserved for its results when it began: queue and tag (R71, R72)
  async : List AsyncTrap := []         -- pending asynchronous traps, oldest first (R392)
  timerDue : Bool := false             -- a TIMER is pending (R393)
  faultSeq : Option Nat := none        -- the data-fault record the thread waits on (R168)
  walking : Option Nat := none         -- the packet number of the translation walk it waits for (R167)
  walkVa : Nat := 0                    -- the address of its own access that waits for the walk (R169)
  walkAcc : Nat := 0                   -- ACCESS of that access as a fault record has it, 0 for a pc or a target (R89, R168)
  noCode : Option Nat := none          -- the 64 KiB page that a walk for its pc or target found to be no code page (R89)
  saveAt : Option Nat := none          -- the F-cycle of a save request (R398)
  saveTo : Word := 0                   -- the image pointer of the request (R403)
  landing : Bool := false              -- the last completed act was a landing point (R86, R97)
  forced : Bool := false               -- the landing is a forced save (R398)
  haltSaved : Bool := false            -- the thread being saved is halted by a trap (R398)
  frc : Bool := false                  -- THR_STATUS.FRC
  lanes : List Nat := []               -- lane groups granted (R172)
  laneReq : Nat := 0                   -- lane groups of the start record (R171)
  vec : VecCtx := {}
  vseq : Nat := 0
  vq : List VEntry := []               -- unconfirmed vector instructions, oldest first
  log : List Undo := []                -- the shadow log, newest first (R181)
  pipes : List Nat := []               -- pipes used in the open convoy (R185)
  convoyOpen : Bool := false           -- whether an instruction with CB = 0 may join (R185)
  convoy : Nat := 0                    -- the number of the instruction that began the latest convoy
  restored : Bool := false             -- the next vector instruction begins a convoy (R185)
  accQuota : Nat := 0                  -- ACCS of the start record (R240)
  acc : Tab Tile := []                 -- claimed tiles, c0 to c7
  taskSeq : Nat := 0                   -- the task counter (R241)
  barWait : Option (Nat × Nat) := none -- the level and generation arrived at (R324)
  drained : Option AsyncTrap := none   -- a drained fault of a restored image (R399)
  recSeq : Nat := 0                    -- SEQ of the record of the trap that halted it (R397)
  sending : List Byte := []            -- the action that an EPSEND has read and checked, while it releases (R373)
  deriving DecidableEq, Repr

/-- An entry of a core queue (R71, R72): when its reservation is seen, and its value with the F-cycle it lands. -/
structure QEntry where
  tag : Nat
  seenAt : Nat
  val : Option (Word × Nat) := none
  bad : Bool := false                  -- its word is poisoned (R410)
  deriving DecidableEq, Repr

/-- A core queue: entries from head to tail, and the F-cycles at which popped entries count as free (R72). -/
structure Queue where
  ents : List QEntry := []
  freed : List Nat := []
  deriving DecidableEq, Repr

/-- A mailbox (R255): the F-cycle of its last MBPUT or MBTAKE fixes what each side sees. -/
structure Mailbox where
  words : List Word := []
  full : Bool := false
  crew : Nat := 0
  since : Option Nat := none
  deriving DecidableEq, Repr

/-- A crew of a core (R153, R352, R354). -/
structure Crew where
  lid : BitVec 32 := 0
  ord : Nat := 0
  base : Nat := 0
  rows : Nat := 0
  qmask : BitVec 8 := 0
  ctx : Nat := 0
  deriving DecidableEq, Repr

/-- A message in a class queue (R286). -/
structure Msg where
  sender : Nat := 0
  words : List Word := []
  q : Bool := false
  came : Nat := 0                      -- the F-cycle of its arrival: it is seen from the next on (R62, R293)
  deriving DecidableEq, Repr

/-- A fill waiting in a core's fill buffer (R296). -/
structure FillWait where
  slot : Nat
  reg : Reg
  val : Word
  copy : Bool := false                 -- a copy's completion fill, for its owner only (R265):
  crew : Option Nat := none            -- a crew of the core, or
  uid : Option Nat := none             -- the thread of a steward's copy
  deriving DecidableEq, Repr

/-- A divide in one of the core's two dividers (R65, R129). -/
structure DivJob where
  id : Nat
  slot : Nat
  dst : Dest
  val : Word
  flags : Nat := 0
  float : Bool := false
  after : Nat := 0                     -- vector instructions its thread had dispatched before it (R181)
  deriving DecidableEq, Repr

/-- A rank's authoritative entry at its home core (R283), with the transit state of R301. -/
structure HomeEntry where
  word : Word := 0
  transit : Bool := false
  arrived : Option Word := none        -- the coordinates ARRIVE brought
  tokens : Nat := 0                    -- drain tokens that have not returned
  writes : List Nat := []              -- packet numbers of RKSET writes that wait for the end of the transit, in order
  returned : List Nat := []            -- packet numbers returned, in order
  held : List Nat := []                -- packet numbers held, in order
  deriving DecidableEq, Repr

/-- A 128-byte sector of a cache line (R146, R304). -/
structure Sector where
  valid : Bool := false
  owned : Bool := false
  region : Nat := 0
  dirty : BitVec 32 := 0
  sent : BitVec 32 := 0                -- dirty words sent for registration and not written since (R305)
  awaits : Option Nat := none          -- the packet of its latest registration, while its words are still here (R305)
  reg : Option Nat := none             -- the registered unit of the level below
  data : Memory := []                  -- byte offsets 0 to 127
  deriving DecidableEq, Repr

/-- A 256-byte line (R145, R146). -/
structure Line where
  line : Nat                           -- physical address / 256
  ctx : Nat := 0
  pin : Bool := false
  ro : Bool := false
  s0 : Sector := {}
  s1 : Sector := {}
  deriving DecidableEq, Repr

/-- A page of a TLB (R167): the leaf and its size, tagged with the context. -/
structure TlbEntry where
  ctx : Nat
  page : Nat                           -- virtual address / page size
  shift : Nat                          -- log2 of the page size
  leaf : Word
  deriving DecidableEq, Repr

/-- A write to core-shared state that has not committed (R73). -/
inductive Pend where
  | csr (num : Nat) (op : Nat) (v : Word)
  | win (n op : Nat) (v : Word) (crew : Option Nat)
  | bind (cls slot : Nat) (on : Bool)
  /-- The transfer slot enabled for a crew, or disabled (R254, R352). -/
  | ten (crew : Option Nat)
  /-- A slot freed: the classes bound to it come free (R303). -/
  | slotGone (slot : Nat)
  /-- A crew freed, with the queues of its mask (R354). -/
  | crewGone (crew : Nat) (qmask : BitVec 8)
  deriving DecidableEq, Repr

/-- A thread-context cache entry (R404). -/
structure CtxCacheEntry where
  ptr : Word
  ctx : Nat
  block : List Byte                    -- the register and CSR blocks of the image
  deriving DecidableEq, Repr

/-- A send-buffer entry (R289): what is sent, and for which slot. -/
structure SendEntry where
  id : Nat
  slot : Nat
  ctx : Nat := 0
  sender : Nat := 0                    -- the sender's rank
  rank : Nat
  cls : Nat
  words : List Word := []
  fillReg : Option Reg := none         -- a FILL (R326)
  sendq : Option (Word × Nat × Nat) := none -- DST, LEN, TAG of a SENDQ (R294)
  src : Word := 0                      -- its SRC
  sent : Bool := false
  deriving DecidableEq, Repr

/-- A thread in a migration packet (R298, R300). -/
structure Migrant where
  thr : Thread
  source : Nat
  srcSlot : Nat
  target : Nat := 0                    -- the core to which its instruction resolved the rank (R299)
  deriving DecidableEq, Repr

/-- One core (R73 and the unit list of "A picture of the machine"). -/
structure Core where
  slots : Tab Thread := []
  queues : Tab Queue := []
  mbox : Tab Mailbox := []
  win : Tab Word := []                 -- COR_WIN0 to COR_WIN7, R157
  xctl : Word := 0                     -- COR_XCTL, R254
  issued : Tab (BitVec 32) := []       -- channel issue counters, R256
  issuedSeen : Tab (BitVec 32) := []   -- the counters as XC_DONE.ISSUED reads (R73)
  done : Tab (BitVec 32) := []         -- XC_DONE.DONE, R257
  prom : Tab Word := []                -- XC_PROM
  stat : Tab Word := []                -- XC_STAT
  faddr : Tab Word := []               -- XC_FADDR
  xerrs : List (Nat × BitVec 32) := [] -- channel and identifier of copies that completed with an error (R242)
  bind : Tab Nat := []                 -- classes 1 to 14: bound slot; unlisted is unbound (R286)
  mcslot : Tab Nat := []               -- SLOT of COR_MCBIND as the last binding of a class left it (R287)
  classq : Tab (List Msg) := []
  resv : Tab Nat := []                 -- queue entries reserved for SENDQ payloads, by class (R295)
  notices : List Word := []            -- exit notices of class 0, R353
  migslot : Word := 0                  -- COR_MIGSLOT, R297
  pend : List (Nat × Pend) := []       -- writes not yet committed, with the F-cycle from which they are seen
  sendbuf : List SendEntry := []
  fillbuf : List FillWait := []
  arrivals : List Migrant := []
  divs : List DivJob := []
  spad : Memory := []                  -- 512 KiB, physical offsets (R153)
  crews : Tab Crew := []
  l1 : List Line := []
  icache : List Nat := []              -- instruction-cache lines present
  tlb : List TlbEntry := []
  ctxCache : List CtxCacheEntry := []
  rankCache : Tab Word := []           -- pinned rank entries the interface holds (R285)
  homes : Tab HomeEntry := []          -- ranks whose home this core is (R282)
  deriving DecidableEq, Repr

/-- A tile task in the quad's scheduler (R241). -/
structure Task where
  core : Nat
  slot : Nat
  seq : Nat
  record : List Byte
  engine : Option Nat := none
  origin : Nat                         -- the core that issued it, whose copies it may wait for (R242)
  kept : Option (Nat × Nat × Nat) := none    -- partition, LID and TIDX of the saved thread it is kept for (R240, R399)
  deriving DecidableEq, Repr

/-- One quad (R171, R186, R241). -/
structure Quad where
  laneWait : List (Nat × Nat × Nat) := []  -- core, slot and groups of waiting lane requests, oldest first
  tasks : List Task := []
  engineNext : Nat := 0                -- the core served after the last task start (R243)
  pipeVL : Nat := 0                    -- round-robin pointer of the VL pipe (R186)
  pipeVP : Nat := 0
  vlBusy : Option (Nat × Nat) := none  -- core and slot of the convoy that holds the pipe
  vpBusy : Option (Nat × Nat) := none
  deriving DecidableEq, Repr

/-- A copy of the cluster's copy engine (R256 to R267). -/
structure Copy where
  id : Nat                             -- the device's own number
  core : Nat
  slot : Nat
  uid : Nat := 0                       -- the issuing thread
  ctx : Nat := 0
  base : Nat := 0                      -- the rows of the issuing thread's crew (R153)
  rows : Nat := 0
  ch : Nat
  xid : BitVec 32
  op : Nat                             -- function number of R40
  x0 : Word := 0                       -- ga
  x1 : Word := 0                       -- g(a+1)
  y0 : Word := 0                       -- gb
  ctl : Word := 0                      -- CTL
  regmask : Word := 0
  cls : Nat := 3                       -- its traffic class (R259, R276)
  after : Nat := 0                     -- it does not complete before this F-cycle (R73, R260)
  next : Nat := 0                      -- bytes of its rows written, or units of an XPLN
  rd : Nat := 0                        -- bytes of its rows read, or accesses of the unit
  upto : Nat := 0                      -- bytes of its rows whose pieces have passed their checks, or pieces of the unit (R264)
  first : Nat := 0                     -- where the piece it is at begins
  pass : Nat := 0                      -- 1 while it leaves overlapping destination bytes undefined, after all others (R260)
  started : Bool := false              -- its acquire has been performed (R259)
  nfin : Nat := 0
  landed : Bool := false               -- every piece is performed, or the copy has stopped
  coll : Nat := 0                      -- of an XCOLL: 1 its contribution is with the collective engine, 2 its result has come (R263)
  buf : List Byte := []                -- what it has read and not written, or read of its unit
  err : Option (Nat × Word) := none    -- error kind and XC_FADDR
  prom : Word := 0
  fillCrew : Option Nat := none        -- the owner of its fill: a crew, or the thread of a steward's copy (R265)
  fillUid : Option Nat := none
  deriving DecidableEq, Repr

/-- One cluster. -/
structure Cluster where
  cc : List Line := []
  tlb : List TlbEntry := []
  copies : List Copy := []
  errcnt : Word := 0                   -- CLU_ERRCNT, R412
  budget : Word := 0                   -- its copy engine's budget from the energy planner (R19, R267)
  deriving DecidableEq, Repr

/-- A partial address of an access to memory that caches hold. -/
structure PAccess where
  pa : Nat                             -- physical address
  n : Nat
  region : Nat
  sync : Bool
  ca : Nat
  deriving DecidableEq, Repr

/-- Whose access a packet of an engine is: a copy's, by cluster and number; of a vector instruction, by core, slot, its number in the
thread and the element; or of a VLDA element group, by core, slot, register, group and element. -/
inductive EngineRef where
  | copy (cluster id : Nat)
  | vec (core slot seq elem : Nat)
  | vlda (core slot v group elem : Nat)
  deriving DecidableEq, Repr

/-- What a packet, or an access under way, asks for. -/
inductive Body where
  /-- A scalar load, atomic or wait whose reply has not landed; `val` once the data is known (R139). -/
  | load (dst : Dest) (ptr : Word) (n : Nat) (signed : Bool) (acc : Option PAccess) (ro : Bool) (val : Option Word)
  /-- A store to a SYNC or CA 2 page on its way to its home pier (R150). -/
  | store (acc : PAccess) (val : Nat)
  /-- A store through the VLT or IOR path on its way to its place (R143, R162). -/
  | pstore (ptr : Word) (n : Nat) (val : Nat)
  /-- Dirty words sent to the next level (R305): the unit, its level, the sector, the mask and the bytes. -/
  | regis (level unit line sec : Nat) (mask : BitVec 32) (data : Memory) (region : Nat)
  /-- The merged sector returning to the sender (R305). -/
  | regisReply (level unit line sec : Nat) (mask : BitVec 32) (data : Memory)
  /-- A deregistration notice for a unit of a level (R306). -/
  | notice (level unit line sec : Nat)
  /-- A line fetched into the L1, or past it, for CPIN, PREF or a sub-word store, with the value of the store (R142, R147, R148). -/
  | fetch (acc : PAccess) (ro : Bool) (val : Option Nat)
  /-- A FENCE probe (R313). -/
  | probe
  /-- An atomic on its way to its point (R318). -/
  | atomic (fn : Nat) (dst : Dest) (ptr : Word) (n : Nat) (v cmp : Nat) (acc : Option PAccess) (scope ord : Nat)
  /-- An access of `n` bytes by an engine, which performs it when the packet has come back (R270, R271). -/
  | engine (who : EngineRef) (n : Nat) (write : Bool)
  /-- The result of a collective on its way to a member's engine (R263). -/
  | collResult (cluster id : Nat) (bytes : List Byte)
  /-- The answer of an atomic that met a poisoned word (R410). -/
  | poison (ptr : Word)
  /-- A remote scratchpad access: 0 store, 1 atomic, 2 copy write (R158). -/
  | spr (kind : Nat) (ptr : Word) (n : Nat) (val : Nat) (fn : Nat) (cmp : Nat) (dst : Dest)
  /-- The answer of a remote scratchpad access: the value read, and whether it was out of range. -/
  | sprAck (kind : Nat) (ptr : Word) (n : Nat) (val : Nat) (oor : Bool) (dst : Dest)
  /-- A refusal of a remote scratchpad access (R159). -/
  | sprRefuse (kind : Nat) (ptr : Word) (dst : Dest)
  /-- QLOCK, QUNLK and QWAIT requests (R320 to R323). -/
  | lockReq (pa : Nat) (ctx : Nat)
  | lockRel (pa : Nat) (ctx : Nat)
  | lockReply (pa : Nat) (ok : Bool)
  | qwait (pa : Nat) (cond : Nat) (v : Word)
  | qwaitReply (v : Word)
  /-- A message, a fill or a SENDQ request of a send-buffer entry, and where it is bound (R288, R294, R296). -/
  | msg (core : Nat) (e : SendEntry) (slot : Nat) (viaHome : Bool)
  | msgReturn (core : Nat) (e : SendEntry) (slot : Option Nat)
  | toHome (core : Nat) (e : SendEntry)
  | rankFetch (core : Nat) (e : SendEntry)
  | msgAck (entry core : Nat)
  | msgRefuse (e : SendEntry) (core kind : Nat)
  | sendqReply (entry core : Nat) (kind : Nat) (tval : Word) (slot ctx : Nat)
  /-- Payload bytes of a SENDQ from an offset of DST on, for the context whose pages were checked; `last` with its last packet (R295). -/
  | sendqData (core : Nat) (e : SendEntry) (slot ctx : Nat) (bytes : List Byte) (at_ : Nat × Bool)
  | compFill (core : Nat) (fill : FillWait)
  /-- A message of the hub to a class of a core: a start record (R345). -/
  | hubMsg (cls : Nat) (words : List Word)
  | entryWrite (rank : Nat) (word : Word)
  /-- DEPART, the drain token and its return, and ARRIVE of a migration (R301). -/
  | depart (rank core : Nat)
  | token (rank home : Nat)
  | tokenBack (rank : Nat)
  | arrive (rank : Nat) (word : Word)
  /-- A migration packet bound for a rank: on its way to the rank's home (0), from there to the rank's core (1), returned to the home
  (2), or bound for a core as it is (3) (R285, R300). -/
  | migrant (m : Migrant) (rank leg : Nat)
  /-- A thread's fetch of a rank's entry, and the answer: the entry, and whether it is in transit (R285, R299). -/
  | rankAsk (rank : Nat)
  | rankTold (rank : Nat) (word : Word) (transit : Bool)
  | walk (ctx va acc : Nat)
  | succ (dst : Dest) (val : Word)
  deriving DecidableEq, Repr

/-- The physical network a packet uses (R270), or none for what stays within a cluster or a core. -/
inductive Net where
  | req | rsp | syn | msg | local
  deriving DecidableEq, Repr

/-- A packet (R274): its header fields that software's rules depend on, and what it asks for. -/
structure Packet where
  id : Nat := 0
  net : Net := .local
  owner : Option Actor := none         -- the thread whose access or message it is
  ctx : Nat := 0                       -- CTX of the header
  cls : Nat := 1                       -- CLS
  age : Nat := 0                       -- AGE
  flits : Nat := 1                     -- LEN + 1
  src : Nat := 0                       -- source and destination ports: die × 256 + quarter × 64 + port; 1024 the hub; 2048 + v a vault
  dst : Nat := 0
  route : List (Nat × Nat) := []       -- switch outputs still to win, with the input it waits at (R271, R272)
  stamp : Nat := 0                     -- when it joined the buffer it waits in, in order of arrival
  worm : List (Nat × Nat) := []        -- the outputs its head has won whose buffers still hold flits of it, or are still to pass some:
                                       -- output and flits behind it, newest first (R273, R274)
  left : Nat := 0                      -- flits that have not entered the network
  spkg : Nat := 0                      -- SPKG and DPKG of the header
  dpkg : Nat := 0
  due : Option Nat := none             -- the F-cycle at which it lands by itself
  after : Nat := 0                     -- it does not move before this F-cycle (R273, or a backoff of R288)
  held : Bool := false                 -- its destination has consumed it and keeps it
  tries : Nat := 0                     -- how often it was refused (R288)
  waiting : Bool := false              -- refused: it waits at its sender to be sent again (R288)
  vseq : Option Nat := none            -- of a load issued in run-ahead: the youngest vector instruction dispatched before it (R181)
  parts : List (Nat × Nat × Nat) := [] -- requests combined into it: packet, the value added before it, switch (R280)
  body : Body
  deriving DecidableEq, Repr

/-- A switch output's arbitration state (R277, R278). -/
structure SwitchOut where
  ptr : Nat := 0                       -- calendar pointer
  toggle : Nat := 0                    -- the input that wins the next tie
  busy : Nat := 0                      -- it has granted in the F-cycle before this one
  used : Nat := 0                      -- flits in the buffer behind it at the start of this F-cycle, of two (R273)
  split : Nat := 0                     -- entries in use of its switch's split table of two (R280)
  deriving DecidableEq, Repr

/-- A lock in a pier's lock table (R320). -/
structure Lock where
  pa : Nat
  slice : Nat                          -- die × 64 + pier slice
  holder : Nat                         -- context tag
  waiters : List (Nat × Nat) := []     -- packet number and context tag, oldest first
  deriving DecidableEq, Repr

/-- A waiter of a pier's wait table (R323). -/
structure QWaiter where
  pkt : Nat
  pa : Nat
  slice : Nat                          -- die × 64 + pier slice
  cond : Nat
  v : Word
  deriving DecidableEq, Repr

/-- A fault-queue record, KINDs 1 to 4, 8, 9 and 10 (R168, R396). -/
structure FaultRec where
  kind : Nat
  addr : Word := 0                     -- ADDR, or TVAL of a trap record
  ctx : Nat := 0
  b11 : Nat := 0                       -- ACCESS, or CAUSE
  b12 : Nat := 0                       -- LEVEL, or FLAGS
  b13 : Nat := 0                       -- SIZE
  core : Nat := 0
  slot : Nat := 0
  seq : Nat := 0
  time : Word := 0                     -- TIME, or TRAPPC
  deriving DecidableEq, Repr

/-- An unresolved data-fault record and the accesses that joined it (R168). -/
structure OpenFault where
  seq : Nat
  ctx : Nat
  page : Nat                           -- virtual address / page size
  shift : Nat := 16                    -- log2 of that size
  addr : Word
  joined : List (Actor × Nat)          -- with the faulting address of each
  abandoned : Bool := false            -- ruled on; threads in run-ahead still take their PAGE_FAULT (R169, R181)
  deriving DecidableEq, Repr

/-- A launch record's fields (R337). -/
structure LaunchRec where
  image : Nat := 0
  entry : Nat := 0
  shape : Nat := 0
  threads : Nat := 0
  cores : Nat := 0
  clusters : Nat := 0
  count : Nat := 0
  vlc : Nat := 0
  lanes : Nat := 0
  accs : Nat := 0
  sprows : Nat := 0
  prio : Nat := 0
  sflags : Nat := 0
  rsv : Nat := 0
  energy : Nat := 0
  deps : List Nat := []
  arg : Word := 0
  cplt : Word := 0
  deriving DecidableEq, Repr

/-- Where a launch stands (R340 to R348). -/
inductive LaunchPhase where
  | queued | admitted | ended | recorded | held | refused
  deriving DecidableEq, Repr

/-- A placed instance of a launch (R335, R344): its threads and who has left. -/
structure Inst where
  num : Nat
  cores : List (Nat × Nat) := []       -- core number and first scratchpad row, by cluster and core ordinal
  plan : List (Nat × Nat × Nat) := []  -- core, slot and TIDX of threads whose start record is out (R345)
  started : List (Nat × Nat × Nat) := []   -- core, slot and TIDX of threads started
  saved : List (Nat × Nat) := []       -- TIDX of threads saved, and the core they were saved from (R336)
  gone : List Nat := []                -- TIDX of threads that have exited, retired or been killed (R324, R362)
  killed : List Nat := []
  reaped : List Nat := []              -- TIDX of threads reaped, killed or handed on (R348)
  bars : List (Nat × Nat × Nat × List Nat) := [] -- level, group, generation, TIDX of members arrived (R324)
  succLid : Option Nat := none
  seqStage : Nat := 0                  -- progress of the succession sequence (R363)
  deriving DecidableEq, Repr

/-- A launch in the partition's task-graph table (R342). -/
structure Launch where
  lid : Nat
  ctx : Nat := 0
  vi : Nat := 0
  lrec : LaunchRec := {}
  prio : Nat := 0
  phase : LaunchPhase := .queued
  status : Nat := 0
  verdict : Nat := 0
  killed : Nat := 0
  err : Option Word := none
  succid : Nat := 0
  admitTb : Nat := 0
  entry : Word := 0                    -- GEN pointer of the entry in the selected image (R350)
  rkbase : Nat := 0
  rken : Bool := false
  rkpin : Bool := false
  next : Nat := 0                      -- instances placed
  insts : List Inst := []
  released : Bool := false             -- a supervisor release satisfied its dependents (R342)
  ruled : Bool := false                -- the supervisor has ruled on it (R342)
  strip : Option (Nat × List Word) := none -- element count and strip bases of its argument block (R338)
  sdesc : List Byte := []              -- the successor descriptor of a launch named by SUCC (R360)
  pred : Option Nat := none            -- the launch it succeeds
  deriving DecidableEq, Repr

/-- A resident KXO object (R349): the partition, the bytes and the GEN address at which it is mapped. -/
structure Obj where
  part : Nat
  va : Word
  bytes : List Byte
  deriving DecidableEq, Repr

/-- A partition (R29, R421): its quarter-dies, its memory and its partition CSRs. -/
structure Partition where
  quarters : BitVec 16 := 0            -- PRT_QTRMAP
  base : Nat := 0                      -- first 64 KiB granule of its memory
  granules : Nat := 0                  -- how many
  built : BitVec 16 := 0               -- the quarter-dies whose HBM4 its granules filled when it was built (R28, R152)
  homeMap : Tab Nat := []              -- granules moved since: granule to quarter-die (R152, R421)
  keys : BitVec 16 := 0                -- key slots that hold a key (R426)
  fqbase : Word := 0                   -- PRT_FQBASE
  fqctx : Nat := 0                     -- the context latched with it (R395)
  fqhead : Word := 0
  fqtail : Word := 0
  supcore : Word := 0
  trapval : Word := 0
  trcal : Word := 0x1348               -- PRT_TRCAL, R279: 8, 4, 3, 1
  lwgt : Word := 0x1348                -- PRT_LWGT, R341
  lwptr : Nat := 0
  featmask : Word := 0
  vicfg : Word := 0                    -- the VI named by the last PRT_VICFG write
  capw : BitVec 16 := 0                -- PRT_ECFG, R429
  bal : Int := 0                       -- PRT_EACCT, R429
  accrued : Nat := 0                   -- microseconds of TB the account has been credited for (R430)
  waiting : List FaultRec := []        -- records waiting on the die (R168, R395)
  seqNext : Nat := 0
  openFaults : List OpenFault := []
  trapRecs : List (Nat × Nat × Nat × Cause) := [] -- SEQ, core, slot, cause of trap records not yet ruled on
  lastLid : Nat := 0
  graph : List Launch := []            -- the task-graph table, oldest first
  opens : Nat := 0                     -- opencount of R369
  resize : Option (BitVec 16 × Nat) := none -- departing quarters and the A-cycle of the signal (R421)
  moving : Bool := false               -- PRT_RESIZE has been written (R421)
  killing : Option (Nat × List Nat) := none -- the tag being drained and the units that have acknowledged (R408)
  deriving DecidableEq, Repr

/-- A context (R161, R163, R282): what the supervisor holds with it. -/
structure Ctx where
  part : Nat := 0
  vi : Nat := 0
  root : Nat := 0                      -- physical address of the root table
  grants : List Word := []             -- 16 vault grants, R161
  rankDir : Nat := 0                   -- physical address of the rank directory
  dead : Bool := false                 -- its kill-drain has begun
  code : List (Nat × Nat × Nat) := []  -- its pinned code pages: page number, log2 of the size, physical address (R88, R170)
  deriving DecidableEq, Repr

/-- The doorbell page and hub state of a virtual interface (R414 to R420). -/
structure Vi where
  part : Nat := 0
  device : Nat := 0                    -- device identity (R30)
  ctx : Nat := 0
  key : Nat := 0                       -- Irham key
  lastSeq : BitVec 48 := 0             -- last accepted sequence number
  qbase : Word := 0                    -- VI_QBASE
  tail : BitVec 32 := 0
  consumed : BitVec 32 := 0
  cqtail : BitVec 32 := 0
  cqbase : Word := 0
  cqhead : BitVec 32 := 0
  ovf : Bool := false
  authf : BitVec 32 := 0
  out : Bool := false                  -- OUT
  switching : Option Bool := none      -- a switch under way: out (true) or in (false)
  frozen : Word := 0                   -- the frozen VI_PROG
  image : List (Nat × Word) := []      -- register writes merged while switched out, by offset
  rkbase : Nat := 0                    -- PRT_VICFG
  rken : Bool := false
  rkpin : Bool := false
  viprio : Nat := 0
  reply : List Byte := []              -- the last reply, repeated for a repeated sequence number
  acks : List (List Byte) := []        -- the acknowledgements sent to the host, oldest first (R414)
  deriving DecidableEq, Repr

/-- The turn of an episode's step mailbox (R371). -/
inductive EpTurn where
  | E | R | P | A | gone
  deriving DecidableEq, Repr

/-- A step message (R370). -/
structure StepMsg where
  step : Nat := 0
  kind : Nat := 0
  status : Nat := 0
  reward : BitVec 32 := 0
  aux : BitVec 32 := 0
  payload : List Byte := []
  deriving DecidableEq, Repr

/-- An open episode, in a context of the Causeway (R365 to R380). -/
structure Episode where
  thr : Thread := {}
  part : Nat := 0
  ctx : Nat := 0
  handle : Word := 0
  store : Memory := []                 -- local store, 256 KiB
  textLen : Nat := 0
  wlen : Nat := 0
  frames : List Nat := []              -- frames of the window's 64 KiB pages, translated at open
  record : Nat := 0                    -- physical address of the episode record
  deadline : Nat := 0
  budget : Nat := 0
  turn : EpTurn := .E
  k : Nat := 0
  msg : Option StepMsg := none         -- what the mailbox holds
  final : Bool := false                -- the observation held is final
  curVer : BitVec 32 := 0
  minVer : BitVec 32 := 0
  maxVer : BitVec 32 := 0
  steps : Nat := 0
  instr : Nat := 0
  start : Nat := 0
  clock : Nat := 0                     -- the A-cycle from which the deadline runs
  ended : Option (Nat × Nat × Nat × BitVec 32) := none -- STATUS, CAUSE, CODE, FREWARD
  recv : Option Actor := none          -- the thread parked in EPRECV
  sender : Option Actor := none        -- the thread whose EPSEND has passed its checks and releases (R373)
  overrun : Bool := false              -- the instruction beyond its budget would issue (R379)
  closed : Bool := false
  deriving DecidableEq, Repr

/-- A contribution to a collective under way (R263). -/
structure Contribution where
  group : Nat
  member : Nat
  cluster : Nat
  copy : Nat
  bytes : List Byte
  deriving DecidableEq, Repr

/-- The limit registers, as the limit record fills them (R425): the clocks in MHz, the voltage range of each rail, the package power
limit in W, and the trip temperature. -/
structure Limits where
  fMHz : Nat := 2200
  aMHz : Nat := 1100
  rails : List (Nat × Nat) := []
  powerW : Nat := 1800
  trip : Nat := 0
  deriving DecidableEq, Repr

/-- The whole package. -/
structure State where
  now : Nat := 0                       -- F-cycles since package reset (R6, R60); TB is half of it (R21)
  stopped : Bool := false              -- the clocks are stopped (R425)
  pkg : Nat := 0                       -- the package's ordinal, assigned by the management firmware (R31, R424)
  cur : Actor := .slot 0 0             -- whose turn it is
  rot : List Actor := []               -- who still has a turn in this F-cycle
  agenda : List (Option Instr) := []   -- what the world outside and the units do next; none is a turn
  fresh : Nat := 0                     -- the model's own counter of free values (assumption 2)
  nextId : Nat := 0                    -- the model's own numbering of packets
  cores : Tab Core := []
  quads : Tab Quad := []
  clusters : Tab Cluster := []
  piers : Tab (List Line) := []        -- visitor lines of each pier slice, die × 64 + slice (R145, R152)
  homeReg : Tab Nat := []              -- REG at the home piers, by sector number (R304)
  mem : Memory := []                   -- home piers and HBM4, by physical address (R152)
  vaults : Tab Memory := []            -- Deck vaults, by die × 16 + vault (R100)
  poison : List (Nat × Nat × Nat) := []    -- poisoned words: store, unit and word number (R410)
  flawed : List (Nat × Nat × Nat) := []    -- words with a single-bit error not yet corrected, in the same form (R410)
  packets : List Packet := []
  switches : Tab SwitchOut := []
  locks : List Lock := []
  qwaits : List QWaiter := []
  parts : Tab Partition := []
  ctxs : Tab Ctx := []
  vis : Tab Vi := []
  objs : Tab Obj := []
  episodes : Tab Episode := []
  groups : Tab Word := []              -- group entries of the IOR space (R424)
  members : Tab Word := []             -- member entries of the IOR space
  contribs : List Contribution := []
  limits : Option Limits := none       -- the limit registers, locked once the limit record is loaded (R425)
  irhamPort : Nat := 0                 -- the UDP port of Irham (R414)
  measures : List (List Byte) := []    -- SM3 measurements of the security engine (R427)
  deriving DecidableEq, Repr

/-- The package right after reset: TB 0, no partition, no thread, every store listing nothing (R20, R21, and
"Bring-up and recovery" of 18_host.md). -/
def State.reset : State := {}

end Sys2Proof.Machine
end

