-- ==== Sys2Proof/Machine/Route.lean ====
section
/-! DEFINITION. The ways through the Trestle: its ports, the outputs of the omegas, the quarter crossbar, the gateways and the hub,
and the routes between two ports (R15, R270 to R272, R281). -/

namespace Sys2Proof.Machine

/-- The code of the hub as an end of a route. -/
def hubPort : Nat := 1024

/-- The code of a Deck vault, die × 16 + vault, as an end of a route: it attaches to the quarter crossbar stage (R272). -/
def vaultEnd (v : Nat) : Nat := 2048 + v

/-- The die, the quarter and the omega output of an end: core and pier ports by number, a vault by its cluster, the hub at port 0. -/
def endDie (e : Nat) : Nat := if 2048 ≤ e then (e - 2048) / 16 % 4 else e / 256 % 4
def endQuarter (e : Nat) : Nat := if 2048 ≤ e then (e - 2048) % 16 / 4 else e / 64 % 4
def endTag (e : Nat) : Nat := if 2048 ≤ e then 16 * (e % 4) else e % 64

/-- A network's number in a switch output's number. -/
def netNum : Net → Nat
  | .req => 0
  | .rsp => 1
  | .syn => 2
  | .msg => 3
  | .local => 4

/-- The number of a switch output: network, die, quarter, stage and link. Stages 0 to 5 are the omega's; 6 is the quarter
crossbar's output to a port, 7 a gateway out of a die, 8 the hub's output to a die, 9 the crossbar's output to a vault. -/
def outNum (net die quarter stage link : Nat) : Nat := (((net * 4 + die) * 4 + quarter) * 16 + stage) * 64 + link

/-- Where the numbers of the reverse path of SYN begin. -/
def backBase : Nat := 2 ^ 20

/-- The forward output whose switch an output belongs to, on the forward or the reverse path. -/
def forwardOut (o : Nat) : Nat := if backBase ≤ o then (o - backBase) / 1024 else o

/-- The stage of a switch output. -/
def outStage (o : Nat) : Nat := forwardOut o / 64 % 16

/-- The quarter-die, 0 to 15, of a switch output. -/
def outQuarter (o : Nat) : Nat := forwardOut o / 1024 % 16

/-- The switch an output belongs to: two outputs of one omega switch share it. -/
def outSwitch (o : Nat) : Nat :=
  if backBase ≤ o then backBase + (o - backBase) / 1024 * 1024 else if outStage o < 6 then o / 2 * 2 else o

/-- A 6-bit link index rotated left by one bit (R271). -/
def rotLink (l : Nat) : Nat := l * 2 % 64 + l / 32

/-- The outputs of an omega from a link to a destination port, with the input of each switch: stages `k` to 5. -/
def omegaRoute (net die quarter dport : Nat) : Nat → Nat → Nat → List (Nat × Nat)
  | 0, _, _ => []
  | fuel + 1, k, link =>
    let r := rotLink link
    let out := r / 2 * 2 + dport / 2 ^ (5 - k) % 2
    (outNum net die quarter k out, r % 2) :: omegaRoute net die quarter dport fuel (k + 1) out

/-- The gateway by which traffic leaves a die for another: 2 to the next die in ring order, 3 to the previous, 0 or 1 to the hub for
the opposite die (R15). DESIGN CHOICE (assumption 78): of gateways 0 and 1 it takes the one that the parity of the destination die
names; R15 gives no rule. Traffic of the hub's own units takes gateway 0. -/
def gatewayTo (src dst : Nat) : Nat :=
  if dst = (src + 1) % 4 then 2 else if dst = (src + 3) % 4 then 3 else dst % 2

/-- The gateway by which traffic of another die enters one: from the previous die 3, from the next 2, from the hub 0 or 1 (R15). -/
def entryFrom (src dst : Nat) : Nat :=
  if dst = (src + 1) % 4 then 3 else if dst = (src + 3) % 4 then 2 else dst % 2

/-- The way from an end up to the crossbar stage of its die: the outputs of its quarter's omega, none for a vault, and the crossbar
input it comes to. -/
def climb (n src dst : Nat) : List (Nat × Nat) × Nat :=
  if 2048 ≤ src then ([], 256 + src % 16)
  else (omegaRoute n (endDie src) (endQuarter src) (endTag dst) 6 0 (src % 64), 64 * endQuarter src + endTag dst)

/-- The crossbar's output to an end, from an input of its stage. -/
def descend (n dst input : Nat) : List (Nat × Nat) :=
  [(outNum n (endDie dst) (endQuarter dst) (if 2048 ≤ dst then 9 else 6) (if 2048 ≤ dst then dst % 4 else endTag dst), input)]

/-- The switch outputs a packet wins on its way, each with the input it waits at (R271, R272, R281): none inside one core. Traffic
between two ports of one quarter stays in its omega; all other crosses the crossbar stage; traffic to another die or to the hub
leaves by a gateway. -/
def routeOf (net : Net) (src dst : Nat) : List (Nat × Nat) :=
  let n := netNum net
  let sd := endDie src
  let dd := endDie dst
  if net = .local || src = dst then []
  else if src = hubPort then (outNum n dd 0 8 0, 300) :: descend n dst 310
  else if dst = hubPort then (climb n src dst).1 ++ [(outNum n sd 0 7 0, (climb n src dst).2)]
  else if sd = dd then
    if src < 1024 && dst < 1024 && endQuarter src = endQuarter dst then (climb n src dst).1
    else (climb n src dst).1 ++ descend n dst (climb n src dst).2
  else
    let g := gatewayTo sd dd
    (climb n src dst).1 ++ [(outNum n sd 0 7 g, (climb n src dst).2)]
      ++ (if g < 2 then [(outNum n dd 0 8 g, 301 + sd)] else []) ++ descend n dst (310 + entryFrom sd dd)

/-- A link of the reverse path: from the switch of an output back to one of its inputs. -/
def backOut (o i : Nat) : Nat := backBase + outSwitch o * 1024 + i

/-- The way a reply retraces on SYN: the switches of the request's route in reverse (R270, R280). -/
def backRoute (route : List (Nat × Nat)) : List (Nat × Nat) := route.reverse.map (fun x => (backOut x.1 x.2, x.1 % 2))

/-- The way of a reply from `src` back to `dst`: on SYN the request's own way reversed, on every other network a route of its own. -/
def replyRoute (net : Net) (src dst : Nat) : List (Nat × Nat) :=
  if net = .syn then backRoute (routeOf .syn dst src) else routeOf net src dst

end Sys2Proof.Machine
end

