-- ==== Sys2Proof/Machine/Mem.lean ====
section
/-! DEFINITION. The memory hierarchy of GEN and RO data (R145 to R152, R304 to R306), page tables and their walk
(R163 to R166), and reads and writes at the home piers. A line is a physical address divided by 256; `sec` is 0 or
1 within it; bytes of a sector are numbered 0 to 127. -/

namespace Sys2Proof.Machine

/-! ### Words and tables of the state -/

/-- Bits [hi:lo] of a word, as an unsigned integer (R3). -/
def bits (w : Word) (hi lo : Nat) : Nat := fld w.toNat hi lo

/-- A bit of a word. -/
def bitOf (w : Word) (i : Nat) : Bool := w.getLsbD i

/-- A natural number cut to a word. -/
def wordOf (n : Nat) : Word := BitVec.ofNat 64 n

/-- The word with bits [hi:lo] replaced by the low bits of `v`. -/
def setBits (w : Word) (hi lo v : Nat) : Word :=
  wordOf (w.toNat - fld w.toNat hi lo * 2 ^ lo + v % 2 ^ (hi + 1 - lo) * 2 ^ lo)

/-- The word with bit `i` set to `b`. -/
def setBit (w : Word) (i : Nat) (b : Bool) : Word := setBits w i i (if b then 1 else 0)

/-- 1 for true, 0 for false. -/
def boolNat (b : Bool) : Nat := if b then 1 else 0

/-- The low `w` bits of a word, sign-extended. -/
def sextLow (x : Word) (w : Nat) : Word := (x <<< (64 - w)).sshiftRight (64 - w)

/-- A loaded value extended to a word (R137). -/
def extend (signed : Bool) (n v : Nat) : Word := if signed then sextLow (wordOf v) (8 * n) else wordOf v

/-- A core by its package number (R16). -/
def State.core (s : State) (k : Nat) : Core := Tab.get {} s.cores k

/-- The state with core `k` replaced. -/
def State.setCore (s : State) (k : Nat) (c : Core) : State := { s with cores := Tab.set s.cores k c }

/-- A cluster by its package number (R16). -/
def State.cluster (s : State) (c : Nat) : Cluster := Tab.get {} s.clusters c

/-- The state with cluster `c` replaced. -/
def State.setCluster (s : State) (c : Nat) (x : Cluster) : State := { s with clusters := Tab.set s.clusters c x }

/-- A quad: quad `q` holds cores 4q to 4q + 3 (R16). -/
def State.quad (s : State) (q : Nat) : Quad := Tab.get {} s.quads q

/-- The state with quad `q` replaced. -/
def State.setQuad (s : State) (q : Nat) (x : Quad) : State := { s with quads := Tab.set s.quads q x }

/-- A partition by its number (R29). -/
def State.part (s : State) (p : Nat) : Partition := Tab.get {} s.parts p

/-- The state with partition `p` replaced. -/
def State.setPart (s : State) (p : Nat) (x : Partition) : State := { s with parts := Tab.set s.parts p x }

/-- A context by its tag. -/
def State.ctx (s : State) (c : Nat) : Ctx := Tab.get {} s.ctxs c

/-- A virtual interface (R30). -/
def State.vi (s : State) (v : Nat) : Vi := Tab.get {} s.vis v

/-- The state with virtual interface `v` replaced. -/
def State.setVi (s : State) (v : Nat) (x : Vi) : State := { s with vis := Tab.set s.vis v x }

/-- An episode by the index of its context (R365). -/
def State.episode (s : State) (i : Nat) : Episode := Tab.get {} s.episodes i

/-- The state with episode `i` replaced. -/
def State.setEpisode (s : State) (i : Nat) (e : Episode) : State := { s with episodes := Tab.set s.episodes i e }

/-- TB: the A-cycles completed since package reset, modulo 2^64 (R21). -/
def State.tb (s : State) : Word := wordOf (s.now / 2)

/-- The next value of the model's counter of free values, and the state with it advanced (assumption 2). -/
def State.takeFree (s : State) : Nat × State := (s.fresh, { s with fresh := s.fresh + 1 })

/-! ### Fat pointers (R99, R100) -/

/-- PATH of a pointer: 0 GEN, 1 RO, 2 SPL, 3 SPR, 4 VLT, 7 IOR. -/
def ptrPath (p : Word) : Nat := bits p 63 61

/-- FMT of a pointer (R103). -/
def ptrFmt (p : Word) : Nat := bits p 60 56

/-- L of a pointer. -/
def ptrL (p : Word) : Nat := bits p 55 53

/-- ADDR of a pointer. -/
def ptrAddr (p : Word) : Nat := bits p 52 0

/-- A pointer with another address field. -/
def ptrWith (p : Word) (addr : Nat) : Word := setBits p 52 0 addr

/-- The offset field of a pointer: what alignment and extents are tested on (R100, R138). -/
def ptrOff (p : Word) : Nat :=
  match ptrPath p with
  | 2 => bits p 18 0
  | 3 => bits p 18 0
  | 4 => bits p 26 0
  | _ => ptrAddr p

/-- The logical rank of an SPR pointer (R100). -/
def ptrRank (p : Word) : Nat := bits p 52 33

/-- Whether a bit that R100 marks zero is 1. -/
def ptrDirty (p : Word) : Bool :=
  match ptrPath p with
  | 2 => bits p 52 19 != 0
  | 3 => bits p 32 19 != 0
  | 4 => bits p 52 33 != 0
  | _ => false

/-! ### Partitions and homes -/

/-- The quarter-die of a core: 64 cores each (R16, R28). -/
def quarterOfCore (k : Nat) : Nat := k / 64

/-- The number of the partition that holds quarter-die `q`, if any (R29). -/
def State.partOfQuarter (s : State) (q : Nat) : Option Nat :=
  (List.find? (fun p => p.2.quarters.getLsbD q) s.parts).map (·.1)

/-- The number of the partition of a core. -/
def State.partOfCore (s : State) (k : Nat) : Option Nat := s.partOfQuarter (quarterOfCore k)

/-- The 64 KiB granule of a physical address (R152). -/
def granuleOf (pa : Nat) : Nat := pa / 65536

/-- Whether a partition's memory holds the bytes `pa` to `pa + n - 1` (R165). -/
def Partition.holds (p : Partition) (pa n : Nat) : Bool :=
  decide (p.base ≤ granuleOf pa ∧ granuleOf (pa + n - 1) < p.base + p.granules)

/-- The quarter-dies of a set, in rising order. -/
def quarterList (q : BitVec 16) : List Nat := (List.range 16).filter (fun i => q.getLsbD i)

/-- The 64 KiB granules of a quarter-die's HBM4: half the pseudo-channels of a 64 GiB stack (R14, R28, R32). -/
def quarterGranules : Nat := 32 * 2 ^ 30 / 65536

/-- The HBM4 stack, 0 to 7, whose pseudo-channels a quarter-die holds, and which half of them: 0 lower, 1 upper (R28). -/
def hbmOf (q : Nat) : Nat × Nat := (2 * (q / 4) + q % 4 / 2, q % 2)

/-- The quarter-die whose pseudo-channels hold a granule of a partition: where a resize has moved it, else where it was placed
when the partition was built. DESIGN CHOICE (assumption 55): a built partition's granules fill its quarter-dies' HBM4 in the
order of their numbers, each to the 32 GiB it has; R28 and R152 leave the map open. -/
def Partition.homeQuarter (p : Partition) (g : Nat) : Nat :=
  match Tab.find? p.homeMap g with
  | some q => q
  | none =>
    let qs := quarterList (if p.built = 0 then p.quarters else p.built)
    (qs[(g - p.base) / quarterGranules]?).getD (qs.headD 0)

/-- The quarter-die a physical address is homed on, of the partition that holds it (R152). -/
def State.homeQuarter (s : State) (pa : Nat) : Nat :=
  match List.find? (fun p => p.2.holds pa 1) s.parts with
  | some (_, p) => p.homeQuarter (granuleOf pa)
  | none => 0

/-- The die a physical address is homed on (R152): the die of its quarter in its partition's home map. -/
def State.homeDie (s : State) (pa : Nat) : Nat := s.homeQuarter pa / 4

/-- The quarter-dies of a die that the partition of a core holds. -/
def State.quartersOn (s : State) (core die : Nat) : List Nat :=
  (List.range 4).filter (fun q =>
    match s.partOfCore core with
    | some p => (s.part p).quarters.getLsbD (4 * die + q)
    | none => false)

/-- The pier slice, die × 64 + slice, on which a line is homed: one of its home quarter's sixteen, chosen by the line's physical
address and fixed while the map entry stands (R152, assumption 7). -/
def State.homeSlice (s : State) (pa : Nat) : Nat := 16 * s.homeQuarter pa + Config.homeSlice (pa / 256) % 16

/-- The pier slice, die × 64 + slice, that serves an address on a die for a core: its home slice there, else one of its partition's
slices of that die, chosen by the line's physical address (R152, assumption 7). -/
def State.pierSlice (s : State) (core die pa : Nat) : Nat :=
  if die = s.homeDie pa then s.homeSlice pa
  else
    let quarters := s.quartersOn core die
    let n := 16 * quarters.length
    let k := Config.homeSlice (pa / 256) % (if n = 0 then 64 else n)
    die * 64 + (quarters[k / 16]?).getD (k / 16 % 4) * 16 + k % 16

/-- The slice of its own die that caches a line for a core as a visitor (R152). -/
def State.visitSlice (s : State) (core pa : Nat) : Nat := s.pierSlice core (core / 256) pa

/-! ### Page tables (R163 to R166) -/

/-- What a walk ends in: a leaf and the log2 of its page size, or a data-fault KIND of R168 and the level of the
last entry read. -/
inductive Walk where
  | leaf (entry : Word) (shift level : Nat)
  | bad (kind level : Nat)
  deriving DecidableEq, Repr

/-- The levels of a walk: level, lowest index bit, index bits, and the alignment of the next level's table (R163). -/
def walkLevels : List (Nat × Nat × Nat × Nat) :=
  [(0, 39, 14, 4096), (1, 30, 9, 4096), (2, 21, 9, 256), (3, 16, 5, 1)]

/-- Physical address bits [51:16] of a leaf, as an address (R164). -/
def leafFrame (e : Word) : Nat := bits e 55 20 * 65536

/-- A leaf's fields. -/
def leafR (e : Word) : Bool := bitOf e 2
def leafW (e : Word) : Bool := bitOf e 3
def leafX (e : Word) : Bool := bitOf e 4
def leafSync (e : Word) : Bool := bitOf e 5
def leafCA (e : Word) : Nat := bits e 7 6
def leafPin (e : Word) : Bool := bitOf e 8
def leafKey (e : Word) : Nat := bits e 12 9
def leafRegion (e : Word) : Nat := bits e 18 13

/-- Whether a leaf at this level is malformed in a partition (R165). -/
def leafMalformed (p : Partition) (e : Word) (level shift : Nat) : Bool :=
  bitOf e 19 || bits e 63 56 != 0 || leafCA e == 3 || level == 0 || leafFrame e % 2 ^ shift != 0
    || !p.holds (leafFrame e) (2 ^ shift)

/-- Whether a non-leaf at this level is malformed: its reserved bits, its level, and the alignment of the table it
names (R164, R165). -/
def nodeMalformed (e : Word) (level align : Nat) : Bool :=
  level == 3 || bits e 7 2 != 0 || bits e 63 52 != 0 || (bits e 51 8 * 256) % align != 0

/-- The walk from a table address over the levels that remain (R163). -/
def walkFrom (m : Memory) (p : Partition) (va : Nat) : List (Nat × Nat × Nat × Nat) → Nat → Walk
  | [], _ => .bad 3 3
  | (level, low, width, align) :: rest, table =>
    let e := wordOf (m.readLE (table + 8 * (va / 2 ^ low % 2 ^ width)) 8)
    if !bitOf e 0 then .bad 1 level
    else if bitOf e 1 then
      if leafMalformed p e level low then .bad 3 level
      else if !p.keys.getLsbD (leafKey e) then .bad 4 level
      else .leaf e low level
    else if nodeMalformed e level align then .bad 3 level
    else walkFrom m p va rest (bits e 51 8 * 256)

/-- The walk of a virtual address in a context (R163). -/
def State.walk (s : State) (ctx va : Nat) : Walk :=
  let c := s.ctx ctx
  walkFrom s.mem (s.part c.part) va walkLevels c.root

/-- The TLB entry of a context for a virtual address (R167). -/
def tlbFind (t : List TlbEntry) (ctx va : Nat) : Option TlbEntry :=
  t.find? (fun e => e.ctx == ctx && e.page == va / 2 ^ e.shift)

/-- What the TLBs that serve a core hold for an address: the core's, else its cluster's (R167). -/
def State.tlbLookup (s : State) (core ctx va : Nat) : Option TlbEntry :=
  (tlbFind (s.core core).tlb ctx va).orElse (fun _ => tlbFind (s.cluster (core / 16)).tlb ctx va)

/-- The leaf an access of a core finds at once: in a TLB, or by a walk made for the access (R167). -/
def State.translate (s : State) (core ctx va : Nat) : Walk :=
  match s.tlbLookup core ctx va with
  | some e => .leaf e.leaf e.shift (if e.shift = 30 then 1 else if e.shift = 21 then 2 else 3)
  | none => s.walk ctx va

/-- The physical address a leaf gives a virtual address. -/
def leafPa (e : Word) (shift va : Nat) : Nat := leafFrame e + va % 2 ^ shift

/-- The kinds of access whose rights R166 gives: 0 load, 1 store, 2 atomic. A code page is never writable (R88). -/
def leafAllows (e : Word) (kind : Nat) : Bool :=
  match kind with
  | 0 => leafR e
  | 1 => leafW e && !(leafX e && leafPin e)
  | _ => leafR e && leafW e && !(leafX e && leafPin e)

/-- The pinned code page of a context that holds an address: its size and physical address (R88). -/
def Ctx.codePage (c : Ctx) (va : Nat) : Option (Nat × Nat) :=
  (c.code.find? (fun x => va / 2 ^ x.2.1 == x.1)).map (fun x => (x.2.1, x.2.2))

/-- Whether a physical address lies in a pinned code page of any context: it is read-only through every mapping (R88). -/
def State.codeFrame (s : State) (pa : Nat) : Bool :=
  s.ctxs.any (fun c => c.2.code.any (fun x => decide (x.2.2 ≤ pa ∧ pa < x.2.2 + 2 ^ x.2.1)))

/-- Whether a leaf allows an access of a kind to an address: its rights, and no write to a pinned code page (R88, R166). -/
def State.allows (s : State) (e : Word) (shift va kind : Nat) : Bool :=
  leafAllows e kind && (kind == 0 || !s.codeFrame (leafPa e shift va))

/-- What a check of R89 finds for an address of a context: a code page, none, or no translation yet. -/
inductive CodeLook where
  | ok | bad | miss
  deriving DecidableEq, Repr

/-- R89 for a core: a word-aligned address on a pinned code page of the context, or on a page that the TLBs map with X and
PIN. An address they do not map needs a walk first (R62); a page that a walk has found to be no code page is bad. A walk that
ends malformed or without its key leaves the page unmapped for R89: DESIGN CHOICE (assumption 27), since R89 lists four states
and KINDs 3 and 4 of R168 are none of them. -/
def State.codeLook (s : State) (core ctx : Nat) (noCode : Option Nat) (pc : Nat) : CodeLook :=
  if pc % 4 ≠ 0 then .bad
  else if ((s.ctx ctx).codePage pc).isSome then .ok
  else
    match s.tlbLookup core ctx pc with
    | some e => if leafX e.leaf && leafPin e.leaf then .ok else .bad
    | none => if noCode = some (pc / 65536) then .bad else .miss

/-- R89 decided at once, with a walk made for the check: what TSTART, a successor's descriptor and the entry of a trap handler
use (assumption 27). -/
def State.codeOk (s : State) (ctx pc : Nat) : Bool :=
  pc % 4 == 0 && (((s.ctx ctx).codePage pc).isSome ||
    (match s.walk ctx pc with
     | .leaf e _ _ => leafX e && leafPin e
     | .bad _ _ => false))

/-- The page of an address joins the pinned code pages of its context when an instruction is fetched from it (R88). -/
def State.pinCode (s : State) (core ctx va : Nat) : State :=
  let c := s.ctx ctx
  if (c.codePage va).isSome then s
  else
    match s.tlbLookup core ctx va with
    | some e => { s with ctxs := Tab.set s.ctxs ctx { c with code := (va / 2 ^ e.shift, e.shift, leafFrame e.leaf) :: c.code } }
    | none => s

/-- The physical address an instruction of a context is fetched from: on its pinned code page (R88). -/
def State.codePa (s : State) (ctx va : Nat) : Nat :=
  match (s.ctx ctx).codePage va with
  | some (sh, pa) => pa + va % 2 ^ sh
  | none => 0

/-! ### Lines and sectors (R145, R146) -/

/-- A sector of a line. -/
def Line.sec (l : Line) (i : Nat) : Sector := if i = 0 then l.s0 else l.s1

/-- A line with a sector replaced. -/
def Line.setSec (l : Line) (i : Nat) (x : Sector) : Line := if i = 0 then { l with s0 := x } else { l with s1 := x }

/-- The line numbered `n` of a cache, if present. -/
def findLine (ls : List Line) (n : Nat) : Option Line := ls.find? (fun l => l.line == n)

/-- A cache with a line put in place of any of its number. -/
def putLine (ls : List Line) (l : Line) : List Line := l :: ls.filter (fun x => x.line != l.line)

/-- A cache without a line. -/
def dropLine (ls : List Line) (n : Nat) : List Line := ls.filter (fun x => x.line != n)

/-- The bytes of a sector's memory in words whose mask bit is `keep`. -/
def maskKeep (m : Memory) (mask : BitVec 32) (keep : Bool) : Memory :=
  m.filter (fun p => mask.getLsbD (p.1 / 4) == keep)

/-- Bytes of `m` laid over those of `base`. -/
def Memory.over (m base : Memory) : Memory := m.foldl (fun b p => b.setByte p.1 p.2) base

/-- Incoming sector bytes merged under the dirty words of the own copy (R147). -/
def mergeUnder (own : Memory) (dirty : BitVec 32) (inc : Memory) : Memory :=
  Memory.over (maskKeep own dirty true) (maskKeep inc dirty false)

/-- Incoming dirty words laid over a copy (R305). -/
def mergeOver (copy : Memory) (mask : BitVec 32) (inc : Memory) : Memory :=
  Memory.over (maskKeep inc mask true) (maskKeep copy mask false)

/-- The mask of the words that `n` bytes at offset `off` of a sector touch. -/
def wordMask (off n : Nat) : BitVec 32 :=
  BitVec.ofNat 32 ((2 ^ ((off + n - 1) / 4 - off / 4 + 1) - 1) * 2 ^ (off / 4))

/-- The bytes `a` to `a + n - 1` of a memory, numbered from 0. -/
def Memory.slice (m : Memory) (a n : Nat) : Memory :=
  (m.filter (fun p => decide (a ≤ p.1 ∧ p.1 < a + n))).map (fun p => (p.1 - a, p.2))

/-- Caches by level: 0 the L1 of a core, 1 a cluster cache, 2 the visitor lines of a pier slice. -/
def State.linesAt (s : State) (level unit : Nat) : List Line :=
  match level with
  | 0 => (s.core unit).l1
  | 1 => (s.cluster unit).cc
  | _ => Tab.get [] s.piers unit

/-- The state with a cache replaced. -/
def State.setLinesAt (s : State) (level unit : Nat) (ls : List Line) : State :=
  match level with
  | 0 => s.setCore unit { s.core unit with l1 := ls }
  | 1 => s.setCluster unit { s.cluster unit with cc := ls }
  | _ => { s with piers := Tab.set s.piers unit ls }

/-- Sets and ways of a level (R145). -/
def levelSets (level : Nat) : Nat := if level = 0 then 32 else if level = 1 then 1024 else 512
def levelWays (level : Nat) : Nat := if level = 0 then 8 else 16

/-- The sector of a line at a level, absent ones empty. -/
def State.sectorAt (s : State) (level unit line sec : Nat) : Sector :=
  match findLine (s.linesAt level unit) line with
  | some l => l.sec sec
  | none => {}

/-- The state with a sector of a present line replaced. -/
def State.setSectorAt (s : State) (level unit line sec : Nat) (x : Sector) : State :=
  match findLine (s.linesAt level unit) line with
  | some l => s.setLinesAt level unit (putLine (s.linesAt level unit) (l.setSec sec x))
  | none => s

/-- Codes of registrants (R304): at a cluster cache, core numbers and 1024 for the copy engine; at a home pier,
clusters 0 to 63, visiting pier slices 64 + slice, and 512 for the hub. -/
def copyUnit : Nat := 1024
def hubUnit : Nat := 512
def visitorUnit (slice : Nat) : Nat := 64 + slice

/-- A deregistration notice at a unit of a cluster cache: the L1 clears its owned bit (R306). -/
def State.noticeL1 (s : State) (unit line sec : Nat) : State :=
  if unit = copyUnit then s
  else s.setSectorAt 0 unit line sec { s.sectorAt 0 unit line sec with owned := false }

/-- A deregistration notice at a cluster cache, which forwards it to its own registrant (R306). -/
def State.noticeCC (s : State) (c line sec : Nat) : State :=
  let x := s.sectorAt 1 c line sec
  let s := s.setSectorAt 1 c line sec { x with owned := false }
  match x.reg with
  | some u => s.noticeL1 u line sec
  | none => s

/-- A deregistration notice at a registrant of a home pier (R306). -/
def State.noticePier (s : State) (unit line sec : Nat) : State :=
  if unit < 64 then s.noticeCC unit line sec
  else if unit < 320 then
    let x := s.sectorAt 2 (unit - 64) line sec
    let s := s.setSectorAt 2 (unit - 64) line sec { x with owned := false }
    match x.reg with
    | some c => s.noticeCC c line sec
    | none => s
  else s

/-- A level as the level above it sees it: where its words stand in the list of poisoned words; make a line present; a
sector's bytes; the registration of dirty words sent by a unit (R305), which answers the registrant it replaces; and a notice to
a unit its REG names (R306). Lines are allocated with the owner context given (R146). -/
structure Below where
  place : Nat × Nat
  ensure : State → (line region ctx : Nat) → (ro : Bool) → State
  bytes : State → Nat → Nat → Memory
  register : State → (unit line sec region ctx : Nat) → BitVec 32 → Memory → State × Option Nat
  notice : State → Nat → Nat → Nat → State

/-! ### Poison (R410) -/

/-- Poison leaves the words a write covers whole (R410): words of 8 bytes of a storage. -/
def State.clearPoison (s : State) (place unit a n : Nat) : State :=
  { s with poison := s.poison.filter (fun p =>
      !(p.1 == place && p.2.1 == unit && decide (a ≤ 8 * p.2.2 ∧ 8 * p.2.2 + 8 ≤ a + n)))
           flawed := s.flawed.filter (fun p =>
      !(p.1 == place && p.2.1 == unit && decide (a ≤ 8 * p.2.2 ∧ 8 * p.2.2 + 8 ≤ a + n))) }

/-- Whether a word that `n` bytes at `a` of a storage touch is poisoned. The storages: 0 home memory, 1 a core's scratchpad, 2 a
vault, 3 a core's L1, 4 a cluster cache, 5 the visitor lines of a pier slice; words of memory and caches are numbered by their
physical address. -/
def State.poisoned (s : State) (place unit a n : Nat) : Bool :=
  s.poison.any (fun p => p.1 == place && p.2.1 == unit && decide (8 * p.2.2 < a + n ∧ a < 8 * p.2.2 + 8))

/-- The poisoned words of a storage among the 16 of a sector. -/
def State.sectorPoison (s : State) (at_ : Nat × Nat) (line sec : Nat) : List Nat :=
  (s.poison.filter (fun p => p.1 == at_.1 && p.2.1 == at_.2 && p.2.2 / 16 == 2 * line + sec)).map (fun p => p.2.2)

/-- Poison travels with the words of a mask from one storage to another, and leaves what they cover whole there (R410). -/
def State.movePoison (s : State) (src dst : Nat × Nat) (line sec : Nat) (mask : BitVec 32) : State :=
  if s.poison.isEmpty then s
  else
    let touched := fun (w : Nat) => mask.getLsbD (2 * (w % 16)) || mask.getLsbD (2 * (w % 16) + 1)
    let whole := fun (w : Nat) => mask.getLsbD (2 * (w % 16)) && mask.getLsbD (2 * (w % 16) + 1)
    let come := ((s.sectorPoison src line sec).filter touched).map (fun w => (dst.1, dst.2, w))
    { s with poison := come ++ s.poison.filter (fun p =>
        !(p.1 == dst.1 && p.2.1 == dst.2 && p.2.2 / 16 == 2 * line + sec && (whole p.2.2 || come.contains p))) }

/-- What the words of a line of a cache leave behind in the list of poisoned words when the line goes. -/
def State.forgetLine (s : State) (level unit line : Nat) : State :=
  if s.poison.isEmpty && s.flawed.isEmpty then s
  else
    let kept := fun (p : Nat × Nat × Nat) => !(p.1 == 3 + level && p.2.1 == unit && p.2.2 / 32 == line)
    { s with poison := s.poison.filter kept, flawed := s.flawed.filter kept }

/-- Whether the pier of a quarter-die has acknowledged the drain of a context tag: it drops whatever still carries the tag (R408,
step 3, R409). -/
def State.drops (s : State) (ctx quarter : Nat) : Bool :=
  match (s.part (s.ctx ctx).part).killing with
  | some (tag, acks) => tag == ctx && acks.contains quarter
  | none => false

/-! ### The levels (R145 to R152, R305, R306) -/

/-- Dirty words merged at the home pier, with REG set to the sender, and the registrant that replaces (R305). -/
def State.registerHome (s : State) (unit line sec : Nat) (mask : BitVec 32) (data : Memory) : State × Option Nat :=
  let key := 2 * line + sec
  let base := 256 * line + 128 * sec
  let kept := s.mem.filter (fun p => !(decide (base ≤ p.1 ∧ p.1 < base + 128) && mask.getLsbD ((p.1 - base) / 4)))
  let lo := { s with mem := Memory.over (List.map (fun (p : Host.Cell) => (p.1 + base, p.2)) (maskKeep data mask true)) kept }
  let old := Tab.find? s.homeReg key
  ({ lo with homeReg := Tab.set lo.homeReg key unit }, old.filter (fun u => u != unit))

/-- The home pier and its HBM4 as a level (R152). Words of a tag whose drain the pier has acknowledged are dropped (R408). -/
def belowHome : Below where
  place := (0, 0)
  ensure s _ _ _ _ := s
  bytes s line sec := s.mem.slice (256 * line + 128 * sec) 128
  register s unit line sec _ ctx mask data :=
    if s.drops ctx (s.homeQuarter (256 * line)) then (s, none) else s.registerHome unit line sec mask data
  notice s u line sec := s.noticePier u line sec

/-- Dirty words registered at a level, with the notice it causes already acknowledged (R305, R306). -/
def Below.settle (b : Below) (s : State) (unit line sec region ctx : Nat) (mask : BitVec 32) (data : Memory) : State :=
  let (s, old) := b.register s unit line sec region ctx mask data
  match old with
  | some u => b.notice s u line sec
  | none => s

/-- A registration packet of a sector carries nothing more: its words have been sent again, with newer ones (R305). -/
def emptied (level unit line sec : Nat) (p : Packet) : Packet :=
  match p.body with
  | .regis l u n i _ _ r => if l = level ∧ u = unit ∧ n = line ∧ i = sec then { p with body := .regis l u n i 0 [] r } else p
  | _ => p

/-- Whether a packet registers words of a sector. -/
def Packet.registers (p : Packet) (level unit line sec : Nat) : Bool :=
  match p.body with
  | .regis l u n i _ _ _ => l == level && u == unit && n == line && i == sec
  | _ => false

/-- The registrations of a sector that are still on their way emptied. -/
def State.supersede (s : State) (level unit line sec : Nat) : State :=
  if s.packets.any (fun p => p.registers level unit line sec) then { s with packets := s.packets.map (emptied level unit line sec) }
  else s

/-- A sector's dirty words written to the next level at once, which registers them to this unit (R146, R305). -/
def State.writeBack (b : Below) (unitCode level unit : Nat) (s : State) (line sec ctx : Nat) (x : Sector) : State :=
  if x.dirty = 0 then s
  else
    ((b.settle s unitCode line sec x.region ctx x.dirty x.data).movePoison (3 + level, unit) b.place line sec x.dirty).supersede
      level unit line sec

/-- A unit that REG of a sector names is told, where the sector goes (R306). -/
def State.tellRegistrant (s : State) (level line sec : Nat) (x : Sector) : State :=
  match x.reg with
  | some u => if level = 1 then s.noticeL1 u line sec else if level = 2 then s.noticeCC u line sec else s
  | none => s

/-- A line leaves a cache with both its sectors: their dirty words go to the next level, and the units their REGs name are told
(R146, R306). -/
def evictLine (b : Below) (unitCode level unit : Nat) (s : State) (l : Line) : State :=
  let s := State.writeBack b unitCode level unit s l.line 0 l.ctx l.s0
  let s := State.writeBack b unitCode level unit s l.line 1 l.ctx l.s1
  let s := (s.tellRegistrant level l.line 0 l.s0).tellRegistrant level l.line 1 l.s1
  (s.setLinesAt level unit (dropLine (s.linesAt level unit) l.line)).forgetLine level unit l.line

/-- The lines of a cache in the set of line `n`. -/
def setLines (ls : List Line) (level n : Nat) : List Line :=
  ls.filter (fun l => l.line % levelSets level == n % levelSets level)

/-- Whether a line can be allocated: present, or its set has a way that is free or not pinned (R149). -/
def State.canAlloc (s : State) (level unit line : Nat) : Bool :=
  let ls := s.linesAt level unit
  (findLine ls line).isSome || decide ((setLines ls level line).length < levelWays level)
    || (setLines ls level line).any (fun l => !l.pin)

/-- The line allocated in a cache, after an eviction where its set is full (R147; the victim is assumption 6). -/
def allocLine (b : Below) (unitCode level unit : Nat) (s : State) (line ctx : Nat) (ro : Bool) : State :=
  let ls := s.linesAt level unit
  match findLine ls line with
  | some l =>
    -- a GEN access to a read-only line takes the line as its own, without its stale bytes (R151)
    if l.ro && !ro then
      s.setLinesAt level unit (putLine ls { l with ro := false, s0 := { l.s0 with valid := false },
                                                   s1 := { l.s1 with valid := false } })
    else s
  | none =>
    let full := decide (levelWays level ≤ (setLines ls level line).length)
    let cand := (setLines ls level line).filter (fun l => !l.pin)
    let s := match full, cand[Config.victim s.fresh % cand.length]? with
      | true, some v => { evictLine b unitCode level unit s v with fresh := s.fresh + 1 }
      | _, _ => s
    s.setLinesAt level unit (putLine (s.linesAt level unit) { line := line, ctx := ctx, ro := ro })

/-- A sector made valid at a level: fetched from below and merged under its dirty words (R147). -/
def fillSector (b : Below) (level unit : Nat) (s : State) (line sec region ctx : Nat) (ro : Bool) : State :=
  let x := s.sectorAt level unit line sec
  if x.valid then s
  else
    let s := b.ensure s line region ctx ro
    let x := s.sectorAt level unit line sec
    let inc := b.bytes s line sec
    (s.setSectorAt level unit line sec
      { x with valid := true, owned := false, region := if x.dirty = 0 then region else x.region,
               data := mergeUnder x.data x.dirty inc }).movePoison b.place (3 + level, unit) line sec (~~~ x.dirty)

/-- A cache as the level below another. -/
def cacheBelow (b : Below) (unitCode level unit : Nat) : Below where
  place := (3 + level, unit)
  ensure s line region ctx ro :=
    let s := allocLine b unitCode level unit s line ctx ro
    let s := fillSector b level unit s line 0 region ctx ro
    fillSector b level unit s line 1 region ctx ro
  bytes s line sec := (s.sectorAt level unit line sec).data
  register s child line sec region ctx mask data :=
    let s := allocLine b unitCode level unit s line ctx false
    let s := fillSector b level unit s line sec region ctx false
    let x := s.sectorAt level unit line sec
    let s := s.setSectorAt level unit line sec
      { x with data := mergeOver x.data mask data, dirty := x.dirty ||| mask, sent := x.sent &&& ~~~ mask,
               reg := some child }
    (s, x.reg.filter (fun u => u != child))
  notice s u line sec := if level = 1 then s.noticeL1 u line sec else s.noticeCC u line sec

/-- The visitor lines of a pier slice, below the cluster caches of its die for lines homed elsewhere (R152). -/
def belowVisitor (slice : Nat) : Below := cacheBelow belowHome (visitorUnit slice) 2 slice

/-- What lies below a cluster cache for a line: the home pier on the own die, else the visitor slice. -/
def belowCC (s : State) (cl line : Nat) : Below :=
  if s.homeDie (256 * line) = cl / 16 then belowHome else belowVisitor (s.visitSlice (16 * cl) (256 * line))

/-- A cluster cache, below its L1s. -/
def belowL1 (s : State) (cl line : Nat) : Below := cacheBelow (belowCC s cl line) cl 1 cl

/-- A line made present and valid in a core's L1, for its two sectors (R147). -/
def State.fillL1 (s : State) (k line ctx region : Nat) (ro : Bool) : State :=
  let b := belowL1 s (k / 16) line
  let s := allocLine b k 0 k s line ctx ro
  let s := fillSector b 0 k s line 0 region ctx ro
  fillSector b 0 k s line 1 region ctx ro

/-- A line made present and valid in a cluster cache. -/
def State.fillCC (s : State) (cl line ctx region : Nat) (ro : Bool) : State :=
  (belowL1 s cl line).ensure s line region ctx ro

/-- A line made present and valid at the pier of a die: its home there, or its visitor slice. -/
def State.fillPier (s : State) (cl line ctx region : Nat) (ro : Bool) : State :=
  (belowCC s cl line).ensure s line region ctx ro

/-- The bytes of a line of a level as one 256-byte memory. -/
def State.lineBytes (s : State) (level unit line : Nat) : Memory :=
  (s.sectorAt level unit line 0).data ++ ((s.sectorAt level unit line 1).data.map (fun p => (p.1 + 128, p.2)))

/-- Whether an access finds all its bytes in a sector: valid, or in dirty words (R147). -/
def Sector.hit (x : Sector) (off n : Nat) : Bool := x.valid || (wordMask off n &&& ~~~ x.dirty) == 0

/-- Whether a load of `n` bytes at `pa` hits in a cache; a GEN load takes nothing from a read-only line (R147, R151). -/
def State.hitAt (s : State) (level unit pa n : Nat) (ro : Bool) : Bool :=
  match findLine (s.linesAt level unit) (pa / 256) with
  | some l => (ro || !l.ro) && (l.sec (pa / 128 % 2)).hit (pa % 128) n
  | none => false

/-- Whether a load of `n` bytes at `pa` hits in the L1 of core `k`. -/
def State.l1Hit (s : State) (k pa n : Nat) (ro : Bool) : Bool := s.hitAt 0 k pa n ro

/-- Whether both sectors of a line are valid in a cache, for a GEN or an RO access. -/
def State.wholeAt (s : State) (level unit line : Nat) (ro : Bool) : Bool :=
  match findLine (s.linesAt level unit) line with
  | some l => (ro || !l.ro) && l.s0.valid && l.s1.valid
  | none => false

/-- The bytes a load of a cache level reads. -/
def State.readSector (s : State) (level unit pa n : Nat) : Nat :=
  (s.sectorAt level unit (pa / 256) (pa / 128 % 2)).data.readLE (pa % 128) n

/-- A store into a sector of an allocated line: its bytes and its dirty words (R147). -/
def State.storeSector (s : State) (level unit pa n val region : Nat) : State :=
  let line := pa / 256
  let sec := pa / 128 % 2
  let x := s.sectorAt level unit line sec
  (s.setSectorAt level unit line sec
    { x with data := x.data.writeLE (pa % 128) n val, dirty := x.dirty ||| wordMask (pa % 128) n,
             sent := x.sent &&& ~~~ wordMask (pa % 128) n, region := region }).clearPoison (3 + level) unit pa n

/-- A cluster-cache sector that receives words past its L1s: REG names the core whose store passed its L1, or no unit after the
vector unit's, and the unit it named before is told (R304 to R306). -/
def State.claimCC (s : State) (cl line sec : Nat) (unit : Option Nat) : State :=
  let x := s.sectorAt 1 cl line sec
  let s := s.setSectorAt 1 cl line sec { x with reg := unit }
  match x.reg.filter (fun u => unit != some u) with
  | some u => s.noticeL1 u line sec
  | none => s

/-- The level a store to a cached page goes to: the L1, or the cluster cache where the page has CA 1 or the L1 set is fully pinned
(R149, R150). -/
def State.storeLevel (s : State) (k line ca : Nat) : Nat := if ca = 0 && s.canAlloc 0 k line then 0 else 1

/-- Whether a store must fetch its line first: a byte or halfword of a word that is neither valid nor dirty (R147). -/
def State.storeFetches (s : State) (k pa n ca : Nat) : Bool :=
  let level := s.storeLevel k (pa / 256) ca
  decide (n < 4) && !(s.sectorAt level (if level = 0 then k else k / 16) (pa / 256) (pa / 128 % 2)).hit (pa % 128) n

/-- A store of a core to a cached page (R147, R149, R150): into the L1, or through to the cluster cache. A narrow store fetches
first unless its word is there. -/
def State.cachedStore (s : State) (k pa n val ca region ctx : Nat) : State :=
  let line := pa / 256
  let cl := k / 16
  let fetch := s.storeFetches k pa n ca
  if s.storeLevel k line ca = 0 then
    let s := allocLine (belowL1 s cl line) k 0 k s line ctx false
    let s := if fetch then s.fillL1 k line ctx region false else s
    s.storeSector 0 k pa n val region
  else
    let s := allocLine (belowCC s cl line) cl 1 cl s line ctx false
    let s := if fetch then s.fillCC cl line ctx region false else s
    (s.storeSector 1 cl pa n val region).claimCC cl line (pa / 128 % 2) (some k)

/-! ### Reads and writes at the home piers -/

/-- Whether a doubleword meets a QWAIT condition (R323): 0 EQ, 1 NE, 2 LTU, 3 GEU, 4 LT, 5 GE. -/
def qwaitMet (cond : Nat) (x v : Word) : Bool :=
  match cond with
  | 0 => x == v
  | 1 => x != v
  | 2 => x.ult v
  | 3 => !x.ult v
  | 4 => x.slt v
  | _ => !x.slt v

/-- A waiter's packet turned into its reply, on the way back (R323). -/
def replyWait (now : Nat) (v : Word) (p : Packet) : Packet :=
  { p with body := .qwaitReply v, src := p.dst, dst := p.src, held := false, route := replyRoute .syn p.dst p.src, worm := [], left := 1,
           age := 0, after := now + 1 }

/-- After a write at the home pier, every waiter of a word it touched is tested again; those met get the value in
their reply packets (R323). -/
def State.retestWaits (s : State) (pa n : Nat) : State :=
  let hit := fun (w : QWaiter) => decide (w.pa < pa + n ∧ pa < w.pa + 8) &&
    qwaitMet w.cond (wordOf (s.mem.readLE w.pa 8)) w.v
  let done := s.qwaits.filter hit
  { s with
    qwaits := s.qwaits.filter (fun w => !hit w)
    packets := s.packets.map (fun p =>
      if done.any (fun w => w.pkt == p.id) then
        match p.body with
        | .qwait a _ _ => replyWait s.now (wordOf (s.mem.readLE a 8)) p
        | _ => p
      else p) }

/-- The registrants of the sectors that `n` bytes at `pa` touch are told, and the writer is registered (R305). -/
def State.takeSectors (s : State) (unit pa n : Nat) : State :=
  (List.range ((pa + n - 1) / 128 - pa / 128 + 1)).foldl (fun s i =>
    let key := pa / 128 + i
    let s' := { s with homeReg := Tab.set s.homeReg key unit }
    match Tab.find? s.homeReg key with
    | some u => if u = unit then s' else s'.noticePier u (key / 2) (key % 2)
    | none => s') s

/-- Bytes written at the home piers with the registration of a release at package scope (R305): what the hub, the
collective engine, SENDQ payloads and records do. -/
def State.homeWrite (s : State) (pa : Nat) (bs : List Byte) : State :=
  if bs.length = 0 then s
  else
    let s := s.takeSectors hubUnit pa bs.length
    let s := { s with mem := s.mem.writeBytes pa bs }
    let s := s.clearPoison 0 0 pa bs.length
    s.retestWaits pa bs.length

/-- Bytes written at the home pier by an access performed there (SYNC and CA 2 pages, R150). -/
def State.homeStore (s : State) (pa n val : Nat) : State :=
  let s := { s with mem := s.mem.writeLE pa n val }
  let s := s.clearPoison 0 0 pa n
  s.retestWaits pa n

/-- Bytes read at the home piers (R415): what an acquire at package scope would see there. -/
def State.homeRead (s : State) (pa n : Nat) : List Byte := s.mem.readBytes pa n

/-- The 64 KiB pages that `n` bytes at `va` touch, lowest first. -/
def pagesOf (va n : Nat) : List Nat :=
  (List.range ((va + n - 1) / 65536 - va / 65536 + 1)).map (fun i => va / 65536 + i)

/-- The first page of a range whose walk in a context does not allow an access of a kind: its first address in the
range, KIND, LEVEL and SIZE of R168; none when every page allows it. -/
def State.rangeFault (s : State) (ctx va n kind : Nat) : Option (Nat × Nat × Nat × Nat) :=
  (pagesOf va n).findSome? (fun pg =>
    let a := max va (65536 * pg)
    match s.walk ctx a with
    | .bad k l => some (a, k, l, 255)
    | .leaf e sh l => if s.allows e sh a kind then none
                      else some (a, 2, l, if sh = 16 then 0 else if sh = 21 then 1 else 2))

/-- The physical address of a virtual one in a context, 0 where nothing is mapped. -/
def State.paOf (s : State) (ctx va : Nat) : Nat :=
  match s.walk ctx va with
  | .leaf e sh _ => leafPa e sh va
  | .bad _ _ => 0

/-- Bytes of a context's GEN space read at the home piers, page by page. -/
def State.genRead (s : State) (ctx va : Nat) : Nat → List Byte
  | 0 => []
  | n + 1 => s.mem.byte (s.paOf ctx va) :: State.genRead s ctx (va + 1) n

/-- Bytes of a context's GEN space written at the home piers with the registration of a release at package scope,
page by page. -/
def State.genWrite (s : State) (ctx va : Nat) (bs : List Byte) : State :=
  (pagesOf va bs.length).foldl (fun s pg =>
    let lo := max va (65536 * pg)
    let hi := min (va + bs.length) (65536 * pg + 65536)
    s.homeWrite (s.paOf ctx lo) ((bs.drop (lo - va)).take (hi - lo))) s

end Sys2Proof.Machine
end

