-- ==== Sys2Proof/Machine/Float.lean ====
section
/-! DEFINITION. Number formats and exact arithmetic: IEEE and IEEE-like values as exact dyadic numbers, their
rounding (R109 to R113, R120 to R124), block-scaled elements (R112 to R117) and aligned plane blocks (R118). -/

namespace Sys2Proof.Machine

/-! ### Flags: bit 0 NX, 1 UF, 2 OF, 3 DZ, 4 NV (R121, R126) -/

def flagNX : Nat := 1
def flagUF : Nat := 2
def flagOF : Nat := 4
def flagDZ : Nat := 8
def flagNV : Nat := 16

/-- A floating format: widths of its exponent and fraction, its bias, and how its top exponent is used: 0 as IEEE,
1 as FP8E4M3 (no infinity; all ones is the only NaN), 2 as E3M5 (every code finite). -/
structure FFmt where
  ew : Nat
  fw : Nat
  bias : Nat
  top : Nat := 0
  deriving DecidableEq, Repr

def fp64 : FFmt := { ew := 11, fw := 52, bias := 1023 }
def fp32 : FFmt := { ew := 8, fw := 23, bias := 127 }
def fp16 : FFmt := { ew := 5, fw := 10, bias := 15 }
def bf16 : FFmt := { ew := 8, fw := 7, bias := 127 }
def fp8e4m3 : FFmt := { ew := 4, fw := 3, bias := 7, top := 1 }
def fp8e5m2 : FFmt := { ew := 5, fw := 2, bias := 15 }
def e3m5 : FFmt := { ew := 3, fw := 5, bias := 3, top := 2 }

/-- The format an FPU instruction's f3 selects (R42). -/
def fpuFmt (c : BitVec 2) : FFmt :=
  match c.toNat with
  | 0 => fp32
  | 1 => fp64
  | 2 => fp16
  | _ => bf16

/-- Bits of a value, its sign included (R109). -/
def FFmt.width (f : FFmt) : Nat := 1 + f.ew + f.fw

/-- The largest finite magnitude, as bits (R109, R111, R113). -/
def FFmt.maxBits (f : FFmt) : Nat :=
  match f.top with
  | 0 => (2 ^ f.ew - 1) * 2 ^ f.fw - 1
  | 1 => 2 ^ (f.ew + f.fw) - 2
  | _ => 2 ^ (f.ew + f.fw) - 1

/-- The canonical NaN (R110). -/
def FFmt.nan (f : FFmt) : Nat :=
  if f.top = 1 then 2 ^ (f.ew + f.fw) - 1 else (2 ^ f.ew - 1) * 2 ^ f.fw + 2 ^ (f.fw - 1)

/-- Infinity's magnitude. -/
def FFmt.inf (f : FFmt) : Nat := (2 ^ f.ew - 1) * 2 ^ f.fw

/-- A value: a NaN, an infinity, or (−1)^neg × m × 2^e, exactly. -/
inductive FVal where
  | nan (signalling : Bool)
  | inf (neg : Bool)
  | num (neg : Bool) (m : Nat) (e : Int)
  deriving DecidableEq, Repr

/-- The value that bits of a format name (R109, R111, R113). -/
def FFmt.unpack (f : FFmt) (x : Nat) : FVal :=
  let neg := f.top != 2 && x / 2 ^ (f.ew + f.fw) % 2 == 1
  let ex := x / 2 ^ f.fw % 2 ^ f.ew
  let fr := x % 2 ^ f.fw
  if ex = 0 then .num neg fr (1 - (f.bias : Int) - f.fw)
  else if f.top = 0 && ex = 2 ^ f.ew - 1 then
    if fr = 0 then .inf neg else .nan (fr / 2 ^ (f.fw - 1) == 0)
  else if f.top = 1 && ex = 2 ^ f.ew - 1 && fr = 2 ^ f.fw - 1 then .nan false
  else .num neg (2 ^ f.fw + fr) ((ex : Int) - f.bias - f.fw)

/-- How a rounding decides: a mode of R120 (1 RNE, 2 RTZ, 3 RDN, 4 RUP, 5 RNA), or a stochastic draw of 16 bits
(R124). -/
inductive Rnd where
  | mode (m : Nat)
  | sr (r : Nat)
  deriving DecidableEq, Repr

/-- Whether a magnitude between two neighbours goes to the higher: the fraction of the way is rem / 2^sh, and a
further nonzero part below it where `sticky` (R120, R124). -/
def goesUp (r : Rnd) (neg odd : Bool) (rem sh : Nat) (sticky : Bool) : Bool :=
  let half := 2 ^ sh
  let twice := 2 * rem
  let any := rem != 0 || sticky
  match r with
  | .sr d => decide (d < rem * 65536 / 2 ^ sh)
  | .mode 1 => decide (half < twice) || (twice == half && (sticky || odd))
  | .mode 3 => neg && any
  | .mode 4 => !neg && any
  | .mode 5 => decide (half ≤ twice) && any
  | .mode _ => false

/-- m × 2^e (with a further part below where `sticky`) as a multiple of 2^q, rounded: the multiple and whether it is
inexact. -/
def roundAt (r : Rnd) (neg : Bool) (m : Nat) (e q : Int) (sticky : Bool) : Nat × Bool :=
  if q ≤ e then (m * 2 ^ (e - q).toNat, sticky)
  else
    let sh := (q - e).toNat
    let lo := m / 2 ^ sh
    let rem := m % 2 ^ sh
    ((if goesUp r neg (lo % 2 == 1) rem sh sticky then lo + 1 else lo), rem != 0 || sticky)

/-- Sign and magnitude bits put together. -/
def FFmt.pack (f : FFmt) (neg : Bool) (mag : Nat) : Nat :=
  if neg && f.top != 2 then 2 ^ (f.ew + f.fw) + mag else mag

/-- An exact nonzero number rounded once to a format, with its flags (R120 to R122, R124): bits and flags. An inexact result
is tiny below the format's least normal number after rounding. DESIGN CHOICE (assumption 90): so for E3M5 too, whose least
normal number is 2^−2; R121 gives no bound for a set of its own. -/
def FFmt.round (f : FFmt) (r : Rnd) (neg : Bool) (m : Nat) (e : Int) (sticky : Bool) : Nat × Nat :=
  if m = 0 && !sticky then (f.pack neg 0, 0)
  else
    let top : Int := (Nat.log2 m : Int) + e
    let emin : Int := 1 - (f.bias : Int)
    let q := max top emin - f.fw
    let (n, inexact) := roundAt r neg m e q sticky
    let (n, q) := if 2 ^ (f.fw + 1) ≤ n then (n / 2, q + 1) else (n, q)
    let mag := if 2 ^ f.fw ≤ n then ((q + f.fw + f.bias).toNat) * 2 ^ f.fw + (n - 2 ^ f.fw) else n
    if f.maxBits < mag then
      let big := f.pack neg f.maxBits
      let inf := f.pack neg f.inf
      let res := if f.top != 0 then big
        else match r with
          | .sr _ => big
          | .mode 2 => big
          | .mode 3 => if neg then inf else big
          | .mode 4 => if neg then big else inf
          | .mode _ => inf
      (res, flagOF + flagNX)
    else
      let tiny := decide (top < emin) &&
        !(top == emin - 1 && decide (2 ^ (f.fw + 1) ≤ (roundAt r neg m e (top - f.fw) sticky).1))
      (f.pack neg mag, (if inexact then flagNX else 0) + (if inexact && tiny then flagUF else 0))

/-- A value converted to a format (R122): bits and flags. -/
def FFmt.convert (f : FFmt) (r : Rnd) (v : FVal) : Nat × Nat :=
  match v with
  | .nan s => if f.top = 2 then (0, flagNV) else (f.nan, if s then flagNV else 0)
  | .inf neg =>
    match f.top with
    | 0 => (f.pack neg f.inf, 0)
    | 1 => (f.pack neg f.maxBits, flagOF + flagNX)
    | _ => if neg then (0, flagNV) else (f.maxBits, flagOF + flagNX)
  | .num neg m e =>
    if f.top = 2 && neg then (0, if m = 0 then 0 else flagNV)
    else f.round r neg m e false

/-- Whether a format holds a number exactly, with nothing lost. -/
def FFmt.holds (f : FFmt) (m : Nat) (e : Int) : Bool := (f.round (.mode 2) false m e false).2 == 0

/-! ### Arithmetic (R131 to R134) -/

/-- A signed multiple of 2^k. -/
def signed (neg : Bool) (m : Nat) : Int := if neg then -(m : Int) else m

/-- The exact sum of two numbers; a zero sum of opposite signs is +0, or −0 under RDN (R131). -/
def addNum (r : Rnd) (n1 : Bool) (m1 : Nat) (e1 : Int) (n2 : Bool) (m2 : Nat) (e2 : Int) : FVal :=
  let e := min e1 e2
  let x := signed n1 (m1 * 2 ^ (e1 - e).toNat) + signed n2 (m2 * 2 ^ (e2 - e).toNat)
  if x = 0 then .num (if n1 = n2 then n1 else r == .mode 3) 0 0
  else .num (decide (x < 0)) x.natAbs e

/-- The negation of a value. -/
def FVal.neg : FVal → FVal
  | .nan s => .nan s
  | .inf n => .inf (!n)
  | .num n m e => .num (!n) m e

/-- Whether a value is a signalling NaN. -/
def FVal.isSNaN : FVal → Bool
  | .nan s => s
  | _ => false

/-- Whether a value is a NaN. -/
def FVal.isNaN : FVal → Bool
  | .nan _ => true
  | _ => false

/-- NV where some input is a signalling NaN. -/
def snanFlag (vs : List FVal) : Nat := if vs.any FVal.isSNaN then flagNV else 0

/-- An exact result rounded to its format. -/
def FFmt.result (f : FFmt) (r : Rnd) (v : FVal) : Nat × Nat :=
  match v with
  | .nan _ => (f.nan, 0)
  | .inf n => (f.pack n f.inf, 0)
  | .num n m e => f.round r n m e false

/-- a + b (R131). -/
def fAdd (f : FFmt) (r : Rnd) (a b : FVal) : Nat × Nat :=
  match a, b with
  | .num n1 m1 e1, .num n2 m2 e2 => f.result r (addNum r n1 m1 e1 n2 m2 e2)
  | .inf x, .inf y => if x = y then f.result r (.inf x) else (f.nan, flagNV)
  | .inf x, .num _ _ _ => f.result r (.inf x)
  | .num _ _ _, .inf y => f.result r (.inf y)
  | _, _ => (f.nan, snanFlag [a, b])

/-- a × b, exactly (R131): the product, and NV for 0 × ∞. -/
def mulExact (a b : FVal) : FVal × Nat :=
  match a, b with
  | .num n1 m1 e1, .num n2 m2 e2 => (.num (n1 != n2) (m1 * m2) (e1 + e2), 0)
  | .inf x, .inf y => (.inf (x != y), 0)
  | .inf x, .num n m _ => if m = 0 then (.nan false, flagNV) else (.inf (x != n), 0)
  | .num n m _, .inf x => if m = 0 then (.nan false, flagNV) else (.inf (x != n), 0)
  | _, _ => (.nan false, snanFlag [a, b])

/-- a × b (R131). -/
def fMul (f : FFmt) (r : Rnd) (a b : FVal) : Nat × Nat :=
  let (p, fl) := mulExact a b
  let (x, fl') := f.result r p
  (x, fl ||| fl')

/-- a × b + c, rounded once (R131). 0 × ∞ is invalid whatever the addend. -/
def fFma (f : FFmt) (r : Rnd) (a b c : FVal) : Nat × Nat :=
  let (p, fl) := mulExact a b
  let fl := fl ||| snanFlag [c]
  match p, c with
  | .nan _, _ => (f.nan, fl)
  | _, .nan _ => (f.nan, fl)
  | .inf x, .inf y => if x = y then (f.pack x f.inf, fl) else (f.nan, flagNV)
  | .inf x, .num _ _ _ => (f.pack x f.inf, fl)
  | .num _ _ _, .inf y => (f.pack y f.inf, fl)
  | .num n1 m1 e1, .num n2 m2 e2 =>
    let (x, fl') := f.result r (addNum r n1 m1 e1 n2 m2 e2)
    (x, fl ||| fl')

/-- a / b (R131). -/
def fDiv (f : FFmt) (r : Rnd) (a b : FVal) : Nat × Nat :=
  match a, b with
  | .num n1 m1 e1, .num n2 m2 e2 =>
    if m2 = 0 then
      if m1 = 0 then (f.nan, flagNV) else (f.pack (n1 != n2) f.inf, flagDZ)
    else
      let k := f.fw + 5 + Nat.log2 m2
      let q := m1 * 2 ^ k / m2
      f.round r (n1 != n2) q (e1 - e2 - k) (m1 * 2 ^ k % m2 != 0)
  | .inf _, .inf _ => (f.nan, flagNV)
  | .inf x, .num n _ _ => (f.pack (x != n) f.inf, 0)
  | .num n _ _, .inf y => (f.pack (n != y) 0, 0)
  | _, _ => (f.nan, snanFlag [a, b])

/-- The integer square root, bit by bit from bit `n - 1` down. -/
def sqrtBits (x : Nat) : Nat → Nat → Nat
  | 0, r => r
  | n + 1, r => sqrtBits x n (if (r + 2 ^ n) * (r + 2 ^ n) ≤ x then r + 2 ^ n else r)

/-- √a (R131). -/
def fSqrt (f : FFmt) (r : Rnd) (a : FVal) : Nat × Nat :=
  match a with
  | .nan s => (f.nan, if s then flagNV else 0)
  | .inf n => if n then (f.nan, flagNV) else (f.inf, 0)
  | .num n m e =>
    if m = 0 then (f.pack n 0, 0)
    else if n then (f.nan, flagNV)
    else
      -- an even exponent, and radicand bits enough for fw + 3 result bits
      let k := 2 * (f.fw + 4) + (if (e % 2 = 0) then 0 else 1)
      let x := m * 2 ^ k
      let w := Nat.log2 x / 2 + 1
      let root := sqrtBits x w 0
      f.round r false root ((e - k) / 2) (root * root != x)

/-- The order of two values, none where one is a NaN; −0 equals +0 (R134). -/
def fCmp (a b : FVal) : Option Ordering :=
  match a, b with
  | .nan _, _ => none
  | _, .nan _ => none
  | .inf x, .inf y => some (if x = y then .eq else if x then .lt else .gt)
  | .inf x, .num _ _ _ => some (if x then .lt else .gt)
  | .num _ _ _, .inf y => some (if y then .gt else .lt)
  | .num n1 m1 e1, .num n2 m2 e2 =>
    let e := min e1 e2
    some (compare (signed n1 (m1 * 2 ^ (e1 - e).toNat)) (signed n2 (m2 * 2 ^ (e2 - e).toNat)))

/-- The sign bit of a value's bits. -/
def FFmt.signBit (f : FFmt) (x : Nat) : Bool := x / 2 ^ (f.ew + f.fw) % 2 == 1

/-- The smaller (or larger) of two values, by R132: bits and flags. -/
def fMinMax (f : FFmt) (large : Bool) (x y : Nat) : Nat × Nat :=
  let a := f.unpack x
  let b := f.unpack y
  let fl := snanFlag [a, b]
  match a.isNaN, b.isNaN with
  | true, true => (f.nan, fl)
  | true, false => (y, fl)
  | false, true => (x, fl)
  | false, false =>
    let less := match fCmp a b with
      | some .lt => true
      | some .eq => f.signBit x && !f.signBit y
      | _ => false
    ((if less != large then x else y), fl)

/-- FCLS: the class mask of R134. -/
def fClass (f : FFmt) (x : Nat) : Nat :=
  let neg := f.signBit x
  match f.unpack x with
  | .nan s => if s then 2 ^ 8 else 2 ^ 9
  | .inf n => if n then 2 ^ 0 else 2 ^ 7
  | .num _ m _ =>
    if m = 0 then (if neg then 2 ^ 3 else 2 ^ 4)
    else if m < 2 ^ f.fw then (if neg then 2 ^ 2 else 2 ^ 5)
    else (if neg then 2 ^ 1 else 2 ^ 6)

/-- A comparison's result and flags (R134): `which` 0 equal, 1 less, 2 less or equal. -/
def fCompare (f : FFmt) (which x y : Nat) : Bool × Nat :=
  let a := f.unpack x
  let b := f.unpack y
  match fCmp a b with
  | none => (false, if which = 0 then snanFlag [a, b] else flagNV)
  | some o =>
    ((match which with
      | 0 => o == .eq
      | 1 => o == .lt
      | _ => o != .gt), 0)

/-! ### Integers (R135) -/

/-- A number rounded to an integer by a mode: the integer, and whether it is inexact. -/
def roundInt (r : Rnd) (neg : Bool) (m : Nat) (e : Int) : Int × Bool :=
  let (n, inexact) := roundAt r neg m e 0 false
  (signed neg n, inexact)

/-- A value converted to an integer in [lo, hi] (R122, R135). -/
def toInt (r : Rnd) (lo hi : Int) (v : FVal) : Int × Nat :=
  match v with
  | .nan _ => (0, flagNV)
  | .inf n => ((if n then lo else hi), flagNV)
  | .num neg m e =>
    let (x, inexact) := roundInt r neg m e
    if x < lo then (lo, flagNV) else if hi < x then (hi, flagNV) else (x, if inexact then flagNX else 0)

/-- An integer as a value. -/
def ofInt (x : Int) : FVal := .num (decide (x < 0)) x.natAbs 0

/-! ### The stochastic state (R123) -/

/-- One Galois step of a 32-bit state. -/
def galois (s : BitVec 32) : BitVec 32 :=
  let h := s >>> 1
  if s.getLsbD 0 then h ^^^ 0x80200003 else h

/-! ### Block-scaled formats (R112 to R117) -/

/-- The element sets: 0 E2M1, 1 the integers −7 to 7, 2 the integers −1 to 1; magnitudes in halves, ascending. -/
def elemSet (k : Nat) : List Nat :=
  match k with
  | 0 => [0, 1, 2, 3, 4, 6, 8, 12]
  | 1 => [0, 2, 4, 6, 8, 10, 12, 14]
  | _ => [0, 2]

/-- emax of an element set (R117), in halves. -/
def elemMax (k : Nat) : Nat := ((elemSet k).getLast?).getD 0

/-- The element code of a sign and an index into its set: E2M1 and I4B nibbles, T1B codes. -/
def elemCode (k : Nat) (neg : Bool) (i : Nat) : Nat :=
  if i = 0 then 0
  else if k = 2 then (if neg then 3 else 1)
  else (if neg then 8 else 0) + i

/-- The magnitude in halves, and the sign, of an element code; −0 of E2M1 keeps its sign (R115, R116). -/
def elemValue (k c : Nat) : Bool × Nat :=
  match k with
  | 0 => (decide (8 ≤ c % 16), (elemSet 0).getD (c % 8) 0)
  | 1 => (decide (8 ≤ c % 16) && c % 8 != 0, 2 * (c % 8))
  | _ => (c % 4 == 3, if c % 4 = 1 ∨ c % 4 = 3 then 2 else 0)

/-- Where num / den halves (den > 0) lies in a set: the index of the magnitude at or below it, and whether it is
that magnitude exactly. -/
def bracket (set : List Nat) (num den : Nat) : Nat × Bool :=
  let i := (set.filter (fun h => decide (h * den ≤ num))).length - 1
  (i, (set.getD i 0) * den == num)

/-- A quotient rounded to an element set: the index in the set and the flags (R117, R120, R124). "Even" means an
even integer, or mantissa bit 0 for E2M1. DEDUCED (assumption 90): an inexact element raises NX and never UF, as the
worked run of R117 has it. -/
def roundElem (k : Nat) (r : Rnd) (neg : Bool) (num den : Nat) : Nat × Nat :=
  let set := elemSet k
  let last := set.length - 1
  let (i, exact) := bracket set num den
  if exact then (i, 0)
  else if i = last then (last, flagOF + flagNX)
  else
    let lo := set.getD i 0
    let hi := set.getD (i + 1) 0
    let part := num - lo * den
    let whole := (hi - lo) * den
    let odd := i % 2 == 1
    let up := match r with
      | .sr d => decide (d < part * 65536 / whole)
      | .mode 1 => decide (whole < 2 * part) || (2 * part == whole && odd)
      | .mode 3 => neg
      | .mode 4 => !neg
      | .mode 5 => decide (whole ≤ 2 * part)
      | .mode _ => false
    ((if up then i + 1 else i), flagNX)

/-- A scale byte's value as a multiple of 2^−7 (R113). -/
def scaleUnits (b : Nat) : Nat := if b / 32 % 8 = 0 then b % 32 else (32 + b % 32) * 2 ^ (b / 32 % 8 - 1)

/-- The smallest scale byte s with s × emax ≥ amax, for amax = m × 2^e (R117), or 256 where none is. -/
def leastScale (k m : Nat) (e : Int) : Nat :=
  -- s × 2^−7 × emax/2 ≥ m × 2^e
  let ok := fun b =>
    if 0 ≤ e then decide (m * 2 ^ (e.toNat) * 256 ≤ scaleUnits b * elemMax k)
    else decide (m * 256 ≤ scaleUnits b * elemMax k * 2 ^ ((-e).toNat))
  ((List.range 256).find? ok).getD 256

/-- The larger of two magnitudes. -/
def maxMag (a b : Nat × Int) : Nat × Int :=
  match fCmp (.num false a.1 a.2) (.num false b.1 b.2) with
  | some .lt => b
  | _ => a

/-- A block encoded (R117): its scale byte, its element codes, its flags and the stochastic state after; an absent
element is none. `sr` rounds stochastically, else `rm` is the mode. -/
def encodeBlock (k rm : Nat) (sr : Bool) (seed : BitVec 32) (xs : List (Option FVal)) :
    Nat × List Nat × Nat × BitVec 32 :=
  let amax := xs.foldl (fun a x => match x with
    | some (.num _ m e) => if m = 0 then a else maxMag a (m, e)
    | _ => a) (0, (0 : Int))
  let anyInf := xs.any (fun x => match x with | some (.inf _) => true | _ => false)
  let (s, fl) :=
    if amax.1 = 0 then (if anyInf then (255, 0) else (0, 0))
    else let b := leastScale k amax.1 amax.2
         if b = 256 then (255, flagOF) else (b, 0)
  let u := scaleUnits s
  xs.foldl (fun (acc : Nat × List Nat × Nat × BitVec 32) x =>
    let (s, cs, fl, seed) := acc
    match x with
    | none => (s, cs ++ [0], fl, seed)
    | some v =>
      let seed := if sr then galois seed else seed
      let r := if sr then Rnd.sr (seed.toNat / 65536) else Rnd.mode rm
      match v with
      | .nan _ => (s, cs ++ [0], fl ||| flagNV, seed)
      | .inf n => (s, cs ++ [elemCode k n ((elemSet k).length - 1)], fl ||| flagOF ||| flagNX, seed)
      | .num n m e =>
        if u = 0 ∨ m = 0 then (s, cs ++ [0], fl, seed)
        else
          -- |x| / s in halves: m × 2^e × 2 × 2^7 / u
          let num := m * 256 * (if 0 ≤ e then 2 ^ e.toNat else 1)
          let den := u * (if 0 ≤ e then 1 else 2 ^ (-e).toNat)
          let (i, f') := roundElem k r n num den
          (s, cs ++ [elemCode k n i], fl ||| f', seed))
    (s, [], fl, seed)

/-- The value of an element code under a scale byte (R115, R116). DESIGN CHOICE (assumption 89): a nonzero negative I4B or T1B
element under a scale byte of 0 reads as −0; R116 gives that zero no sign. -/
def decodeElem (k c scale : Nat) : FVal :=
  let (n, h) := elemValue k c
  .num n (h * scaleUnits scale) (-8)

/-! ### Aligned plane blocks (R118) -/

/-- floor(log2 v) of a nonzero number. -/
def topExp (m : Nat) (e : Int) : Int := (Nat.log2 m : Int) + e

/-- q of R118 for a magnitude: rounded to an integer RNE at the block's exponent. -/
def apbQ (P : Nat) (x : Int) (m : Nat) (e : Int) : Nat × Bool := roundAt (.mode 1) false m e (x - P + 1) false

/-- A block aligned (R118): its exponent, the sign and magnitude of each element, flags, and how many elements were
not finite. -/
def alignBlock (P : Nat) (xs : List FVal) : Int × List (Bool × Nat) × Nat × Nat :=
  let bad := xs.filter (fun v => match v with | .num _ _ _ => false | _ => true)
  let nz := xs.filterMap (fun v => match v with | .num _ m e => if m = 0 then none else some (m, e) | _ => none)
  let nfin := bad.length
  let nv := if nfin = 0 then 0 else flagNV
  if nz.isEmpty then (-128, xs.map (fun _ => (false, 0)), nv, nfin)
  else
    let x0 := max (nz.foldl (fun a p => max a (topExp p.1 p.2)) (-100000)) (-128)
    let (x1, of1) := if 127 < x0 then ((127 : Int), true) else (x0, false)
    let tooBig := fun (x : Int) => nz.any (fun p => decide (2 ^ P ≤ (apbQ P x p.1 p.2).1))
    let x2 := if !of1 && tooBig x1 && decide (x1 < 127) then x1 + 1 else x1
    let of2 := of1 || (x2 == 127 && tooBig x2)
    let qs := xs.map (fun v => match v with
      | .num n m e =>
        let q := min (apbQ P x2 m e).1 (2 ^ P - 1)
        (n && q != 0, q)
      | _ => (false, 0))
    let nx := nz.any (fun p => (apbQ P x2 p.1 p.2).2)
    (x2, qs, nv ||| (if of2 then flagOF else 0) ||| (if nx then flagNX else 0), nfin)

end Sys2Proof.Machine
end

