-- ==== Sys2Proof/Machine/Net.lean ====
section
/-! DEFINITION. The Trestle: the packets on its networks, their flits in the buffers of the links, and the arbitration of a switch
output (R270 to R280). -/

namespace Sys2Proof.Machine

/-- The port of a pier slice for a core: port i of slice 16q + j, i the cluster of the core's quarter (R271). -/
def slicePort (core slice : Nat) : Nat := slice / 64 * 256 + slice % 64 / 16 * 64 + 4 * (slice % 16) + core / 16 % 4

/-- The port of the pier slice that serves an address on a die for a core (R152, R271). -/
def pierPort (s : State) (core die pa : Nat) : Nat := slicePort core (s.pierSlice core die pa)

/-- The pier slice, 0 to 63 of its die, of a pier port. -/
def sliceOfPort (port : Nat) : Nat := port / 64 % 4 * 16 + port % 64 / 4

/-- The bytes of payload a body carries, beyond its header. -/
def Body.payload : Body → Nat
  | .regis _ _ _ _ _ _ _ => 128
  | .regisReply .. => 128
  | .fetch .. => 256
  | .msg _ e _ _ => 8 * e.words.length
  | .toHome _ e => 8 * e.words.length
  | .rankFetch _ e => 8 * e.words.length
  | .msgReturn _ e _ => 8 * e.words.length
  | .msgRefuse e _ _ => 8 * e.words.length
  | .sendqData _ _ _ _ bytes _ => bytes.length
  | .hubMsg _ words => 8 * words.length
  | .migrant m _ _ => 64 + 16 * m.thr.loops.length + 8 * ((List.range 32).filter (fun i => i != 0 && bitOf m.thr.csr.migmask i)).length
  | .collResult _ _ bytes => bytes.length
  | .engine _ n _ => n
  | _ => 8

/-- The flits of a packet of a number of payload bytes: 32 bytes each, at least one and at most nine (R274). -/
def flitsOf (bytes : Nat) : Nat := max 1 (min 9 ((bytes + 31) / 32))

/-- The flits of a packet: a request for a line carries no line, its reply does (R270, R274). -/
def Packet.size (p : Packet) : Nat :=
  match p.body, p.net with
  | .fetch .., .req => 1
  | .engine _ _ w, net => if w == (net == .rsp) then 1 else flitsOf p.body.payload
  | .regis _ _ _ _ m _ _, _ => flitsOf (4 * ((List.range 32).filter (fun i => m.getLsbD i)).length)
  | b, _ => flitsOf b.payload

/-- A packet on a way: its flits stand before the first switch, behind everything sent before it (R275). It does not move in the
F-cycle in which it is sent. -/
def Packet.set (p : Packet) (stamp after : Nat) (route : List (Nat × Nat)) : Packet :=
  let n := p.size
  { p with stamp := stamp, route := route, worm := [], flits := n, left := if route.isEmpty then 0 else n, after := max p.after after }

/-- A packet put on its network: its number, its route, and its place behind everything sent before it (R275). -/
def State.send (s : State) (p : Packet) : State :=
  let id := s.nextId
  let q : Packet := { p with id := id, spkg := s.pkg, dpkg := if p.dpkg = 0 then s.pkg else p.dpkg }
  { s with nextId := id + 1, packets := s.packets ++ [q.set id (s.now + 1) (routeOf p.net p.src p.dst)] }

/-- A packet by its number. -/
def State.packet? (s : State) (id : Nat) : Option Packet := s.packets.find? (fun p => p.id == id)

/-- A packet of a number changed. -/
def State.setPacket (s : State) (p : Packet) : State :=
  { s with packets := s.packets.map (fun q => if q.id == p.id then p else q) }

/-- A packet gone. -/
def State.dropPacket (s : State) (id : Nat) : State := { s with packets := s.packets.filter (fun p => p.id != id) }

/-- A packet already under way sent on from a port to another, as it stands (R285, R301). -/
def State.resend (s : State) (p : Packet) (net : Net) (src dst : Nat) (body : Body) : State :=
  let q : Packet := { p with net := net, src := src, dst := dst, age := 0, held := false, waiting := false, body := body, after := 0,
                             due := none }
  { (s.setPacket (q.set s.nextId (s.now + 1) (routeOf net src dst))) with nextId := s.nextId + 1 }

/-- A packet answered: it goes back where it came from with another body (R275). -/
def State.reply (s : State) (p : Packet) (net : Net) (body : Body) : State :=
  let q : Packet := { p with net := net, src := p.dst, dst := p.src, age := 0, held := false, body := body, after := 0, due := none }
  { (s.setPacket (q.set s.nextId (s.now + 1) (replyRoute net p.dst p.src))) with nextId := s.nextId + 1 }

/-- What travels on MSG, or loops back in a core's interface instead (R270, R273). -/
def Body.onMsg : Body → Bool
  | .msg .. | .msgReturn .. | .toHome .. | .rankFetch .. | .msgAck .. | .msgRefuse .. | .sendqReply .. | .sendqData .. => true
  | .compFill .. | .hubMsg .. | .entryWrite .. | .depart .. | .token .. | .tokenBack .. | .arrive .. | .migrant .. | .rankAsk .. | .rankTold .. => true
  | _ => false

/-- Whether two packets keep their order on one network, or in the loop of one core's interface (R273, R275). -/
def Packet.sameLane (p q : Packet) : Bool :=
  p.net == q.net && p.src == q.src && p.dst == q.dst && (p.net != .local || (p.body.onMsg && q.body.onMsg))

/-- The core whose access a packet is: its owner's, or the one it started from. -/
def Packet.core (p : Packet) : Nat :=
  match p.owner with
  | some (.slot k _) => k
  | _ => if p.net == .rsp then p.dst else p.src

/-- Whether all flits of a packet have reached its port (R274). -/
def Packet.whole (p : Packet) : Bool := p.route.isEmpty && p.worm.isEmpty && p.left == 0

/-- Whether a packet has reached its port and is the next there from its source on its network (R275). -/
def State.ready (s : State) (p : Packet) : Bool :=
  p.whole && !p.held && !p.waiting && decide (p.after ≤ s.now) && p.due.isNone &&
    !s.packets.any (fun q => q.sameLane p && !q.held && !q.waiting
        && decide (q.stamp < p.stamp) && q.due.isNone && decide (q.after ≤ s.now))

/-- A packet refused at its destination: it waits at its sender, for 64 × 2^min(k − 1, 5) F-cycles after its k-th
refusal (R288). -/
def State.refuse (s : State) (p : Packet) : State :=
  s.setPacket { p with tries := p.tries + 1, waiting := true, route := [], worm := [], left := 0,
                       after := s.now + 64 * 2 ^ Nat.min p.tries 5 }

/-- The packet of a number, where it has reached its port. -/
def State.arrived? (s : State) (id : Nat) : Option Packet :=
  match s.packet? id with
  | some p => if s.ready p then some p else none
  | none => none

/-! ### Arbitration (R276 to R280) -/

/-- The slot procedure of R278: the class of each of `n` calendar slots, from the weights. -/
def calendar (w : List Nat) : Nat → List Int → List Nat
  | 0, _ => []
  | n + 1, cred =>
    let cred := (cred.zip w).map (fun p => p.1 + (p.2 : Int))
    let best := (List.range 4).foldl (fun b c => if (cred.getD c 0) > (cred.getD b 0) then c else b) 0
    best :: calendar w n (cred.zipIdx.map (fun p => if p.2 = best then p.1 - 16 else p.1))

/-- The four 4-bit weights of PRT_TRCAL or PRT_LWGT (R279, R341). -/
def weights (w : Word) : List Nat := [bits w 3 0, bits w 7 4, bits w 11 8, bits w 15 12]

/-- The sixteen slots of a calendar. -/
def slotsOf (w : Word) : List Nat := calendar (weights w) 16 [0, 0, 0, 0]

/-- The output in front of whose next switch a packet's head stands; none before the network (R273). -/
def Packet.link (p : Packet) : Option Nat := p.worm.head?.map (·.1)

/-- Whether flits of a worm that has gone on stand before a packet's head in its buffer, or at its source (R274, R275). -/
def Packet.bars (q p : Packet) : Bool :=
  match p.link with
  | some l => q.worm.tail.any (fun x => x.1 == l && x.2 != 0)
  | none => q.net == p.net && q.src == p.src && !q.worm.isEmpty && q.left != 0

/-- The head packets that want an output: for each input, the packet that joined its buffer first, if it wants this
output (R275, R277). The buffer of an input serves both outputs of its switch. -/
def State.heads (s : State) (out : Nat) : List (Nat × Packet) :=
  let at_ := s.packets.filterMap (fun p =>
    match p.route with
    | (o, i) :: _ => if outSwitch o = outSwitch out && decide (p.after ≤ s.now) then some (i, o, p) else none
    | [] => none)
  (at_.filter (fun x => x.2.1 == out && !at_.any (fun y => y.1 == x.1 && decide (y.2.2.stamp < x.2.2.stamp))
    && !s.packets.any (fun q => q.bars x.2.2))).map (fun x => (x.1, x.2.2))

/-- Whether flits of a packet are still to pass an output that its head has won: it passes nothing else until then (R274). -/
def Packet.passing (p : Packet) (o : Nat) : Bool :=
  match p.worm.dropWhile (fun x => x.1 != o) with
  | [] => false
  | _ :: rest => p.left != 0 || rest.any (fun x => x.2 != 0)

/-- Whether an output can pass a head flit in this F-cycle: it holds no worm, has granted nothing yet, and the buffer behind it had a
free entry at the start of the F-cycle (R273, R274). -/
def State.outFree (s : State) (o : Nat) : Bool :=
  let x : SwitchOut := Tab.get {} s.switches o
  decide (x.busy ≤ s.now) && decide (x.used < 2) && !s.packets.any (fun p => p.passing o)

/-- Whether two packets combine: AMOADDs of one SYNC address, width, scope and ordering (R280). -/
def combines (p q : Packet) : Bool :=
  match p.body, q.body with
  | .atomic 0 _ _ n _ _ (some a) sc o, .atomic 0 _ _ n' _ _ (some a') sc' o' =>
    p.net == .syn && q.net == .syn && a.sync && a'.sync && a.pa == a'.pa && n == n' && sc == sc' && o == o'
  | _, _ => false

/-- The operand of an atomic packet. -/
def atomicOperand (p : Packet) : Nat :=
  match p.body with
  | .atomic _ _ _ _ v _ _ _ _ => v
  | _ => 0

/-- An atomic packet with its operand replaced. -/
def withOperand (p : Packet) (v : Nat) : Packet :=
  match p.body with
  | .atomic fn d ptr n _ c a sc o => { p with body := .atomic fn d ptr n (v % 2 ^ (8 * n)) c a sc o }
  | _ => p

/-- The weights that rule a switch output: PRT_TRCAL of the partition in whose quarter-die the output is, or into whose
quarter-die it leads; the default for gateways and the hub (R279). -/
def State.calendarOf (s : State) (out : Nat) : List Nat :=
  match if outStage out = 7 ∨ outStage out = 8 then none else s.partOfQuarter (outQuarter out) with
  | some p => slotsOf (s.part p).trcal
  | none => slotsOf 0x1348

/-- The head that wins an output, and the input that lost a tie decided by the toggle, if one did (R277, R278). -/
def pickHead (x : SwitchOut) (slots : List Nat) (hs : List (Nat × Packet)) : Option ((Nat × Packet) × Option Nat) :=
  let old := hs.filter (fun h => h.2.age == 63)
  let byTie := fun (l : List (Nat × Packet)) =>
    match l with
    | [] => none
    | [h] => some (h, none)
    | h :: _ =>
      let w := (l.find? (fun p => p.1 == x.toggle)).getD h
      some (w, (l.find? (fun p => p.1 != w.1)).map (·.1))
  if !old.isEmpty then byTie old
  else
    let c := slots.getD x.ptr 0
    let cls := if hs.any (fun h => h.2.cls == c) then c
               else (hs.map (fun h => h.2.cls)).foldl min 3
    byTie (hs.filter (fun h => h.2.cls == cls))

/-- A packet past an output: its head flit is in the buffer behind it, and its AGE is 0 (R273, R277). -/
def advance (s : State) (out : Nat) (p : Packet) : Packet :=
  { p with route := p.route.tail, age := 0, stamp := s.nextId, after := s.now + 1,
           worm := (out, 1) :: (match p.worm with | (l, c) :: rest => (l, c - 1) :: rest | [] => [])
           left := if p.worm.isEmpty then p.left - 1 else p.left }

/-- A switch output that has granted (R278). -/
def SwitchOut.granted (x : SwitchOut) (now : Nat) : SwitchOut := { x with ptr := (x.ptr + 1) % 16, busy := now + 1 }

/-- What a reply that splits at a switch brings to the request combined there: the old value with `a0` added, modulo the width, or
the word that the home pier poisoned (R280, R410). -/
def splitBody (reply : Body) (q : Packet) (a0 : Nat) : Body :=
  match reply, q.body with
  | .load _ _ _ _ _ _ (some v), .atomic _ d ptr n _ _ _ _ _ =>
    .load d ptr n true none false (some (extend true n ((v.toNat + a0) % 2 ^ (8 * n))))
  | .poison _, .atomic _ _ ptr _ _ _ _ _ _ => .poison ptr
  | _, b => b

/-- The request that a switch held, answered from there: it goes back the rest of its own way (R280). -/
def State.splitOff (s : State) (sw : Nat) (reply : Packet) (part : Nat × Nat × Nat) : State :=
  match s.packet? part.1 with
  | some q =>
    let way := (backRoute (routeOf .syn q.src q.dst)).dropWhile (fun x => (x.1 - backBase) / 1024 != sw)
    let r : Packet := { q with src := q.dst, dst := q.src, age := 0, held := false, body := splitBody reply.body q part.2.1, after := 0 }
    { (s.setPacket (r.set s.nextId (s.now + 1) way)) with nextId := s.nextId + 1 }
  | none => s

/-- A reply at a switch of the reverse path splits off what was combined there, and the entries of the split table come free
(R280). -/
def State.splitAt (s : State) (out : Nat) (p : Packet) : State :=
  let sw := (out - backBase) / 1024
  if out < backBase then s
  else
    match p.parts.filter (fun r => r.2.2 == sw) with
    | [] => s
    | here =>
      let x : SwitchOut := Tab.get {} s.switches sw
      let s := { s with switches := Tab.set s.switches sw { x with split := x.split - here.length } }
      here.foldl (fun s r => s.splitOff sw p r) (s.setPacket { p with parts := p.parts.filter (fun r => r.2.2 != sw) })

/-- Two AMOADDs combined as a switch grants them, and an entry of its split table taken (R280): input 0's request is performed
immediately before input 1's. -/
def State.combine (s : State) (out : Nat) (p q : Packet) : State :=
  let sw := outSwitch out
  let a0 := atomicOperand p
  let m := { withOperand p (a0 + atomicOperand q) with parts := p.parts ++ [(q.id, a0, sw)] }
  let s1 := s.setPacket { advance s out m with age := max p.age q.age }
  let s2 := s1.setPacket { q with held := true, route := [], worm := [], left := 0 }
  let table : SwitchOut := Tab.get {} s.switches sw
  let s3 := { s2 with nextId := s.nextId + 1, switches := Tab.set s.switches sw { table with split := table.split + 1 } }
  let x : SwitchOut := Tab.get {} s3.switches out
  { s3 with switches := Tab.set s3.switches out (x.granted s.now) }

/-- The pair of head packets that a switch output combines, input 0's first (R280). -/
def combinePair (hs : List (Nat × Packet)) (room : Bool) : Option (Packet × Packet) :=
  match hs with
  | [a, b] => if combines a.2 b.2 && room then some (if a.1 ≤ b.1 then (a.2, b.2) else (b.2, a.2)) else none
  | _ => none

/-- The grant of a free switch output to a head packet (R277, R278), combining two AMOADDs where R280 allows. -/
def State.grant (s : State) (out : Nat) : State :=
  let x : SwitchOut := Tab.get {} s.switches out
  let table : SwitchOut := Tab.get {} s.switches (outSwitch out)
  let hs := s.heads out
  if !s.outFree out then s
  else
    match combinePair hs (decide (table.split < 2)) with
    | some (p, q) => s.combine out p q
    | none =>
      match pickHead x (s.calendarOf out) hs with
      | some (h, tie) =>
        let p := advance s out h.2
        { (s.setPacket p) with
          nextId := s.nextId + 1
          switches := Tab.set s.switches out { x.granted s.now with toggle := tie.getD x.toggle } }.splitAt out p
      | none => s

/-- An F-cycle of waiting: AGE of every packet at the head of its input rises by 1, to at most 63 (R277). -/
def State.agePackets (s : State) : State :=
  { s with packets := s.packets.map (fun p =>
      match p.route with
      | (o, i) :: _ =>
        if decide (p.after ≤ s.now) && (s.heads o).any (fun h => h.1 == i && h.2.id == p.id)
        then { p with age := min 63 (p.age + 1) } else p
      | [] => p) }

/-- The body flits of a worm in an F-cycle: into every buffer that `ok` allows, one flit from the buffer before it (R273). -/
def pull (ok : Nat → Bool) : List (Nat × Nat) → Nat → List (Nat × Nat) × Nat
  | [], left => ([], left)
  | [(l, c)], left => if ok l && left != 0 then ([(l, c + 1)], left - 1) else ([(l, c)], left)
  | (l, c) :: (m, d) :: rest, left =>
    let moves := ok l && d != 0
    match pull ok ((m, d) :: rest) left with
    | ((m', d') :: rest', left') => if moves then ((l, c + 1) :: (m', d' - 1) :: rest', left') else ((l, c) :: (m', d') :: rest', left')
    | ([], left') => ([(l, c)], left')

/-- The buffers that a worm has left for good taken off its end. -/
def trimWorm (w : List (Nat × Nat)) (left : Nat) : List (Nat × Nat) :=
  if left = 0 then (w.reverse.dropWhile (fun x => x.2 == 0)).reverse else w

/-- A packet's flits after an F-cycle: they follow its head; a port takes every flit that reaches it (R273, R275). -/
def Packet.flow (ok : Nat → Bool) (p : Packet) : Packet :=
  if p.worm.isEmpty then p
  else
    let w := pull ok p.worm p.left
    let v := match p.route, w.1 with
      | [], (l, _) :: rest => (l, 0) :: rest
      | _, v => v
    { p with worm := trimWorm v w.2, left := w.2 }

/-- Flits of all packets in the buffer behind an output. -/
def flitsBehind (ps : List Packet) (o : Nat) : Nat :=
  (ps.flatMap (fun p => p.worm.filterMap (fun x => if x.1 = o then some x.2 else none))).foldl (· + ·) 0

/-- The end of an F-cycle on the links: body flits follow, and the buffers as the next F-cycle finds them (R273). -/
def State.flowPackets (s : State) : State :=
  if s.packets.all (fun p => p.worm.isEmpty) && s.switches.all (fun x => x.2.used == 0) then s
  else
    let ok := fun (o : Nat) =>
      let x : SwitchOut := Tab.get {} s.switches o
      decide (x.used < 2) && decide (x.busy ≤ s.now)
    let ps := s.packets.map (Packet.flow ok)
    { s with packets := ps, switches := s.switches.map (fun (x : Nat × SwitchOut) => (x.1, { x.2 with used := flitsBehind ps x.1 })) }

/-- The first output some head packet wants and that is free, if any. -/
def State.grantable (s : State) : Option Nat :=
  s.packets.findSome? (fun p =>
    match p.route with
    | (o, _) :: _ => if s.outFree o && (s.heads o).any (fun h => h.2.id == p.id) then some o else none
    | [] => none)

/-! ### Headers (R274) -/

/-- The header of a packet's head flit; `ty` stands for TYPE, whose codes are not architectural. -/
def Packet.header (p : Packet) (ty : Nat) : Word :=
  let tag := fun (e : Nat) => endTag e + endQuarter e * 2 ^ 6 + endDie e * 2 ^ 8
  wordOf (p.age % 64 + p.cls % 4 * 2 ^ 6 + (p.flits - 1) % 16 * 2 ^ 8 + ty % 16 * 2 ^ 12 + tag p.dst * 2 ^ 16 + p.dpkg % 256 * 2 ^ 26
    + tag p.src * 2 ^ 34 + p.spkg % 256 * 2 ^ 44 + p.ctx % 4096 * 2 ^ 52)

/-- The header of body flit `i` of a packet. -/
def Packet.bodyHeader (p : Packet) (i : Nat) : Word := wordOf (i % 16 * 2 ^ 8 + p.ctx % 4096 * 2 ^ 52)

end Sys2Proof.Machine
end

