-- ==== Sys2Proof/Machine/Ops.lean ====
section
/-! DEFINITION. The named operations every meaning is built from: whose turn it is, registers and their full/empty
bits, queues, the sequencer, fault records, taking a trap and the return from one, and the issue of an instruction. -/

namespace Sys2Proof.Machine

/-- The three outcomes of a meaning. -/
abbrev Out := Host.Outcome State Fault Refusal

/-! ### Threads -/

/-- The thread of an actor. -/
def State.thrOf (s : State) : Actor → Thread
  | .slot k i => Tab.get {} (s.core k).slots i
  | .episode x => (s.episode x).thr

/-- The state with an actor's thread replaced. -/
def State.setThrOf (s : State) (a : Actor) (t : Thread) : State :=
  match a with
  | .slot k i => s.setCore k { s.core k with slots := Tab.set (s.core k).slots i t }
  | .episode x => s.setEpisode x { s.episode x with thr := t }

/-- The thread whose turn it is. -/
def State.thr (s : State) : Thread := s.thrOf s.cur

/-- The state with the thread whose turn it is replaced. -/
def State.setThr (s : State) (t : Thread) : State := s.setThrOf s.cur t

/-- Whether a slot holds a thread. -/
def State.slotBound (s : State) (k i : Nat) : Bool := (Tab.find? (s.core k).slots i).isSome

/-- The quarter-die of an actor: of its core, or of the episode core of its context (R28, R365). -/
def Actor.quarter : Actor → Nat
  | .slot k _ => quarterOfCore k
  | .episode x => x / 32

/-- Whether an actor has a thread that may issue at all: a bound slot of a quarter-die that is in a partition, or an episode of
its quarter's partition that has not ended. A quarter-die in no partition runs nothing (R29). -/
def State.live (s : State) : Actor → Bool
  | .slot k i => s.slotBound k i && (s.partOfCore k).isSome
  | .episode x => match Tab.find? s.episodes x with
    | some e => e.ended.isNone && !e.closed && s.partOfQuarter (x / 32) == some e.part
    | none => false

/-- The core of an actor; an episode context has none. -/
def Actor.core : Actor → Nat
  | .slot k _ => k
  | .episode _ => 0

/-- The slot of an actor. -/
def Actor.slotNum : Actor → Nat
  | .slot _ i => i
  | .episode _ => 1

/-- Whether an actor is an episode context. -/
def Actor.isEpisode : Actor → Bool
  | .slot _ _ => false
  | .episode _ => true

/-- The core whose turn it is. -/
def State.curCore (s : State) : Nat := s.cur.core

/-- The context tag of the thread whose turn it is. -/
def State.curCtx (s : State) : Nat :=
  match s.cur with
  | .slot _ _ => s.thr.ctx
  | .episode x => (s.episode x).ctx

/-- Whether a core is named as a supervisor core of its partition (R382, R395). -/
def State.isSupervisorCore (s : State) (k : Nat) : Bool :=
  match s.partOfCore k with
  | some p =>
    let w := (s.part p).supcore
    bits w 9 0 == k || (bitOf w 20 && bits w 19 10 == k)
  | none => false

/-- The privilege of an actor: 0 user, 1 steward, 2 system (R382). Episode contexts run at user privilege (R367). -/
def State.privilege (s : State) : Actor → Nat
  | .slot k 0 => if s.isSupervisorCore k then 2 else 1
  | _ => 0

/-! ### Registers and full/empty bits (R66 to R70) -/

/-- A 32-bit mask with bit `i` set to `b`. -/
def maskSet (m : BitVec 32) (i : Nat) (b : Bool) : BitVec 32 :=
  if b then m ||| BitVec.ofNat 32 (2 ^ i) else m &&& ~~~ BitVec.ofNat 32 (2 ^ i)

/-- The value of a g register; g0 reads as 0 (R66). -/
def Thread.getG (t : Thread) (r : Reg) : Word := if r = 0 then 0 else Tab.get 0 t.g r.toNat

/-- Whether a register of the thread's own is full: neither empty nor pending; g0 always is (R66, R67). -/
def Thread.full (t : Thread) (r : Reg) : Bool :=
  r == 0 || (!t.empty.getLsbD r.toNat && !t.pending.getLsbD r.toNat)

/-- Whether a register of the thread's own is pending (R67). -/
def Thread.isPending (t : Thread) (r : Reg) : Bool := r != 0 && t.pending.getLsbD r.toNat

/-- Whether a turn at F-cycle `now` sees a register full: it is full, and was filled before that F-cycle (R62, R68). -/
def Thread.seenFull (t : Thread) (now : Nat) (r : Reg) : Bool :=
  t.full r && !(t.lateAt == now && t.late.getLsbD r.toNat)

/-- Whether a turn at F-cycle `now` sees a register pending: a result that lands in `now` is seen from the next F-cycle on
(R62, R68). -/
def Thread.seenPending (t : Thread) (now : Nat) (r : Reg) : Bool :=
  t.isPending r || (r != 0 && t.lateAt == now && t.latePend.getLsbD r.toNat)

/-- The queue a register names for the thread, if its THR_QMAP bit is set (R69, R70). -/
def Thread.mapped (t : Thread) (r : Reg) : Option Nat :=
  if 24 ≤ r.toNat ∧ t.csr.qmap.getLsbD (r.toNat - 24) then some (r.toNat - 24) else none

/-- Whether the thread is in run-ahead: a dispatched vector instruction is not yet confirmed (R181). -/
def Thread.runAhead (t : Thread) : Bool := t.vq.any (fun e => !e.confirmed)

/-- The thread with an undo entry logged, in run-ahead (R181). -/
def Thread.note (t : Thread) (u : Undo) : Thread := if t.runAhead then { t with log := u :: t.log } else t

/-- The undo entry of a register. -/
def Thread.undoReg (t : Thread) (r : Reg) : Undo :=
  .reg t.vseq r (t.getG r) (t.empty.getLsbD r.toNat) (t.pending.getLsbD r.toNat)

/-- A register written and set full (R68); a write to g0 is discarded (R66). -/
def Thread.putG (t : Thread) (r : Reg) (v : Word) : Thread :=
  if r = 0 then t
  else { t with g := Tab.set t.g r.toNat v, empty := maskSet t.empty r.toNat false,
                pending := maskSet t.pending r.toNat false }

/-- A value that reaches a register from outside the turn at F-cycle `now`: the register is full, and turns see it so from the next
F-cycle on (R62). -/
def Thread.landG (t : Thread) (now : Nat) (r : Reg) (v : Word) : Thread :=
  if r = 0 then t
  else { t.putG r v with late := maskSet (if t.lateAt = now then t.late else 0) r.toNat true
                         latePend := maskSet (if t.lateAt = now then t.latePend else 0) r.toNat (t.isPending r)
                         lateAt := now }

/-- A scalar instruction's write of a register, logged in run-ahead. -/
def Thread.setG (t : Thread) (r : Reg) (v : Word) : Thread :=
  if r = 0 then t else (t.note (t.undoReg r)).putG r v

/-- A register made pending (R67), logged in run-ahead. -/
def Thread.makePending (t : Thread) (r : Reg) : Thread :=
  if r = 0 then t
  else let t := t.note (t.undoReg r)
       { t with pending := maskSet t.pending r.toNat true }

/-- A register emptied (R325, R327). -/
def Thread.makeEmpty (t : Thread) (r : Reg) : Thread :=
  if r = 0 then t
  else let t := t.note (t.undoReg r)
       { t with empty := maskSet t.empty r.toNat true }

/-- A thread CSR by its number, as stored (R384). -/
def ThrCsrs.get (c : ThrCsrs) (num : Nat) : Word :=
  match num with
  | 0x001 => c.status
  | 0x002 => c.cause
  | 0x003 => c.trappc
  | 0x004 => c.tval
  | 0x005 => c.trapvec
  | 0x006 => c.timer
  | 0x007 => c.hscr
  | 0x010 => c.qmap
  | 0x011 => c.livetile
  | 0x012 => c.fpctl
  | 0x013 => c.oorflag
  | 0x014 => c.ooraddr
  | 0x015 => c.vtype
  | 0x016 => c.vl
  | 0x017 => c.vlceil
  | 0x018 => c.strip
  | 0x019 => c.seed
  | 0x01A => c.rank
  | 0x01B => c.migmask
  | 0x01C => c.regmask
  | 0x01D => c.tbmask
  | 0x01E => c.tbmaskx
  | 0x01F => c.polver
  | _ => 0

/-- A thread CSR replaced by number. -/
def ThrCsrs.put (c : ThrCsrs) (num : Nat) (v : Word) : ThrCsrs :=
  match num with
  | 0x001 => { c with status := v }
  | 0x002 => { c with cause := v }
  | 0x003 => { c with trappc := v }
  | 0x004 => { c with tval := v }
  | 0x005 => { c with trapvec := v }
  | 0x006 => { c with timer := v }
  | 0x007 => { c with hscr := v }
  | 0x010 => { c with qmap := v }
  | 0x011 => { c with livetile := v }
  | 0x012 => { c with fpctl := v }
  | 0x013 => { c with oorflag := v }
  | 0x014 => { c with ooraddr := v }
  | 0x015 => { c with vtype := v }
  | 0x016 => { c with vl := v }
  | 0x017 => { c with vlceil := v }
  | 0x018 => { c with strip := v }
  | 0x019 => { c with seed := v }
  | 0x01A => { c with rank := v }
  | 0x01B => { c with migmask := v }
  | 0x01C => { c with regmask := v }
  | 0x01D => { c with tbmask := v }
  | 0x01E => { c with tbmaskx := v }
  | 0x01F => { c with polver := v }
  | _ => c

/-- A scalar instruction's write of a thread CSR, logged in run-ahead. -/
def Thread.setCsr (t : Thread) (num : Nat) (v : Word) : Thread :=
  let t := t.note (.csr t.vseq num (t.csr.get num))
  { t with csr := t.csr.put num v }

/-- Floating-point flags ORed into THR_FPCTL (R127): bit 0 NX, 1 UF, 2 OF, 3 DZ, 4 NV. -/
def Thread.raise (t : Thread) (flags : Nat) : Thread :=
  if flags = 0 then t else t.setCsr 0x012 (t.csr.fpctl ||| wordOf (flags * 8))

/-- Bits ORed into a thread CSR on behalf of an instruction that stands behind `after` dispatched vector instructions: they are
undone with those, and outlive the undoing of anything later (R181, R183). -/
def Thread.orCsrAt (t : Thread) (num : Nat) (w : Word) (after : Nat) (undoable : Bool) : Thread :=
  let later := t.log.map (fun u => match u with
    | .csr n m v => if m = num ∧ after < n then .csr n m (v ||| w) else u
    | u => u)
  { t with csr := t.csr.put num (t.csr.get num ||| w)
           log := if undoable then .csr after num (t.csr.get num) :: later else later }

/-- Flags that come with a result landing later, of a scalar instruction that stands behind `after` dispatched vector
instructions (R127, R129, R183). -/
def Thread.raiseAt (t : Thread) (flags after : Nat) (undoable : Bool) : Thread :=
  if flags = 0 then t else t.orCsrAt 0x012 (wordOf (flags * 8)) after undoable

/-! ### Queues (R70 to R72) -/

/-- Whether an entry satisfies a pop at F-cycle `now`: its reservation is seen, its value landed before, and it is not poisoned. -/
def QEntry.poppable (e : QEntry) (now : Nat) : Bool :=
  !e.bad && decide (e.seenAt ≤ now) && (match e.val with | some (_, f) => decide (f < now) | none => false)

/-- Whether the first `k` entries of a queue can be popped. -/
def Queue.canPop (q : Queue) (now k : Nat) : Bool :=
  decide (k ≤ q.ents.length) && (q.ents.take k).all (fun e => e.poppable now)

/-- The free entries of a queue of 16 as an instruction sees them: a popped entry counts from the fourth F-cycle on. -/
def Queue.free (q : Queue) (now : Nat) : Nat := 16 - q.ents.length - (q.freed.filter (fun f => decide (now < f))).length

/-- The head popped: its value, and the queue after. -/
def Queue.pop (q : Queue) (now : Nat) : Word × Queue :=
  match q.ents with
  | [] => (0, q)
  | e :: es => ((match e.val with | some (v, _) => v | none => 0),
                { ents := es, freed := (now + 4) :: q.freed.filter (fun f => decide (now < f)) })

/-- A queue of a core. -/
def Core.queue (c : Core) (i : Nat) : Queue := Tab.get {} c.queues i

/-- A core with a queue replaced. -/
def Core.setQueue (c : Core) (i : Nat) (q : Queue) : Core := { c with queues := Tab.set c.queues i q }

/-- A tail entry reserved at F-cycle `now`, with the value it will hold where that is known (R71, R72). -/
def Queue.reserve (q : Queue) (tag now : Nat) (val : Option (Word × Nat)) : Queue :=
  { q with ents := q.ents ++ [{ tag := tag, seenAt := now + 4, val := val }] }

/-- The registers of a list that name queue `i` for the thread. -/
def Thread.uses (t : Thread) (i : Nat) (rs : List Reg) : Nat :=
  (rs.filter (fun r => t.mapped r == some i)).length

/-- Whether every register an instruction reads is full or can be popped, and every destination has room and is not
pending (R68, R71). -/
def State.operandsReady (s : State) (srcs dsts : List Reg) : Bool :=
  let t := s.thr
  let c := s.core s.curCore
  srcs.all (fun r => (t.mapped r).isSome || t.seenFull s.now r)
    && dsts.all (fun r => (t.mapped r).isSome || !t.seenPending s.now r)
    && (List.range 8).all (fun i =>
      (t.uses i srcs == 0 || (c.queue i).canPop s.now (t.uses i srcs))
        && (t.uses i dsts == 0 || decide (t.uses i dsts ≤ (c.queue i).free s.now + t.uses i srcs)))

/-- The values of the sources in field order, with the pops performed (R68, R70). -/
def State.readSrcs (s : State) : List Reg → List Word × State
  | [] => ([], s)
  | r :: rs =>
    match s.thr.mapped r with
    | some i =>
      let c := s.core s.curCore
      let (v, q) := (c.queue i).pop s.now
      let (vs, s') := State.readSrcs (s.setCore s.curCore (c.setQueue i q)) rs
      (v :: vs, s')
    | none =>
      let (vs, s') := State.readSrcs s rs
      (s.thr.getG r :: vs, s')

/-- A value put into the entry of a queue that an instruction reserved, landing at an F-cycle (R71). -/
def Core.fillEntry (c : Core) (i tag : Nat) (v : Word) (f : Nat) : Core :=
  c.setQueue i { c.queue i with ents := (c.queue i).ents.map (fun e => if e.tag == tag then { e with val := some (v, f) } else e) }

/-- The entry of queue `i` that the instruction of the thread whose turn it is reserved when it began, where it has begun in an
earlier turn, and the state without that claim (R71, R72). -/
def State.claim (s : State) (i : Nat) : Option (Nat × State) :=
  let t := s.thr
  if t.stage = 0 then none
  else
    match t.reserved.find? (fun x => x.1 == i) with
    | some x => some (x.2, s.setThr { t with reserved := t.reserved.erase x })
    | none => none

/-- A result written to a destination: the register, or an entry of its queue, landing `lat` later (R64, R71): the tail entry, or
the one the instruction reserved when it began. -/
def State.putDst (s : State) (r : Reg) (v : Word) (lat : Nat) : State :=
  match s.thr.mapped r with
  | some i =>
    match s.claim i with
    | some (tag, s) => s.setCore s.curCore ((s.core s.curCore).fillEntry i tag v (s.now + lat))
    | none =>
      let c := s.core s.curCore
      { (s.setCore s.curCore (c.setQueue i ((c.queue i).reserve s.nextId s.now (some (v, s.now + lat))))) with
        nextId := s.nextId + 1 }
  | none => s.setThr (s.thr.setG r v)

/-- Results written to destinations in order. -/
def State.putDsts (s : State) : List Reg → List Word → Nat → State
  | r :: rs, v :: vs, lat => State.putDsts (s.putDst r v lat) rs vs lat
  | _, _, _ => s

/-- A destination made to wait for its result: pending, or a queue entry reserved (R67, R71). -/
def State.awaitDst (s : State) (r : Reg) : Dest × State :=
  match s.thr.mapped r with
  | some i =>
    match s.claim i with
    | some (tag, s) => (.queue i tag, s)
    | none =>
      let c := s.core s.curCore
      (.queue i s.nextId,
       { (s.setCore s.curCore (c.setQueue i ((c.queue i).reserve s.nextId s.now none))) with nextId := s.nextId + 1 })
  | none => if r = 0 then (.none, s) else (.reg r, s.setThr (s.thr.makePending r))

/-- The queue entries that an instruction of several turns reserves for its results when it begins, together with its pops
(R71, R72). -/
def State.reserveDsts (s : State) : List Reg → State
  | [] => s
  | r :: rs =>
    match s.thr.mapped r with
    | some i =>
      let c := s.core s.curCore
      let s1 := { (s.setCore s.curCore (c.setQueue i ((c.queue i).reserve s.nextId s.now none))) with nextId := s.nextId + 1 }
      State.reserveDsts (s1.setThr { s1.thr with reserved := s1.thr.reserved ++ [(i, s.nextId)] }) rs
    | none => State.reserveDsts s rs

/-- The oldest dispatched vector instruction of a thread that is not confirmed. -/
def Thread.oldest (t : Thread) : Option Nat := (t.vq.find? (fun e => !e.confirmed)).map VEntry.seq

/-- Whether a scalar instruction issued after `after` vector instructions of its thread had been dispatched is to be undone with
one of them that is not confirmed yet (R181, R183). -/
def Thread.undoable (t : Thread) (after : Nat) : Bool :=
  match t.oldest with
  | some n => decide (n ≤ after)
  | none => false

/-- A result that lands: in its register, set full, or in its queue entry (R67, R71). A landing in the log of run-ahead takes an
entry of its own there, with the number of the youngest vector instruction dispatched before its load (R181). -/
def State.landAt (s : State) (a : Actor) (dst : Dest) (v : Word) (after : Option Nat) : State :=
  match dst with
  | .none => s
  | .reg r =>
    let t := s.thrOf a
    let t := match after with
      | some n => if t.undoable n && r != 0 then
          { t with log := .reg n r (t.getG r) (t.empty.getLsbD r.toNat) (t.pending.getLsbD r.toNat) :: t.log } else t
      | none => t
    s.setThrOf a (t.landG s.now r v)
  | .queue i tag => s.setCore a.core ((s.core a.core).fillEntry i tag v s.now)

/-- A result that lands outside run-ahead. -/
def State.land (s : State) (a : Actor) (dst : Dest) (v : Word) : State := s.landAt a dst v none

/-! ### The sequencer (R83 to R89) -/

/-- The loop step at the end address `e` of level 0: the next pc, the levels left, and whether it is a back-edge (R85). -/
def loopStep (e : BitVec 53) : List LoopLevel → BitVec 53 × List LoopLevel × Bool
  | [] => (e + 4, [], false)
  | l :: rest =>
    if l.index.toNat + 1 < l.count.toNat then (l.start, { l with index := l.index + 1 } :: rest, true)
    else
      match rest with
      | [] => (l.stop + 4, [], false)
      | m :: _ => if m.stop = l.stop then loopStep e rest else (l.stop + 4, rest, false)

/-- Where a thread goes after an instruction completes in sequence, its levels then, and whether that is a back-edge. -/
def Thread.seqNext (t : Thread) : BitVec 53 × List LoopLevel × Bool :=
  match t.loops with
  | [] => (t.pc + 4, [], false)
  | l :: _ => if l.stop = t.pc then loopStep t.pc t.loops else (t.pc + 4, t.loops, false)

/-- What the check of R89 finds for a target of an actor; an episode's is an offset of its text (R366). -/
def State.targetLook (s : State) (a : Actor) (pc : BitVec 53) : CodeLook :=
  match a with
  | .slot k _ => s.codeLook k (s.thrOf a).ctx (s.thrOf a).noCode pc.toNat
  | .episode x => if pc.toNat % 4 == 0 && decide (pc.toNat < (s.episode x).textLen) then .ok else .bad

/-- Whether a target may be a pc of an actor (R89, R366). -/
def State.targetOk (s : State) (a : Actor) (pc : BitVec 53) : Bool := s.targetLook a pc == .ok

/-- Whether the step in sequence needs the check of R89: a back-edge and a step within a page need none. -/
def State.seqChecked (s : State) (a : Actor) : Bool :=
  let t := s.thrOf a
  let (pc, _, back) := t.seqNext
  !(back || (pc == t.pc + 4 && pc.toNat / 65536 == t.pc.toNat / 65536 && !a.isEpisode))

/-- Whether the step in sequence passes R89. -/
def State.seqOk (s : State) (a : Actor) : Bool := !s.seqChecked a || s.targetOk a (s.thrOf a).seqNext.1

/-- The thread at a new position, with nothing left of the instruction that brought it there. -/
def Thread.goTo (t : Thread) (pc : BitVec 53) (loops : List LoopLevel) (landing : Bool) : Thread :=
  { t with pc := pc, loops := loops, stage := 0, vals := [], arg := 0, popped := [], reserved := [], noCode := none, parked := false,
           withdrawable := false, landing := landing, sending := [] }

/-- An instruction issued: an episode counts it against its budget (R379). -/
def State.countIssue (s : State) (a : Actor) : State :=
  match a with
  | .slot _ _ => s
  | .episode x => s.setEpisode x { s.episode x with instr := (s.episode x).instr + 1 }

/-- Completion in sequence (R85). `yields` marks a YIELD, a landing point whatever follows it (R97). -/
def State.complete (s : State) (a : Actor) (yields : Bool := false) : State :=
  let t := s.thrOf a
  let (pc, loops, back) := t.seqNext
  (s.setThrOf a (t.goTo pc loops (back || yields))).countIssue a

/-! ### Records, notices and signals (R168, R353, R394 to R396) -/

/-- The code of a cause (R389). -/
def causeCode : Cause → Nat
  | .illegalInstruction => 1
  | .futureInstruction => 2
  | .privilege => 3
  | .pointerFault => 4
  | .formatFault => 5
  | .branchTarget => 6
  | .loopFault => 7
  | .scratchpadRefusal => 8
  | .vaultFault => 9
  | .migrationFault => 10
  | .vectorAbsent => 11
  | .checkFault => 12
  | .accumulatorFault => 13
  | .lateCopy => 14
  | .messageNack => 15
  | .sendqReject => 16
  | .syncFault => 17
  | .episodeFault => 18
  | .timer => 19
  | .userTrap => 20
  | .syscall => 21
  | .breakpoint => 22
  | .pageFault => 23
  | .imageFeature => 24
  | .poison => 25

/-- The causes that may go to the thread's own handler (R389). -/
def recoverable : Cause → Bool
  | .pointerFault | .formatFault | .scratchpadRefusal | .lateCopy | .messageNack | .sendqReject | .timer
  | .userTrap => true
  | _ => false

/-- A record put in line for the partition's fault queue, with the number it will carry (R168, R395). -/
def State.postRecord (s : State) (p : Nat) (r : FaultRec) : Nat × State :=
  let x := s.part p
  (x.seqNext, s.setPart p { x with waiting := x.waiting ++ [{ r with seq := x.seqNext }],
                                   seqNext := (x.seqNext + 1) % 2 ^ 32 })

/-- An exit notice of a slot; a slot holds at most one (R353). -/
def State.postNotice (s : State) (k i kind : Nat) : State :=
  let c := s.core k
  if c.notices.any (fun w => bits w 3 0 == i) then s
  else s.setCore k { c with notices := c.notices ++ [wordOf (2 ^ 63 + kind * 256 + i)] }

/-- A launch of a partition by its identifier. -/
def State.launch? (s : State) (p lid : Nat) : Option Launch := (s.part p).graph.find? (fun l => l.lid == lid)

/-- A launch of a partition changed. -/
def State.setLaunch (s : State) (p : Nat) (l : Launch) : State :=
  let x := s.part p
  s.setPart p { x with graph := x.graph.map (fun m => if m.lid == l.lid then l else m) }

/-- A change to the launch of a slot's thread. -/
def State.onLaunch (s : State) (k i : Nat) (f : Launch → Launch) : State :=
  match s.partOfCore k with
  | some p =>
    match s.launch? p (s.thrOf (.slot k i)).lid.toNat with
    | some l => s.setLaunch p (f l)
    | none => s
  | none => s

/-- A launch's verdict raised: 0 clean, 1 corrected, 2 tainted (R413). -/
def Launch.taint (l : Launch) (v : Nat) : Launch := { l with verdict := max l.verdict v }

/-- The first error of a launch (R463). -/
def Launch.noteError (l : Launch) (w : Word) : Launch := match l.err with | none => { l with err := some w } | some _ => l

/-- The log2 of the size of the page a data fault is about: of the leaf where the walk found one, else 64 KiB, since a page that is
not mapped has no size (R168; DESIGN CHOICE, assumption 73). -/
def faultShift (kind level size : Nat) : Nat :=
  if size = 1 then 21 else if size = 2 then 30
  else if kind = 4 then (if level = 1 then 30 else if level = 2 then 21 else 16) else 16

/-- An access that ends in a data fault: its thread parks on the unresolved record of the context and page, or on a
new one (R168). -/
def State.dataFault (s : State) (a : Actor) (ctx va kind level size access cls : Nat) : State :=
  let p := (s.ctx ctx).part
  let t := s.thrOf a
  let x := s.part p
  match x.openFaults.find? (fun o => o.ctx == ctx && o.page == va / 2 ^ o.shift && !o.abandoned) with
  | some o =>
    let s := s.setPart p { x with openFaults := x.openFaults.map (fun q =>
      if q.seq == o.seq then { q with joined := (a, va) :: q.joined } else q) }
    s.setThrOf a { t with faultSeq := some o.seq, parked := true, walking := none }
  | none =>
    let (seq, s) := s.postRecord p { kind := kind, addr := wordOf va, ctx := ctx, b11 := access, b12 := level,
                                     b13 := size, core := a.core, slot := a.slotNum + 16 * cls }
    let y := s.part p
    let sh := faultShift kind level size
    let s := s.setPart p { y with openFaults := y.openFaults ++
      [{ seq := seq, ctx := ctx, page := va / 2 ^ sh, shift := sh, addr := wordOf va, joined := [(a, va)] }] }
    s.setThrOf a { t with faultSeq := some seq, parked := true, walking := none }

/-- The number SIZE holds for a rights fault (R168). -/
def sizeCode (shift : Nat) : Nat := if shift = 16 then 0 else if shift = 21 then 1 else 2

/-! ### The end of an episode (R379, R380) -/

/-- The record of an episode that has ended (R380). -/
def episodeRecord (e : Episode) (status cause code : Nat) (freward : BitVec 32) (tcause tval tb : Word) : List Byte :=
  bytesLE 8 e.handle.toNat ++ bytesLE 1 status ++ bytesLE 1 cause ++ bytesLE 1 code ++ bytesLE 1 0
    ++ bytesLE 4 e.steps ++ bytesLE 4 e.minVer.toNat ++ bytesLE 4 e.maxVer.toNat ++ bytesLE 4 freward.toNat
    ++ bytesLE 4 tcause.toNat ++ bytesLE 8 tval.toNat ++ bytesLE 8 e.instr ++ bytesLE 8 e.start
    ++ bytesLE 8 tb.toNat

/-- The final observation of an ended episode at step `k` (R379). -/
def finalObs (e : Episode) (k : Nat) : StepMsg :=
  match e.ended with
  | some (status, _, code, fr) => { step := k, status := status, reward := fr, aux := BitVec.ofNat 32 code }
  | none => { step := k }

/-- The divides of a core that satisfy a test land nothing and raise nothing any more. -/
def Core.quietDivs (c : Core) (f : DivJob → Bool) : Core :=
  { c with divs := c.divs.map (fun d => if f d then { d with dst := .none, flags := 0 } else d) }

/-- Nothing that an episode has under way lands any more once it has ended (R379). -/
def State.settleEpisode (s : State) (x : Nat) : State :=
  let k := 1024 + x / 4
  let s := match Tab.find? s.cores k with
    | some c => s.setCore k (c.quietDivs (fun d => d.slot == x % 4))
    | none => s
  { s with packets := s.packets.filter (fun p => p.owner != some (.episode x)) }

/-- The end of an episode: the context stops, the record is written, and the final observation follows by the turn
state (R379, R380). STATUS is 1 DONE, 2 TIMEOUT, 4 FAULT, 5 ABORTED. -/
def State.endEpisode (s : State) (x status cause code : Nat) (freward : BitVec 32) (tcause tval : Word) : State :=
  let e := s.episode x
  if e.ended.isSome then s
  else
    let s := s.settleEpisode x
    let s := s.homeWrite e.record (episodeRecord e status cause code freward tcause tval s.tb)
    let e := { e with ended := some (status, cause, code, freward) }
    let e := match e.turn with
      | .E => { e with msg := some (finalObs e e.k), final := true, turn := .R }
      | .A => { e with k := e.k + 1, msg := some (finalObs e (e.k + 1)), final := true, turn := .R }
      | _ => e
    s.setEpisode x e

/-! ### Partition reset (R422, R423) -/

/-- Whether a core lies in a set of quarter-dies. -/
def inQuarters (q : BitVec 16) (k : Nat) : Bool := q.getLsbD (quarterOfCore k)

/-- Every SRAM of a set of quarter-dies scrubbed to zero (R422), its episode cores' dividers among them. -/
def State.scrubQuarters (s : State) (qs : BitVec 16) : State :=
  let inQ := fun (k : Nat) => if k < 1024 then inQuarters qs k else qs.getLsbD ((k - 1024) / 8)
  let sram := fun (w : Nat × Nat × Nat) =>
    if w.1 = 0 then false
    else if w.1 = 1 ∨ w.1 = 3 then inQ w.2.1
    else if w.1 = 2 ∨ w.1 = 4 then inQ (16 * w.2.1)
    else qs.getLsbD (w.2.1 / 16)
  { s with
    cores := s.cores.filter (fun c => !inQ c.1)
    quads := s.quads.filter (fun c => !inQ (4 * c.1))
    clusters := s.clusters.filter (fun c => !inQ (16 * c.1))
    vaults := s.vaults.filter (fun c => !inQ (16 * c.1))
    piers := s.piers.filter (fun c => !qs.getLsbD (c.1 / 16))
    poison := s.poison.filter (fun w => !sram w)
    flawed := s.flawed.filter (fun w => !sram w) }

/-- The lowest core of a set of quarter-dies. -/
def firstCore (q : BitVec 16) : Nat := 64 * (((List.range 16).find? (fun i => q.getLsbD i)).getD 0)

/-- The supervisor of a partition started in slot 0 of PRT_SUPCORE.PRI, as at bring-up (R423, assumption 8). -/
def State.loadSupervisor (s : State) (p : Nat) : State :=
  let k := bits (s.part p).supcore 9 0
  let t : Thread := { pc := Config.supervisorEntry p, startCheck := true }
  s.setCore k { s.core k with slots := Tab.set (s.core k).slots 0 t }

/-- A partition reset (R422): every context ended without record, every SRAM of its quarter-dies scrubbed, fault
queue, interfaces and launch queues emptied, its HBM undefined (assumption 9), new keys in all 16 slots, and the
supervisor loaded again. -/
def State.resetPartition (s : State) (p : Nat) : State :=
  let x := s.part p
  let mine := fun (c : Nat) => (Tab.find? s.ctxs c).map (fun y => y.part) == some p
  let lo := 65536 * x.base
  let hi := 65536 * (x.base + x.granules)
  let ours := fun (w : Nat × Nat × Nat) => w.1 == 0 && decide (lo ≤ 8 * w.2.2 ∧ 8 * w.2.2 < hi)
  let s := s.scrubQuarters x.quarters
  let junk : Memory := s.mem.writeBytes lo ((List.range (hi - lo)).map (fun j => Config.freeByte s.fresh (lo + j)))
  let s := { s with
    fresh := s.fresh + 1
    mem := junk
    homeReg := s.homeReg.filter (fun c => !(decide (lo ≤ 128 * c.1 ∧ 128 * c.1 < hi)))
    poison := s.poison.filter (fun w => !ours w)
    flawed := s.flawed.filter (fun w => !ours w)
    packets := s.packets.filter (fun q => !mine q.ctx)
    locks := s.locks.filter (fun l => !(decide (lo ≤ l.pa ∧ l.pa < hi)))
    qwaits := s.qwaits.filter (fun w => !(decide (lo ≤ w.pa ∧ w.pa < hi)))
    ctxs := s.ctxs.filter (fun c => c.2.part != p)
    episodes := s.episodes.filter (fun e => e.2.part != p)
    objs := s.objs.filter (fun o => o.2.part != p)
    vis := s.vis.map (fun (v : Nat × Vi) => if v.2.part == p then
      (v.1, { part := p, device := v.2.device, ctx := v.2.ctx, key := v.2.key, lastSeq := v.2.lastSeq, reply := v.2.reply }) else v) }
  let fresh : Partition := { quarters := x.quarters, base := x.base, granules := x.granules, built := x.built, homeMap := x.homeMap,
                             keys := 0xFFFF, supcore := wordOf (bits x.supcore 9 0), capw := x.capw,
                             bal := (100000 * x.capw.toNat : Nat), accrued := x.accrued }
  (s.setPart p fresh).loadSupervisor p

/-! ### Taking a trap, and the return from one (R390 to R395) -/

/-- The word THR_CAUSE receives (R385). -/
def causeWord (c : Cause) (defd esc vec : Bool) : Word :=
  wordOf (causeCode c + 2 ^ 29 * boolNat vec + 2 ^ 30 * boolNat esc + 2 ^ 31 * boolNat defd)

/-- Whether PRT_SUPCORE names a supervisor slot besides that of PRI: BV with a BKP that is not PRI (R395). -/
def otherSupervisor (w : Word) : Bool := bitOf w 20 && bits w 19 10 != bits w 9 0

/-- A trap that goes to the supervisor: the thread halts, a record is posted, a notice of kind 2 is queued, and the
launch's first error is noted (R394, R463). A supervisor slot with no other named resets its partition (R395). -/
def State.supervisorTrap (s : State) (k i : Nat) (c : Cause) : State :=
  let a := Actor.slot k i
  let t := s.thrOf a
  match s.partOfCore k with
  | none => s.setThrOf a { t with run := .trapped, parked := false }
  | some p =>
    if i == 0 && s.isSupervisorCore k && !otherSupervisor (s.part p).supcore && !recoverable c then s.resetPartition p
    else
      let w := t.csr.cause
      let (seq, s) := s.postRecord p
        { kind := 8, addr := t.csr.tval, ctx := t.ctx, b11 := causeCode c,
          b12 := boolNat (bitOf w 31) + 2 * boolNat (bitOf w 30) + 4 * boolNat (bitOf w 29),
          core := k, slot := i, time := t.csr.trappc }
      let x := s.part p
      let s := s.setPart p { x with trapRecs := x.trapRecs ++ [(seq, k, i, c)] }
      let s := s.setThrOf a { t with run := .trapped, parked := false, recSeq := seq }
      let s := s.onLaunch k i (fun l => l.noteError t.csr.tval)
      s.postNotice k i 2

/-- Queue entries that an instruction reserved when it began given up: its results never come (R12, R71). -/
def Core.unreserve (c : Core) (l : List (Nat × Nat)) : Core :=
  l.foldl (fun c x => c.setQueue x.1 { c.queue x.1 with ents := (c.queue x.1).ents.filter (fun e => e.tag != x.2) }) c

/-- Queue entries that an instruction took and reserved given back: the taken ones at the heads of their queues. The instruction
has not been executed (R12, R392). -/
def State.unpop (s : State) (a : Actor) : State :=
  let t := s.thrOf a
  if t.popped.isEmpty && t.reserved.isEmpty then s
  else
    let c := t.popped.foldr (fun p (c : Core) =>
      c.setQueue p.1 { c.queue p.1 with ents := { tag := s.nextId, seenAt := 0, val := some (p.2, 0) } :: (c.queue p.1).ents })
      ((s.core a.core).unreserve t.reserved)
    { (s.setCore a.core c).setThrOf a { (s.setCore a.core c).thrOf a with popped := [], reserved := [] } with nextId := s.nextId + 1 }

/-- TAKING A TRAP (R390, R391): THR_CAUSE, THR_TRAPPC and THR_TVAL are written; a recoverable cause with
THR_TRAPVEC.EN set and outside the handler goes to the handler address, checked under R89; every other goes to the
supervisor. A trap of an episode context ends the episode (R367). The open convoy ends. DESIGN CHOICE (assumption 74): the next
vector instruction of the handler, or after a resume by PRT_TRAPRES, begins a convoy whatever its CB, as after a restore; R390 ends
the convoy for a handler, and R185 and R397 say nothing of CB there. -/
def State.takeTrap (s : State) (a : Actor) (c : Cause) (tval : Word) (pc : BitVec 53) (defd : Bool) : State :=
  match a with
  | .episode x => s.endEpisode x 4 1 0 0 (wordOf (causeCode c)) tval
  | .slot k i =>
    let s := s.unpop a
    let t := s.thrOf a
    let inh := bitOf t.csr.status 0
    let tries := recoverable c && bitOf t.csr.trapvec 0 && !inh
    let h : BitVec 53 := BitVec.ofNat 53 (bits t.csr.trapvec 52 2 * 4)
    let ok := s.codeOk t.ctx h.toNat
    let csr := { t.csr with cause := causeWord c defd (inh || (tries && !ok)) (tries && !ok),
                            trappc := wordOf (pc.toNat / 4 * 4), tval := tval }
    let t := { t with csr := csr, stage := 0, vals := [], arg := 0, parked := false, withdrawable := false,
                      landing := false, convoyOpen := false, pipes := [], restored := true }
    if tries && ok then
      s.setThrOf a { t with pc := h, csr := { csr with status := setBit csr.status 0 true } }
    else (s.setThrOf a { t with pc := pc }).supervisorTrap k i c

/-- THE RETURN FROM A TRAP (R388): INH is cleared and the pc becomes THR_TRAPPC; the loop stack is untouched. The
first vector instruction after it must begin a convoy (R185). -/
def Thread.trapReturn (t : Thread) : Thread :=
  let t := t.note (.csr t.vseq 0x001 t.csr.status)
  { t.goTo (BitVec.ofNat 53 t.csr.trappc.toNat) t.loops false with
    csr := { t.csr with status := setBit t.csr.status 0 false }, convoyOpen := false, pipes := [], restored := false }

/-- A pending asynchronous trap taken: the oldest, with TIMER behind the deferred ones (R392, R393). -/
def State.takeAsync (s : State) (a : Actor) : State :=
  let t := s.thrOf a
  match t.async with
  | x :: rest => (s.setThrOf a { t with async := rest }).takeTrap a x.cause x.tval t.pc true
  | [] =>
    if t.timerDue then
      (s.setThrOf a { t with timerDue := false, csr := { t.csr with timer := 0 } }).takeTrap a .timer t.csr.timer t.pc true
    else s

/-! ### The consumption of poison (R411) -/

/-- A destination that takes nothing any more: a register; a queue of the core keeps what it is owed. -/
def Dest.quiet : Dest → Dest
  | .queue q tag => .queue q tag
  | _ => .none

/-- What goes on of a request of a thread whose registers have been scrubbed (R411): none for a load to a register and a wait; an
atomic is performed, and lands nothing. -/
def Body.quiet : Body → Option Body
  | .load d p n sg x ro v => match d with
    | .queue q tag => some (.load (.queue q tag) p n sg x ro v)
    | _ => none
  | .qwait .. => none
  | .qwaitReply .. => none
  | .poison _ => none
  | .atomic fn d p n v c x sc o => some (.atomic fn d.quiet p n v c x sc o)
  | .spr 1 p n v fn c d => some (.spr 1 p n v fn c d.quiet)
  | .sprAck 1 p n v o d => some (.sprAck 1 p n v o d.quiet)
  | b => some b

/-- Nothing that a thread has in flight reaches its registers any more (R411). -/
def State.quietAccesses (s : State) (a : Actor) : State :=
  let gone := (s.packets.filter (fun p => p.owner == some a && p.body.quiet.isNone)).map Packet.id
  { s with packets := s.packets.filterMap (fun p =>
             if p.owner == some a then p.body.quiet.map (fun b => { p with body := b }) else some p)
           qwaits := s.qwaits.filter (fun w => !gone.contains w.pkt) }

/-- Packets of engines that satisfy a test dropped: what they were to do is of no effect any more. -/
def State.dropEngine (s : State) (f : EngineRef → Bool) : State :=
  { s with packets := s.packets.filter (fun p => match p.body with | .engine w _ _ => !f w | _ => true) }

/-- Whether an engine's access is a read of the vector unit for a slot, given the stores the slot has confirmed. -/
def EngineRef.readsFor (w : EngineRef) (k i : Nat) (stores : List Nat) : Bool :=
  match w with
  | .vec c x n _ => c == k && x == i && !stores.contains n
  | .vlda c x _ _ _ => c == k && x == i
  | .copy _ _ => false

/-- CONSUMPTION of a poisoned word by a thread: it halts with a POISON record, its registers, vector registers and
claimed tiles are scrubbed, its pending tasks go, and its launch is killed and tainted (R411). What it has in flight reaches its
registers no more; the vector stores it has confirmed are still performed. A thread that is halted by POISON consumes nothing. -/
def State.consumePoison (s : State) (a : Actor) (addr : Word) : State :=
  match a with
  | .episode _ => s.takeTrap a .poison addr (s.thrOf a).pc false
  | .slot k i =>
    if (s.thrOf a).run == .trapped && bits (s.thrOf a).csr.cause 7 0 == causeCode .poison then s
    else
      let s := s.takeTrap a .poison addr (s.thrOf a).pc false
      let t := s.thrOf a
      let s := s.setThrOf a { t with g := [], empty := 0, pending := 0, late := 0, latePend := 0,
                                     vec := { t.vec with v := [], w := [], unlanded := [], bad := [] },
                                     acc := t.acc.map (fun (c : Nat × Tile) => (c.1, ({} : Tile))),
                                     vq := t.vq.filter (fun e => e.confirmed && e.op.major == 13 && (e.op.f5 == 3 || e.op.f5 == 4 || e.op.f5 == 5 || e.op.f5 == 8)), log := [],
                                     faultSeq := none, walking := none }
      let s := (s.setCore k ((s.core k).quietDivs (fun d => d.slot == i))).quietAccesses a
      let s := s.dropEngine (fun w => w.readsFor k i ((s.thrOf a).vq.map VEntry.seq))
      let q := s.quad (k / 4)
      let s := s.setQuad (k / 4) { q with tasks := q.tasks.filter (fun x => !(x.core == k && x.slot == i && x.engine.isNone)) }
      let x := t.tidx.toNat
      s.onLaunch k i (fun l => { l with
        killed := l.killed + 1, status := 1, verdict := 2,
        insts := l.insts.map (fun n =>
          if n.num = x / (l.lrec.threads * l.lrec.cores * l.lrec.clusters) then
            { n with gone := x :: n.gone, killed := x :: n.killed }
          else n) })

/-! ### Issue (R49, R62, R68, R181) -/

/-- What an instruction shows before it executes: its word, the registers it reads and writes in the order of R70,
the privilege it needs (R49, check 7), where it exists (check 6: 0 everywhere, 1 compute cores, 2 episode cores),
whether its effect leaves the thread (R181), whether it dispatches to the vector unit, when its results land, and a
trap found by its word and the thread's mode alone. -/
structure Form where
  word : Nat
  srcs : List Reg := []
  dsts : List Reg := []
  priv : Nat := 0
  sub : Nat := 0
  leaves : Bool := false
  lat : Nat := 3
  pre : Option (Cause × Word) := none

/-- How an instruction's execution ends its turn. -/
inductive Res where
  /-- It raises a cause, with no effect of its own (R12). -/
  | trap (c : Cause) (tval : Word)
  /-- It does not issue: a withdrawable park without effect (R62, R392). -/
  | park
  /-- It does not issue, without effect, in a park that no asynchronous trap withdraws it from (R392). -/
  | hold
  /-- It does not issue, and something outside the thread is set going: a walk, a fault record (R167, R168). -/
  | parkWith (f : State → State)
  /-- It ends its turn with something done to the state before it took its operands: it has not been executed (R12). -/
  | instead (f : State → State)
  /-- It has begun and waits: the state it has reached, and whether the wait can be withdrawn (R392). -/
  | wait (s : State) (withdrawable : Bool)
  /-- It has sent an access and waits for its result, which lands by itself: what is sent, given the waiting destination; the stage
  is 8. -/
  | sent (s : State) (k : State → Dest → State)
  /-- It completes in sequence, with its results. -/
  | done (s : State) (vs : List Word)
  /-- It completes in sequence at a landing point: a YIELD (R97). -/
  | yielded (s : State)
  /-- It completes in sequence, with a result that lands later: what is sent, given the waiting destination. -/
  | later (s : State) (k : State → Dest → State)
  /-- It completes at a target checked under R89, with its results and loop levels. -/
  | jump (s : State) (vs : List Word) (target : BitVec 53) (loops : List LoopLevel) (checked : Bool) (back : Bool)
  /-- It completes in sequence and then raises a cause (R387). -/
  | raises (s : State) (c : Cause) (tval : Word)
  /-- It has set the thread's position, or ended the thread, itself. -/
  | keep (s : State)

/-- The state with no queue entry of the core whose turn it is poisoned. -/
def State.cleanQueues (s : State) : State :=
  let c := s.core s.curCore
  s.setCore s.curCore { c with queues := c.queues.map (fun (q : Nat × Queue) =>
    (q.1, { q.2 with ents := q.2.ents.map (fun e => { e with bad := false }) })) }

/-- What issue finds before execution. -/
inductive Gate where
  | eat
  | trap (c : Cause) (tval : Word)
  | park
  | go (s : State) (xs : List Word)

/-- The checks of issue: R49 checks 6 and 7, what the form found, run-ahead (R181), operands (R68, R71), and poison in the queue
entries it would take (R411); then the sources are read. An instruction that has begun keeps the operands it read. -/
def gate (f : Form) (s : State) : Gate :=
  let t := s.thr
  if (f.sub == 1 && s.cur.isEpisode) || (f.sub == 2 && !s.cur.isEpisode) then
    .trap .illegalInstruction (wordOf f.word)
  else if s.privilege s.cur < f.priv then .trap .privilege (wordOf f.word)
  else if t.stage ≠ 0 then .go s t.vals
  else
    match f.pre with
    | some (c, v) => .trap c v
    | none =>
      if t.runAhead && (f.leaves || (f.srcs ++ f.dsts).any (fun r => (t.mapped r).isSome)) then .park
      else if !s.operandsReady f.srcs f.dsts then (if s.cleanQueues.operandsReady f.srcs f.dsts then .eat else .park)
      else let (xs, s') := s.readSrcs f.srcs
           .go s' xs

/-- The turn of an instruction that does not issue: a bubble (R61, R62). -/
def State.parkTurn (s : State) : State :=
  let t := s.thr
  s.setThr { t with parked := true, withdrawable := t.stage == 0, landing := false }

/-- ACCESS of a fault record (R168): bit 0 read, bit 1 write, bit 2 atomic; kinds 0 load, 1 store, 2 atomic, and 3 for a pc or a
target, which posts no record. DESIGN CHOICE (assumption 75): an atomic sets all three bits, since it reads and writes. -/
def accessBits (kind : Nat) : Nat := match kind with | 0 => 1 | 1 => 2 | 2 => 7 | _ => 0

/-- The log2 of the size of the page an address lies on, as the tables stand: 64 KiB where nothing is mapped. -/
def State.pageShift (s : State) (ctx va : Nat) : Nat :=
  match s.walk ctx va with
  | .leaf _ sh _ => sh
  | .bad _ _ => 16

/-- The walk that resolves the page of an address, whatever core or engine began it (R167). -/
def State.walkOf (s : State) (ctx va : Nat) : Option Packet :=
  s.packets.find? (fun p => p.ctx == ctx && match p.body with
    | .walk _ w _ => let sh := s.pageShift ctx w
                     w / 2 ^ sh == va / 2 ^ sh
    | _ => false)

/-- The core whose walk a packet is: it starts there, and comes back there. -/
def Packet.walkCore (p : Packet) : Nat := if p.net == .rsp then p.dst else p.src

/-- The walks under way on a die: it has 64 walkers (R167). -/
def State.walksOn (s : State) (die : Nat) : Nat :=
  (s.packets.filter (fun p => match p.body with
    | .walk .. => p.walkCore / 256 == die
    | _ => false)).length

/-- A walk sent to the pier of the context's root table, through which it reads its entries (R167, R270). -/
def State.sendWalk (s : State) (a : Actor) (ctx va kind : Nat) : State :=
  let root := (s.ctx ctx).root
  s.send { net := .req, owner := some a, ctx := ctx, cls := 0, src := a.core, dst := pierPort s a.core (s.homeDie root) root,
           body := .walk ctx va (accessBits kind) }

/-- A page that an engine of a core misses: its walk is begun where none resolves the page and a walker is free (R167). -/
def State.needWalk (s : State) (a : Actor) (ctx va kind : Nat) : State :=
  if (s.walkOf ctx va).isSome || decide (64 ≤ s.walksOn (a.core / 256)) then s else s.sendWalk a ctx va kind

/-- The walk an access without a TLB entry begins or joins; its thread parks until it finishes (R167). Where all 64 walkers of
the die are taken it begins none yet. -/
def startWalk (va kind : Nat) (s : State) : State :=
  let ctx := s.curCtx
  let wait := fun (s : State) (id : Nat) => s.setThr { s.thr with walking := some id, walkVa := va, walkAcc := accessBits kind }
  match s.walkOf ctx va with
  | some p => wait s p.id
  | none => if 64 ≤ s.walksOn (s.curCore / 256) then s else wait (s.sendWalk s.cur ctx va kind) s.nextId

/-- The turn of an instruction that raises a cause: in run-ahead it waits for the end of run-ahead (R181). -/
def State.trapTurn (s : State) (c : Cause) (tval : Word) : State :=
  let t := s.thr
  if t.runAhead then s.parkTurn
  else (s.setThr { t with stage := 0, vals := [], arg := 0 }).takeTrap s.cur c tval t.pc false

/-- Whether an instruction's writes found room in the scalar shadow log (R181). -/
def State.logRoom (s : State) : Bool := decide (s.thr.log.length ≤ 16)

/-- A turn that depends on a change of pc, where that needs the check of R89: it goes on, traps BRANCH_TARGET, or parks while the
translation of the target is walked (R62, R89). -/
def State.checked (s : State) (need : Bool) (target : BitVec 53) (go : State) : State :=
  if !need then go
  else
    match s.targetLook s.cur target with
    | .ok => go
    | .bad => s.trapTurn .branchTarget (wordOf target.toNat)
    | .miss => startWalk target.toNat 3 s.parkTurn

/-- The wait of an instruction that has begun: it keeps the operands it read, and the queue entries it took and reserved, which
move together (R71, R72). -/
def State.begun (s : State) (f : Form) (xs : List Word) (first : Bool) (withdrawable : Bool) : State :=
  let t := s.thr
  let took := if first then (f.srcs.zip xs).filterMap (fun p => (t.mapped p.1).map (fun q => (q, p.2))) else t.popped
  let s := if first then s.reserveDsts f.dsts else s
  s.setThr { s.thr with vals := xs, popped := took, parked := true, withdrawable := withdrawable, landing := false }

/-- The turn of an instruction that has been executed, in the state `s` in which it was tried. -/
def settle (f : Form) (s : State) (xs : List Word) (r : Res) : State :=
  let a := s.cur
  let t := s.thr
  let next := t.seqNext.1
  let inSeq := fun (go : State) => s.checked (s.seqChecked a) next go
  match r with
  | .trap c v => s.trapTurn c v
  | .park => s.parkTurn
  | .hold => s.setThr { t with parked := true, withdrawable := false, landing := false }
  | .parkWith f => f s.parkTurn
  | .instead f => f s
  | .wait s' wd => s.checked (t.stage == 0 && s.seqChecked a) next (s'.begun f xs (t.stage == 0) wd)
  | .sent s' k =>
    inSeq (
      let (d, s') := s'.awaitDst (f.dsts.headD 0)
      let s' := k s' d
      let u := s'.thr
      s'.setThr { u with stage := 8, vals := xs, parked := true, withdrawable := false, landing := false,
                         popped := if t.stage = 0 then (f.srcs.zip xs).filterMap (fun p => (t.mapped p.1).map (fun q => (q, p.2)))
                                   else u.popped })
  | .done s' vs =>
    inSeq (
      let s' := s'.putDsts f.dsts vs f.lat
      -- a landing met in a committed wait follows the instruction (R62, R398)
      if s'.logRoom then s'.complete a (decide (4 ≤ t.stage) && t.saveAt.isSome) else s.parkTurn)
  | .yielded s' => inSeq (if s'.logRoom then s'.complete a true else s.parkTurn)
  | .later s' k =>
    inSeq (
      let (d, s') := s'.awaitDst (f.dsts.headD 0)
      let s' := k s' d
      if s'.logRoom then s'.complete a else s.parkTurn)
  | .jump s' vs target loops checked back =>
    s.checked checked target (
      let s' := s'.putDsts f.dsts vs f.lat
      if s'.logRoom then (s'.setThr (s'.thr.goTo target loops back)).countIssue a else s.parkTurn)
  | .raises s' c v =>
    inSeq (
      let s' := s'.complete a
      s'.takeTrap a c v (s'.thrOf a).pc false)
  | .keep s' => s'

/-- THE ISSUE OF AN INSTRUCTION: its checks, its operands, its execution, and how its turn ends. -/
def issue (f : Form) (body : State → List Word → Res) (s : State) : Out :=
  match gate f s with
  | .trap c v => .next (s.trapTurn c v)
  | .park => .next s.parkTurn
  | .eat => .next (s.consumePoison s.cur 0)
  | .go s' xs => .next (settle f s xs (body s' xs))

end Sys2Proof.Machine
end

