-- ==== Sys2Proof/Machine/Flags.lean ====
section
/-! DEFINITION. THR_FPCTL: the rounding mode an instruction takes, the stochastic state and writes of the register
(R126, R127, R123), and the other flag registers a write or an access sets (R156, R309). -/

namespace Sys2Proof.Machine

/-- RM of THR_FPCTL (R126). -/
def Thread.rm (t : Thread) : Nat := bits t.csr.fpctl 2 0

/-- SRSEED of THR_FPCTL (R126). -/
def Thread.srseed (t : Thread) : BitVec 32 := BitVec.ofNat 32 (bits t.csr.fpctl 63 32)

/-- The rounding mode of a code: 0 takes RM as it stands (R120, R127). -/
def Thread.rounding (t : Thread) (code : Nat) : Rnd := .mode (if code = 0 then t.rm else code)

/-- THR_FPCTL with SRSEED replaced; a state of 0 is 1 (R123, R126). -/
def withSeed (w : Word) (s : BitVec 32) : Word := setBits w 63 32 (if s = 0 then 1 else s.toNat)

/-- THR_FPCTL after a write: RM of 0, 6 or 7 leaves RM; reserved bits read 0 (R126, R127). -/
def fpctlWrite (old v : Word) : Word :=
  let rm := bits v 2 0
  let keep := rm = 0 ∨ rm = 6 ∨ rm = 7
  withSeed (wordOf ((if keep then bits old 2 0 else rm) + bits v 7 3 * 8)) (BitVec.ofNat 32 (bits v 63 32))

/-- A local scratchpad access outside the crew's allocation recorded: OOR set, and the pointer kept if OOR was 0
(R155, R156). -/
def Thread.noteOor (t : Thread) (ptr : Word) : Thread :=
  if bitOf t.csr.oorflag 0 then t
  else (t.setCsr 0x013 1).setCsr 0x014 ptr

/-- A request sent to a pier slice of the issuing die (R309). -/
def Thread.notePier (t : Thread) (slice : Nat) : Thread :=
  if bitOf t.csr.tbmask slice then t else t.setCsr 0x01D (setBit t.csr.tbmask slice true)

/-- A request sent to a bank of THR_TBMASKX: bits 0 to 15 vaults of the die, 16 to 19 dies, 20 another package (R309). -/
def Thread.noteBank (t : Thread) (bit : Nat) : Thread :=
  if bitOf t.csr.tbmaskx bit then t else t.setCsr 0x01E (setBit t.csr.tbmaskx bit true)

/-! ### What dispatched vector instructions hold back (R181, R218) -/

/-- A vector store (R193). -/
def VOp.isStore (o : VOp) : Bool := o.major == 13 && (o.f5 == 3 || o.f5 == 4 || o.f5 == 5 || o.f5 == 8)

/-- A vector memory instruction other than VLDA (R193). -/
def VOp.isMem (o : VOp) : Bool := o.major == 13 && o.f5 != 6

/-- Whether a scalar load, or a scalar store, waits for an earlier vector instruction of its thread (R181). -/
def Thread.vecStoresOut (t : Thread) : Bool := t.vq.any (fun e => e.op.isStore)
def Thread.vecAccessesOut (t : Thread) : Bool := t.vq.any (fun e => e.op.isMem)

/-- Whether an instruction rounds stochastically: VCVT of kind 3, or MRD with SR (R218, R251). -/
def VEntry.stochastic (e : VEntry) : Bool :=
  (e.op.major == 16 && e.op.f5 == 2 && e.op.kind == 3) || (e.op.major == 17 && e.op.f5 == 5 && bitOf (e.xs.headD 0) 13)

/-- Whether a dispatched instruction that steps SRSEED is not confirmed (R218). -/
def Thread.srPending (t : Thread) : Bool := t.vq.any (fun e => !e.confirmed && e.stochastic)

end Sys2Proof.Machine
end

