-- ==== Sys2Proof/Machine/Operands.lean ====
section
/-! DEFINITION. Operand forms: the words of the forms (R35), immediates (R36), the pointer of a scalar access and its
checks (R101, R138, R366), crew-relative scratchpad offsets (R153), windows (R158) and vault grants (R162). -/

namespace Sys2Proof.Machine

/-! ### Words by form (R35, R39): what THR_TVAL receives under R50 -/

/-- The low seven bits of a major. -/
def majorBits (major : Nat) : Nat := 4 * major + 3

/-- K form: f7, b, a, f3, d. -/
def wordK (major f7 f3 b a d : Nat) : Nat :=
  f7 * 2 ^ 25 + b * 2 ^ 20 + a * 2 ^ 15 + f3 * 2 ^ 12 + d * 2 ^ 7 + majorBits major

/-- I form: imm12, a, f3, d. -/
def wordI (major f3 imm a d : Nat) : Nat := imm * 2 ^ 20 + a * 2 ^ 15 + f3 * 2 ^ 12 + d * 2 ^ 7 + majorBits major

/-- S form: imm12 split, b, a, f3. -/
def wordS (major f3 imm b a : Nat) : Nat :=
  imm / 32 * 2 ^ 25 + b * 2 ^ 20 + a * 2 ^ 15 + f3 * 2 ^ 12 + imm % 32 * 2 ^ 7 + majorBits major

/-- V form: CB, f5, mk, vb, va, kind, vd. -/
def wordV (major f5 : Nat) (cb mk : Bool) (vb va kind vd : Nat) : Nat :=
  boolNat cb * 2 ^ 31 + f5 * 2 ^ 26 + boolNat mk * 2 ^ 25 + vb * 2 ^ 20 + va * 2 ^ 15 + kind * 2 ^ 12 + vd * 2 ^ 7
    + majorBits major

/-! ### Immediates (R36) -/

/-- The signed imm12 as a word. -/
def sext12 (imm : BitVec 12) : Word := imm.signExtend 64

/-- Four times a signed word offset, as a pc displacement (R36). -/
def branchDisp {n : Nat} (off : BitVec n) : BitVec 53 := (off.signExtend 53) <<< 2

/-- The low `w` bits of a word, zero-extended. -/
def zextLow (x : Word) (w : Nat) : Word := wordOf (x.toNat % 2 ^ w)

/-! ### Pointers (R101, R138) -/

/-- The checks of R101 on a pointer: `writes` for a store, an atomic, a copy destination or a payload target. In an
episode context a path other than GEN and SPL is a POINTER_FAULT (R366). -/
def ptrCheck (user episode writes : Bool) (p : Word) : Option Cause :=
  if ptrPath p = 5 ∨ ptrPath p = 6 then some .pointerFault
  else if episode then
    if ptrPath p = 0 then none
    else if ptrPath p = 2 && bits p 52 18 == 0 then none
    else some .pointerFault
  else if ptrDirty p then some .pointerFault
  else if writes && ptrPath p == 1 then some .pointerFault
  else if ptrPath p == 7 && user then some .privilege
  else none

/-- The checks of R101 for the thread whose turn it is. -/
def State.checkPtr (s : State) (writes : Bool) (p : Word) : Option Cause :=
  ptrCheck (s.privilege s.cur == 0) s.cur.isEpisode writes p

/-- The pointer a base and an offset form, checked (R138): the pointer, or a cause and its THR_TVAL. `n` is the access
size, 0 where none is defined. -/
def State.formPtr (s : State) (a : Word) (imm : Int) (n : Nat) (writes : Bool) : Except (Cause × Word) Word :=
  let ea := (ptrAddr a : Int) + imm
  if ea < 0 ∨ 2 ^ 53 ≤ ea then .error (.pointerFault, a)
  else
    let p := ptrWith a ea.toNat
    match s.checkPtr writes p with
    | some c => .error (c, p)
    | none => if n ≠ 0 ∧ ptrOff p % n ≠ 0 then .error (.pointerFault, p) else .ok p

/-! ### Scratchpad (R153 to R158) -/

/-- The physical scratchpad offset of a crew-relative one, none outside the crew's rows (R153, R155). -/
def Crew.phys (c : Crew) (off : Nat) : Option Nat :=
  if off / 8192 < c.rows then some (off + 8192 * c.base) else none

/-- The crew of a slot's thread on a core. A migrant belongs to no crew of its new core, so its allocation has no
rows (R298). Slot 0 belongs to none either. -/
def State.crewOf (s : State) (k i : Nat) : Crew :=
  let t := s.thrOf (.slot k i)
  match Tab.find? (s.core k).crews t.crew with
  | some c => if c.lid = t.lid ∧ c.ord = t.ord ∧ t.crew ≠ 0 then c else {}
  | none => {}

/-- The index of the crew of a slot's thread on this core, 0 where it has none here. -/
def State.crewIdx (s : State) (k i : Nat) : Nat :=
  if (s.crewOf k i).rows = 0 then 0 else (s.thrOf (.slot k i)).crew

/-- Bytes of a core's scratchpad read, crew-relative; zeros where a byte lies outside (R155). -/
def State.spadRead (s : State) (k : Nat) (c : Crew) (off n : Nat) : Nat :=
  match c.phys off with
  | some o => (s.core k).spad.readLE o n
  | none => 0

/-- Bytes of a core's scratchpad written, crew-relative; dropped outside (R155). -/
def State.spadWrite (s : State) (k : Nat) (c : Crew) (off n val : Nat) : State :=
  match c.phys off with
  | some o => (s.setCore k { s.core k with spad := (s.core k).spad.writeLE o n val }).clearPoison 1 k o n
  | none => s

/-- The work a launch's record gives a thread index: instance, cluster and core ordinal (R335). -/
def LaunchRec.place (r : LaunchRec) (tidx : Nat) : Nat × Nat × Nat :=
  (tidx / (r.threads * r.cores * r.clusters), tidx / (r.threads * r.cores) % r.clusters, tidx / r.threads % r.cores)

/-- Whether a requester lies in the REQ set of a window's owner crew (R157): 0 same gang, 1 same span, 2 same launch,
3 same partition. Gang and span are those of its thread index, wherever the thread now runs (R298, R335). -/
def State.inReq (s : State) (req owner : Nat) (ownerCrew : Crew) (who : Actor) : Bool :=
  let t := s.thrOf who
  let samePart := s.partOfCore owner == s.partOfCore who.core && (s.partOfCore owner).isSome
  let sameLid := samePart && t.lid == ownerCrew.lid
  let lr : Option LaunchRec := match s.partOfCore owner with
    | some p => (s.launch? p t.lid.toNat).map Launch.lrec
    | none => none
  match lr with
  | none => if req = 3 then samePart else sameLid
  | some r =>
    -- a crew's ordinal is R352's floor(TIDX / THREADS), over the crews of a gang and of an instance
    let ord := t.tidx.toNat / r.threads
    match req with
    | 0 => sameLid && ownerCrew.ord / r.cores == ord / r.cores
    | 1 => sameLid && ownerCrew.ord / (r.clusters * r.cores) == ord / (r.clusters * r.cores)
    | 2 => sameLid
    | _ => samePart

/-- Whether the windows of a core admit a remote access of `n` bytes (R158): `right` 0 RD, 1 WR, 2 AT. The windows
are those committed. -/
def State.windowAdmits (s : State) (owner ownerSlot off n right : Nat) (who : Actor) : Bool :=
  let c := s.core owner
  let crew := s.crewIdx owner ownerSlot
  let x := s.crewOf owner ownerSlot
  (List.range 8).any (fun i =>
    let w := Tab.get 0 c.win i
    bitOf w 35 && bits w 39 36 == crew && crew != 0 && decide (bits w 14 0 ≤ off / 16)
      && decide ((off + n - 1) / 16 ≤ bits w 30 16) && bitOf w (32 + right) && s.inReq (bits w 41 40) owner x who)

/-! ### Vaults (R161, R162) -/

/-- The vault of a VLT pointer: die × 16 + vault, which is the cluster beneath it (R100). -/
def vaultOf (p : Word) : Nat := bits p 32 31 * 16 + bits p 30 27

/-- Whether some grant of a context passes an access (R162), and the vault lies in the partition (R161). -/
def State.vaultGrant (s : State) (ctx : Nat) (p : Word) (n : Nat) (write : Bool) : Bool :=
  let off := bits p 26 0
  let c := s.ctx ctx
  (s.part c.part).quarters.getLsbD (vaultOf p / 4) &&
    c.grants.any (fun g => bitOf g 8 && bits g 5 4 == bits p 32 31 && bits g 3 0 == bits p 30 27
      && decide (bits g 26 12 ≤ off / 4096) && decide ((off + n - 1) / 4096 ≤ bits g 41 27)
      && bitOf g (if write then 7 else 6))

end Sys2Proof.Machine
end

