-- ==== Sys2Proof/Machine/Integer.lean ====
section
/-! DEFINITION. The scalar integer instructions (R74 to R82): OPI, OP, OPW, LUI and APC, and the dividers (R65). -/

namespace Sys2Proof.Machine

/-- The i-th operand an instruction has read. -/
def arg (xs : List Word) (i : Nat) : Word := xs.getD i 0

/-- An instruction of one source and one destination that completes at once. -/
def unaryOp (word : Nat) (a d : Reg) (f : Word → Word) : State → Out :=
  issue { word := word, srcs := [a], dsts := [d] } (fun s xs => .done s [f (arg xs 0)])

/-- An instruction of two sources and one destination that completes at once. -/
def binaryOp (word : Nat) (b a d : Reg) (f : Word → Word → Word) : State → Out :=
  issue { word := word, srcs := [a, b], dsts := [d] } (fun s xs => .done s [f (arg xs 0) (arg xs 1)])

/-- 1 or 0 as a word. -/
def boolWord (b : Bool) : Word := if b then 1 else 0

/-- A 32-bit result sign-extended (R80). -/
def sext32 (x : BitVec 32) : Word := x.signExtend 64

/-- The low half of a word. -/
def low32 (x : Word) : BitVec 32 := x.setWidth 32

/-- The number of one bits of a word. -/
def popCount (x : Word) : Nat := ((List.range 64).filter (fun i => x.getLsbD i)).length

/-- The number of zero bits above the highest one bit; 64 if there is none (R78). -/
def leadingZeros (x : Word) : Nat := if x = 0 then 64 else 63 - Nat.log2 x.toNat

/-- The number of zero bits below the lowest one bit; 64 if there is none (R78). -/
def trailingZeros (x : Word) : Nat := ((List.range 64).find? (fun i => x.getLsbD i)).getD 64

/-- Byte k of the result is byte 7 − k (R78). -/
def byteSwap (x : Word) : Word := wordOf (leNat ((bytesLE 8 x.toNat).reverse))

/-- A rotation right (R76, R78). -/
def rotRight (x : Word) (n : Nat) : Word := x.rotateRight n

/-- DIV (R79): b = 0 gives −1; −2^63 / −1 wraps. -/
def divS (a b : Word) : Word := if b = 0 then -1 else a.sdiv b

/-- REM (R79): b = 0 gives a; −2^63 rem −1 gives 0. -/
def remS (a b : Word) : Word := if b = 0 then a else a.srem b

/-- DIVU (R79). -/
def divU (a b : Word) : Word := if b = 0 then -1 else a / b

/-- REMU (R79). -/
def remU (a b : Word) : Word := if b = 0 then a else a % b

/-- DIVW's 32-bit result (R80). -/
def divS32 (a b : BitVec 32) : BitVec 32 := if b = 0 then -1 else a.sdiv b

/-- REMW's 32-bit result (R80). -/
def remS32 (a b : BitVec 32) : BitVec 32 := if b = 0 then a else a.srem b

/-- Where the dividers of an actor stand: those of its core; an episode core e is listed as core 1024 + e (assumption 41). -/
def Actor.divCore : Actor → Nat
  | .slot k _ => k
  | .episode x => 1024 + x / 4

/-- The slot of an actor at its dividers: its slot, or its context within the episode core. -/
def Actor.divSlot : Actor → Nat
  | .slot _ i => i
  | .episode x => x % 4

/-- The actor of a slot at some dividers. -/
def divActor (core slot : Nat) : Actor := if core < 1024 then .slot core slot else .episode (4 * (core - 1024) + slot)

/-- A divide put in one of the core's two dividers (R65): it parks while both are busy. -/
def startDivide (s : State) (v : Word) (flags : Nat) (float : Bool) : Res :=
  let k := s.cur.divCore
  if 2 ≤ (s.core k).divs.length then .park
  else .later s (fun s d =>
    let c := s.core k
    { (s.setCore k { c with divs := c.divs ++ [{ id := s.nextId, slot := s.cur.divSlot, dst := d, val := v,
                                                 flags := flags, float := float, after := s.thr.vseq }] }) with
      nextId := s.nextId + 1 })

/-- An integer divide: its sources are read at issue, its result lands later (R65, R79). -/
def divideOp (word : Nat) (b a d : Reg) (f : Word → Word → Word) : State → Out :=
  issue { word := word, srcs := [a, b], dsts := [d] } (fun s xs => startDivide s (f (arg xs 0) (arg xs 1)) 0 false)

/-- A divider finishes: its result lands and its flags are raised (R65, R127, R129). -/
def execDividerComplete (core id : Nat) (s : State) : Out :=
  let c := s.core core
  match c.divs.find? (fun j => j.id == id) with
  | none => .next s
  | some j =>
    let a := divActor core j.slot
    let s := s.setCore core { c with divs := c.divs.filter (fun x => x.id != id) }
    let t := s.thrOf a
    let s := if s.live a then s.setThrOf a (t.raiseAt j.flags j.after (t.undoable j.after)) else s
    .next (s.landAt a j.dst j.val (some j.after))

/-! ### OPI (R75 to R77) -/

/-- ADDI (R75): rd = a + imm. -/
def execAddi (imm : BitVec 12) (a d : Reg) : State → Out :=
  let i := sext12 imm
  unaryOp (wordI 2 0 imm.toNat a.toNat d.toNat) a d (fun a => a + i)

/-- ANDI (R75): rd = a & imm. -/
def execAndi (imm : BitVec 12) (a d : Reg) : State → Out :=
  let i := sext12 imm
  unaryOp (wordI 2 1 imm.toNat a.toNat d.toNat) a d (fun a => a &&& i)

/-- ORI (R75): rd = a | imm. -/
def execOri (imm : BitVec 12) (a d : Reg) : State → Out :=
  let i := sext12 imm
  unaryOp (wordI 2 2 imm.toNat a.toNat d.toNat) a d (fun a => a ||| i)

/-- XORI (R75): rd = a ^ imm. -/
def execXori (imm : BitVec 12) (a d : Reg) : State → Out :=
  let i := sext12 imm
  unaryOp (wordI 2 3 imm.toNat a.toNat d.toNat) a d (fun a => a ^^^ i)

/-- SLTI (R75): rd = 1 if s(a) < s(imm), else 0. -/
def execSlti (imm : BitVec 12) (a d : Reg) : State → Out :=
  let i := sext12 imm
  unaryOp (wordI 2 4 imm.toNat a.toNat d.toNat) a d (fun a => boolWord (a.slt i))

/-- SLTIU (R75): rd = 1 if u(a) < u(imm), else 0. -/
def execSltiu (imm : BitVec 12) (a d : Reg) : State → Out :=
  let i := sext12 imm
  unaryOp (wordI 2 5 imm.toNat a.toNat d.toNat) a d (fun a => boolWord (a.ult i))

/-- SLLI (R76): rd = a << n. -/
def execSlli (n : BitVec 6) (a d : Reg) : State → Out :=
  unaryOp (wordI 2 6 (0 * 1024 + n.toNat) a.toNat d.toNat) a d (fun a => a <<< n.toNat)

/-- SRLI (R76): rd = u(a) >> n. -/
def execSrli (n : BitVec 6) (a d : Reg) : State → Out :=
  unaryOp (wordI 2 6 (1 * 1024 + n.toNat) a.toNat d.toNat) a d (fun a => a >>> n.toNat)

/-- SRAI (R76): rd = s(a) >> n. -/
def execSrai (n : BitVec 6) (a d : Reg) : State → Out :=
  unaryOp (wordI 2 6 (2 * 1024 + n.toNat) a.toNat d.toNat) a d (fun a => a.sshiftRight n.toNat)

/-- RORI (R76): a rotated right by n. -/
def execRori (n : BitVec 6) (a d : Reg) : State → Out :=
  unaryOp (wordI 2 6 (3 * 1024 + n.toNat) a.toNat d.toNat) a d (fun a => rotRight a n.toNat)

/-- SEXTB (R77). -/
def execSextb (a d : Reg) : State → Out :=
  unaryOp (wordI 2 7 (0 * 512) a.toNat d.toNat) a d (fun a => sextLow a 8)

/-- SEXTH (R77). -/
def execSexth (a d : Reg) : State → Out :=
  unaryOp (wordI 2 7 (1 * 512) a.toNat d.toNat) a d (fun a => sextLow a 16)

/-- SEXTW (R77). -/
def execSextw (a d : Reg) : State → Out :=
  unaryOp (wordI 2 7 (2 * 512) a.toNat d.toNat) a d (fun a => sextLow a 32)

/-- ZEXTB (R77). -/
def execZextb (a d : Reg) : State → Out :=
  unaryOp (wordI 2 7 (3 * 512) a.toNat d.toNat) a d (fun a => zextLow a 8)

/-- ZEXTH (R77). -/
def execZexth (a d : Reg) : State → Out :=
  unaryOp (wordI 2 7 (4 * 512) a.toNat d.toNat) a d (fun a => zextLow a 16)

/-- ZEXTW (R77). -/
def execZextw (a d : Reg) : State → Out :=
  unaryOp (wordI 2 7 (5 * 512) a.toNat d.toNat) a d (fun a => zextLow a 32)

/-! ### OP (R78, R79) -/

/-- ADD (R78): rd = a + b. -/
def execAdd (b a d : Reg) : State → Out :=
  binaryOp (wordK 3 0 0 b.toNat a.toNat d.toNat) b a d (fun x y => x + y)

/-- SUB (R78): rd = a − b. -/
def execSub (b a d : Reg) : State → Out :=
  binaryOp (wordK 3 1 0 b.toNat a.toNat d.toNat) b a d (fun x y => x - y)

/-- AND (R78): rd = a & b. -/
def execAnd (b a d : Reg) : State → Out :=
  binaryOp (wordK 3 2 0 b.toNat a.toNat d.toNat) b a d (fun x y => x &&& y)

/-- OR (R78): rd = a | b. -/
def execOr (b a d : Reg) : State → Out :=
  binaryOp (wordK 3 3 0 b.toNat a.toNat d.toNat) b a d (fun x y => x ||| y)

/-- XOR (R78): rd = a ^ b. -/
def execXor (b a d : Reg) : State → Out :=
  binaryOp (wordK 3 4 0 b.toNat a.toNat d.toNat) b a d (fun x y => x ^^^ y)

/-- SLL (R78): rd = a << b[5:0]. -/
def execSll (b a d : Reg) : State → Out :=
  binaryOp (wordK 3 5 0 b.toNat a.toNat d.toNat) b a d (fun x y => x <<< (y.toNat % 64))

/-- SRL (R78): rd = u(a) >> b[5:0]. -/
def execSrl (b a d : Reg) : State → Out :=
  binaryOp (wordK 3 6 0 b.toNat a.toNat d.toNat) b a d (fun x y => x >>> (y.toNat % 64))

/-- SRA (R78): rd = s(a) >> b[5:0]. -/
def execSra (b a d : Reg) : State → Out :=
  binaryOp (wordK 3 7 0 b.toNat a.toNat d.toNat) b a d (fun x y => x.sshiftRight (y.toNat % 64))

/-- ROR (R78): a rotated right by b[5:0]. -/
def execRor (b a d : Reg) : State → Out :=
  binaryOp (wordK 3 8 0 b.toNat a.toNat d.toNat) b a d (fun x y => rotRight x (y.toNat % 64))

/-- SLT (R78): rd = 1 if s(a) < s(b), else 0. -/
def execSlt (b a d : Reg) : State → Out :=
  binaryOp (wordK 3 9 0 b.toNat a.toNat d.toNat) b a d (fun x y => boolWord (x.slt y))

/-- SLTU (R78): rd = 1 if u(a) < u(b), else 0. -/
def execSltu (b a d : Reg) : State → Out :=
  binaryOp (wordK 3 10 0 b.toNat a.toNat d.toNat) b a d (fun x y => boolWord (x.ult y))

/-- MIN (R78): signed minimum. -/
def execMin (b a d : Reg) : State → Out :=
  binaryOp (wordK 3 11 0 b.toNat a.toNat d.toNat) b a d (fun x y => if x.slt y then x else y)

/-- MAX (R78): signed maximum. -/
def execMax (b a d : Reg) : State → Out :=
  binaryOp (wordK 3 12 0 b.toNat a.toNat d.toNat) b a d (fun x y => if x.slt y then y else x)

/-- MINU (R78): unsigned minimum. -/
def execMinu (b a d : Reg) : State → Out :=
  binaryOp (wordK 3 13 0 b.toNat a.toNat d.toNat) b a d (fun x y => if x.ult y then x else y)

/-- MAXU (R78): unsigned maximum. -/
def execMaxu (b a d : Reg) : State → Out :=
  binaryOp (wordK 3 14 0 b.toNat a.toNat d.toNat) b a d (fun x y => if x.ult y then y else x)

/-- MUL (R78): rd = (a × b)[63:0]. -/
def execMul (b a d : Reg) : State → Out :=
  binaryOp (wordK 3 15 0 b.toNat a.toNat d.toNat) b a d (fun x y => x * y)

/-- MULH (R78): rd = (s(a) × s(b))[127:64]. -/
def execMulh (b a d : Reg) : State → Out :=
  binaryOp (wordK 3 16 0 b.toNat a.toNat d.toNat) b a d (fun x y => BitVec.ofInt 64 (x.toInt * y.toInt / 2 ^ 64))

/-- MULHU (R78): rd = (u(a) × u(b))[127:64]. -/
def execMulhu (b a d : Reg) : State → Out :=
  binaryOp (wordK 3 17 0 b.toNat a.toNat d.toNat) b a d (fun x y => wordOf (x.toNat * y.toNat / 2 ^ 64))

/-- DIV (R79). -/
def execDiv (b a d : Reg) : State → Out := divideOp (wordK 3 18 0 b.toNat a.toNat d.toNat) b a d divS

/-- DIVU (R79). -/
def execDivu (b a d : Reg) : State → Out := divideOp (wordK 3 19 0 b.toNat a.toNat d.toNat) b a d divU

/-- REM (R79). -/
def execRem (b a d : Reg) : State → Out := divideOp (wordK 3 20 0 b.toNat a.toNat d.toNat) b a d remS

/-- REMU (R79). -/
def execRemu (b a d : Reg) : State → Out := divideOp (wordK 3 21 0 b.toNat a.toNat d.toNat) b a d remU

/-- CLZ (R78). -/
def execClz (a d : Reg) : State → Out :=
  unaryOp (wordK 3 22 0 0 a.toNat d.toNat) a d (fun x => wordOf (leadingZeros x))

/-- CTZ (R78). -/
def execCtz (a d : Reg) : State → Out :=
  unaryOp (wordK 3 23 0 0 a.toNat d.toNat) a d (fun x => wordOf (trailingZeros x))

/-- POPC (R78). -/
def execPopc (a d : Reg) : State → Out :=
  unaryOp (wordK 3 24 0 0 a.toNat d.toNat) a d (fun x => wordOf (popCount x))

/-- BSWAP (R78). -/
def execBswap (a d : Reg) : State → Out :=
  unaryOp (wordK 3 25 0 0 a.toNat d.toNat) a d (fun x => byteSwap x)

/-- SEL (R78): rd = a if the old rd ≠ 0, else b. gd is read as the selector, after a and b. -/
def execSel (b a d : Reg) : State → Out :=
  issue { word := wordK 3 26 0 b.toNat a.toNat d.toNat, srcs := [a, b, d], dsts := [d] } (fun s xs =>
    .done s [if arg xs 2 ≠ 0 then arg xs 0 else arg xs 1])

/-- ANDN (R78): rd = a & ~b. -/
def execAndn (b a d : Reg) : State → Out :=
  binaryOp (wordK 3 27 0 b.toNat a.toNat d.toNat) b a d (fun x y => x &&& ~~~ y)

/-! ### OPW (R80) -/

/-- ADDW (R80). -/
def execAddw (b a d : Reg) : State → Out :=
  binaryOp (wordK 4 0 0 b.toNat a.toNat d.toNat) b a d (fun x y => sext32 (low32 x + low32 y))

/-- SUBW (R80). -/
def execSubw (b a d : Reg) : State → Out :=
  binaryOp (wordK 4 1 0 b.toNat a.toNat d.toNat) b a d (fun x y => sext32 (low32 x - low32 y))

/-- MULW (R80). -/
def execMulw (b a d : Reg) : State → Out :=
  binaryOp (wordK 4 2 0 b.toNat a.toNat d.toNat) b a d (fun x y => sext32 (low32 x * low32 y))

/-- SLLW (R80). -/
def execSllw (b a d : Reg) : State → Out :=
  binaryOp (wordK 4 3 0 b.toNat a.toNat d.toNat) b a d (fun x y => sext32 (low32 x <<< (y.toNat % 32)))

/-- SRLW (R80). -/
def execSrlw (b a d : Reg) : State → Out :=
  binaryOp (wordK 4 4 0 b.toNat a.toNat d.toNat) b a d (fun x y => sext32 (low32 x >>> (y.toNat % 32)))

/-- SRAW (R80). -/
def execSraw (b a d : Reg) : State → Out :=
  binaryOp (wordK 4 5 0 b.toNat a.toNat d.toNat) b a d (fun x y => sext32 ((low32 x).sshiftRight (y.toNat % 32)))

/-- DIVW (R80). -/
def execDivw (b a d : Reg) : State → Out :=
  divideOp (wordK 4 6 0 b.toNat a.toNat d.toNat) b a d (fun x y => sext32 (divS32 (low32 x) (low32 y)))

/-- REMW (R80). -/
def execRemw (b a d : Reg) : State → Out :=
  divideOp (wordK 4 7 0 b.toNat a.toNat d.toNat) b a d (fun x y => sext32 (remS32 (low32 x) (low32 y)))

/-! ### LUI and APC (R81, R82) -/

/-- LUI (R81): rd = sext(imm20 << 12, 32). -/
def execLui (imm : BitVec 20) (d : Reg) : State → Out :=
  issue { word := imm.toNat * 4096 + d.toNat * 128 + majorBits 5, dsts := [d] } (fun s _ =>
    .done s [((imm ++ (0 : BitVec 12)).signExtend 64)])

/-- APC (R82): a GEN pointer to pc + sext(imm20 << 12, 32), modulo 2^53. -/
def execApc (imm : BitVec 20) (d : Reg) : State → Out :=
  issue { word := imm.toNat * 4096 + d.toNat * 128 + majorBits 6, dsts := [d] } (fun s _ =>
    .done s [((s.thr.pc + (imm ++ (0 : BitVec 12)).signExtend 53).setWidth 64)])

end Sys2Proof.Machine
end

