-- ==== Sys2Proof/Machine/Control.lean ====
section
/-! DEFINITION. Branches, jumps, hardware loops and YIELD (R83 to R98). -/

namespace Sys2Proof.Machine

/-- The word of a branch (R90). -/
def wordB (f3 : Nat) (off : BitVec 12) (b a : Reg) : Nat := wordS 7 f3 off.toNat b.toNat a.toNat

/-- A branch at the thread's pc: taken, to its target; else on in sequence (R90). -/
def branchTo (s : State) (off : BitVec 12) (taken : Bool) : Res :=
  if taken then .jump s [] (s.thr.pc + branchDisp off) s.thr.loops true false else .done s []

/-- A compare-and-branch (R90). -/
def branchOp (f3 : Nat) (off : BitVec 12) (b a : Reg) (cond : Word → Word → Bool) : State → Out :=
  issue { word := wordB f3 off b a, srcs := [a, b] } (fun s xs => branchTo s off (cond (arg xs 0) (arg xs 1)))

/-- BEQ (R90). -/
def execBeq (off : BitVec 12) (b a : Reg) : State → Out := branchOp 0 off b a (fun x y => x == y)

/-- BNE (R90). -/
def execBne (off : BitVec 12) (b a : Reg) : State → Out := branchOp 1 off b a (fun x y => x != y)

/-- BLT (R90): signed. -/
def execBlt (off : BitVec 12) (b a : Reg) : State → Out := branchOp 2 off b a (fun x y => x.slt y)

/-- BGE (R90): signed. -/
def execBge (off : BitVec 12) (b a : Reg) : State → Out := branchOp 3 off b a (fun x y => !x.slt y)

/-- BLTU (R90). -/
def execBltu (off : BitVec 12) (b a : Reg) : State → Out := branchOp 4 off b a (fun x y => x.ult y)

/-- BGEU (R90). -/
def execBgeu (off : BitVec 12) (b a : Reg) : State → Out := branchOp 5 off b a (fun x y => !x.ult y)

/-- Whether a register tests as full: its bit, or for a mapped register a landed head entry (R70, R90). -/
def State.testsFull (s : State) (r : Reg) : Bool :=
  match s.thr.mapped r with
  | some i => ((s.core s.curCore).queue i).canPop s.now 1
  | none => s.thr.seenFull s.now r

/-- BFULL (R90): taken when the register is full; it never parks on it and changes nothing. -/
def execBfull (off : BitVec 12) (a : Reg) : State → Out :=
  issue { word := wordB 6 off 0 a } (fun s _ => branchTo s off (s.testsFull a))

/-- BEMPTY (R90): taken when the register is empty or pending. -/
def execBempty (off : BitVec 12) (a : Reg) : State → Out :=
  issue { word := wordB 7 off 0 a } (fun s _ => branchTo s off (!s.testsFull a))

/-- The link a jump writes: a GEN pointer to pc + 4, format RAW (R91). -/
def State.link (s : State) : Word := (s.thr.pc + 4).setWidth 64

/-- JAL (R91). -/
def execJal (off : BitVec 20) (d : Reg) : State → Out :=
  issue { word := off.toNat * 4096 + d.toNat * 128 + majorBits 8, dsts := [d] } (fun s _ =>
    .jump s [s.link] (s.thr.pc + branchDisp off) s.thr.loops true false)

/-- JALR (R92): path, format and L of a are ignored; a is read before rd is written. -/
def execJalr (imm : BitVec 12) (a d : Reg) : State → Out :=
  issue { word := wordI 9 0 imm.toNat a.toNat d.toNat, srcs := [a], dsts := [d] } (fun s xs =>
    .jump s [s.link] ((arg xs 0).setWidth 53 + imm.signExtend 53) s.thr.loops true false)

/-! ### The LOOP class (R93 to R96) -/

/-- Whether a step from pc to pc + 4 must pass R89: it enters another page, or the thread is an episode's. -/
def State.stepChecked (s : State) : Bool :=
  s.cur.isEpisode || (s.thr.pc + 4).toNat / 65536 != s.thr.pc.toNat / 65536

/-- A loop of `n` iterations of the `len` instructions that follow (R93): opened, or skipped where n is 0. -/
def openLoop (s : State) (n : Nat) (len : BitVec 12) : Res :=
  let t := s.thr
  let last : BitVec 53 := t.pc + BitVec.ofNat 53 (4 * len.toNat)
  if 2 ^ 32 ≤ n then .trap .loopFault 2
  else if n = 0 then
    match t.loops with
    | l :: _ =>
      if l.stop = last then
        let (pc, loops, back) := loopStep last t.loops
        .jump s [] pc loops (!back) back
      else .jump s [] (last + 4) t.loops true false
    | [] => .jump s [] (last + 4) t.loops true false
  else if t.loops.length = 6 then .trap .loopFault 1
  else
    .jump s [] (t.pc + 4)
      ({ count := BitVec.ofNat 32 n, index := 0, start := t.pc + 4, stop := last } :: t.loops) s.stepChecked false

/-- LOOP (R93): the count is read once from ga. -/
def execLoop (len : BitVec 12) (a : Reg) : State → Out :=
  issue { word := wordI 10 0 len.toNat a.toNat 0, srcs := [a] } (fun s xs => openLoop s (arg xs 0).toNat len)

/-- LOOPI (R93): an immediate count, 0 to 1,023. -/
def execLoopi (len : BitVec 12) (count : BitVec 10) : State → Out :=
  issue { word := wordI 10 1 len.toNat (count.toNat / 32) (count.toNat % 32) } (fun s _ => openLoop s count.toNat len)

/-- LBRK (R94): level 0 is left; where the enclosing level ends at the same instruction its step follows. -/
def execLbrk : State → Out :=
  issue { word := wordI 10 2 0 0 0 } (fun s _ =>
    match s.thr.loops with
    | [] => .trap .loopFault 3
    | l :: rest =>
      match s.targetLook s.cur (l.stop + 4) with
      | .bad => .trap .branchTarget (wordOf (l.stop + 4).toNat)
      | .miss => .parkWith (startWalk (l.stop + 4).toNat 3)
      | .ok =>
        match rest with
        | m :: _ =>
          if m.stop = l.stop then
            let (pc, loops, back) := loopStep l.stop rest
            .jump s [] pc loops (!back) back
          else .jump s [] (l.stop + 4) rest false false
        | [] => .jump s [] (l.stop + 4) rest false false)

/-- LNEXT (R95): the loop step of R85, with the LNEXT in place of the instruction at end(l0). -/
def execLnext : State → Out :=
  issue { word := wordI 10 3 0 0 0 } (fun s _ =>
    match s.thr.loops with
    | [] => .trap .loopFault 3
    | l :: _ =>
      let (pc, loops, back) := loopStep l.stop s.thr.loops
      .jump s [] pc loops (!back) back)

/-- LIDX (R96): the index of a level; a level at or beyond the depth raises LOOP_FAULT 4. -/
def execLidx (level : BitVec 3) (d : Reg) : State → Out :=
  issue { word := wordI 10 4 level.toNat 0 d.toNat, dsts := [d] } (fun s _ =>
    match s.thr.loops[level.toNat]? with
    | some l => .done s [l.index.setWidth 64]
    | none => .trap .loopFault 4)

/-- YIELD (R97): THR_LIVETILE takes the mask, and the completion is a landing point. -/
def execYield (mask : BitVec 8) : State → Out :=
  issue { word := wordI 10 5 mask.toNat 0 0 } (fun s _ =>
    .yielded (s.setThr (s.thr.setCsr 0x011 (mask.setWidth 64))))

end Sys2Proof.Machine
end

