-- ==== Sys2Proof/Machine/Ranks.lean ====
section
/-! DEFINITION. Ranks: the rank directory, the authoritative entries at the home cores, and the thread a rank names
(R282 to R285). -/

namespace Sys2Proof.Machine

/-- The fields of a rank's coordinate word (R283); a directory entry has the first four (R282). -/
def coordPkg (w : Word) : Nat := bits w 7 0
def coordCore (w : Word) : Nat := bits w 9 8 * 256 + bits w 13 10 * 16 + bits w 17 14
def coordSlot (w : Word) : Nat := bits w 21 18
def coordPin (w : Word) : Bool := bitOf w 22
def coordV (w : Word) : Bool := bitOf w 23

/-- The coordinate word of a slot of this package. -/
def State.coordOf (s : State) (core slot : Nat) : Word :=
  wordOf (s.pkg % 256 + core / 256 * 2 ^ 8 + core / 16 % 16 * 2 ^ 10 + core % 16 * 2 ^ 14 + slot * 2 ^ 18 + 2 ^ 23)

/-- Entry `j` of a context's rank directory (R282). -/
def State.dirEntry (s : State) (ctx j : Nat) : Word := wordOf (s.mem.readLE ((s.ctx ctx).rankDir + 4 * j) 4)

/-- Whether a directory entry names core `k` of this package. -/
def State.dirNames (s : State) (ctx j k : Nat) : Bool :=
  let e := s.dirEntry ctx j
  bitOf e 31 && coordPkg e == s.pkg && coordCore e == k

/-- Whether an entry is the first of its partition to name its core: every later one counts as V = 0 (R282). -/
def State.dirFirst (s : State) (ctx j k : Nat) : Bool :=
  let part := (s.ctx ctx).part
  !s.ctxs.any (fun c => c.2.part == part &&
    (if c.1 < ctx then (List.range 1024).any (fun i => s.dirNames c.1 i k)
     else c.1 == ctx && (List.range j).any (fun i => s.dirNames ctx i k)))

/-- The home of a rank: none where it names no thread, else the package and core of its directory entry (R282). -/
def State.rankHome (s : State) (ctx rank : Nat) : Option (Nat × Nat) :=
  let j := rank / 1024
  let e := s.dirEntry ctx j
  if !bitOf e 31 then none
  else if coordPkg e != s.pkg then some (coordPkg e, coordCore e)
  else if s.dirFirst ctx j (coordCore e) then some (s.pkg, coordCore e)
  else none

/-- The number of a rank's entry among those a home core holds. -/
def homeKey (ctx rank : Nat) : Nat := ctx * 2 ^ 20 + rank

/-- A rank's authoritative entry at its home core (R283). -/
def State.homeEntry (s : State) (core ctx rank : Nat) : HomeEntry := Tab.get {} (s.core core).homes (homeKey ctx rank)

/-- The state with an authoritative entry replaced. -/
def State.setHomeEntry (s : State) (core ctx rank : Nat) (e : HomeEntry) : State :=
  s.setCore core { s.core core with homes := Tab.set (s.core core).homes (homeKey ctx rank) e }

/-- THR_RANK as RANK, PIN and V give it (R284). -/
def rankWord (rank : Nat) (pin v : Bool) : Word := wordOf (rank % 2 ^ 20 + boolNat pin * 2 ^ 20 + boolNat v * 2 ^ 21)

/-- Whether a slot holds the thread of a rank (R285). -/
def State.slotHasRank (s : State) (core slot ctx rank : Nat) : Bool :=
  match Tab.find? (s.core core).slots slot with
  | some t => t.ctx == ctx && bitOf t.csr.rank 21 && bits t.csr.rank 19 0 == rank && t.run != .swapping
    && t.run != .killed
  | none => false

/-- The pins of a context leave a core with its last thread there (R142). -/
def State.unpin (s : State) (k ctx : Nat) : State :=
  if (s.core k).slots.any (fun t => t.2.ctx == ctx) then s
  else s.setLinesAt 0 k ((s.linesAt 0 k).map (fun l => if l.ctx = ctx then { l with pin := false } else l))

/-- Where a rank's thread is. -/
inductive Where where
  | nowhere
  | here (core slot : Nat)
  | moving
  | away
  deriving DecidableEq, Repr

/-- The thread a rank names, as its directory and home entries resolve it (R282, R283, R285). A rank between its
departure and its arrival is moving (R301). -/
def State.resolveRank (s : State) (ctx rank : Nat) : Where :=
  match s.rankHome ctx rank with
  | none => .nowhere
  | some (pkg, k) =>
    if pkg ≠ s.pkg then .away
    else
      let e := s.homeEntry k ctx rank
      if !coordV e.word then .nowhere
      else if coordPkg e.word ≠ s.pkg then .away
      else if e.transit || s.packets.any (fun p => p.ctx == ctx && match p.body with
          | .depart r _ => r == rank
          | _ => false) then .moving
      else if s.slotHasRank (coordCore e.word) (coordSlot e.word) ctx rank then
        .here (coordCore e.word) (coordSlot e.word)
      else .nowhere

/-- The answer to a fetch of a rank's entry that has reached the core of the thread whose turn it is. -/
def State.rankAnswer (s : State) (rank : Nat) : Option (Nat × Word × Bool) :=
  s.packets.findSome? (fun p => match p.body with
    | .rankTold r w m => if p.owner == some s.cur && r == rank && s.ready p then some (p.id, w, m) else none
    | _ => none)

/-- Whether a fetch of a rank's entry by the thread whose turn it is is under way. -/
def State.rankAsked (s : State) (rank : Nat) : Bool :=
  s.packets.any (fun p => p.owner == some s.cur && match p.body with
    | .rankAsk r => r == rank
    | .rankTold r _ _ => r == rank
    | _ => false)

/-- Where an entry places a rank, as a core that learns it takes it: whether the thread is there shows on its own core (R285). -/
def State.placeOf (s : State) (ctx rank : Nat) (w : Word) (transit : Bool) : Where :=
  if !coordV w then .nowhere
  else if coordPkg w ≠ s.pkg then .away
  else if transit then .moving
  else if coordCore w = s.curCore && !s.slotHasRank (coordCore w) (coordSlot w) ctx rank then .nowhere
  else .here (coordCore w) (coordSlot w)

/-- An instruction that resolves a rank under R285: from the pinned entry that the core's interface has cached, or from the home's
entry, which it fetches while the thread parks; a fetched pinned entry is cached. A cached entry that names a slot of this core without
the thread is dropped. Where the home is the core itself nothing is sent. -/
def withRank (s : State) (rank : Nat) (k : Where → State → Res) : Res :=
  let c := s.core s.curCore
  let ctx := s.curCtx
  let key := homeKey ctx rank
  match s.rankHome ctx rank with
  | none => k .nowhere s
  | some (pkg, h) =>
    if pkg ≠ s.pkg then k .away s
    else
      match Tab.find? c.rankCache key with
      | some w =>
        if s.placeOf ctx rank w false = .nowhere then
          .parkWith (fun s => s.setCore s.curCore { s.core s.curCore with rankCache := Tab.erase (s.core s.curCore).rankCache key })
        else k (s.placeOf ctx rank w false) s
      | none =>
        if h = s.curCore then k (s.placeOf ctx rank (s.homeEntry h ctx rank).word (s.homeEntry h ctx rank).transit) s
        else
          match s.rankAnswer rank with
          | some (id, w, m) =>
            let s := s.dropPacket id
            let s := if coordV w && coordPin w && !m then s.setCore s.curCore { c with rankCache := Tab.set c.rankCache key w } else s
            k (s.placeOf ctx rank w m) s
          | none =>
            if s.rankAsked rank then .park
            else .parkWith (fun s => s.send { net := .msg, owner := some s.cur, ctx := ctx, cls := 2, src := s.curCore, dst := h,
                                              body := .rankAsk rank })

/-- THR_TVAL of a MESSAGE_NACK, as R291 lays it out. -/
def nackWord (rank cls kind : Nat) : Word := wordOf (rank % 2 ^ 20 + cls % 16 * 2 ^ 20 + kind * 2 ^ 24)

end Sys2Proof.Machine
end

