-- ==== Sys2Proof/Machine/Release.lean ====
section
/-! DEFINITION. ACQ, REL and FENCE with what they set going: registrations, their replies, deregistration notices and
fence probes (R304 to R314), and XFENCE (R315, R316). -/

namespace Sys2Proof.Machine

/-! ### What a thread has outstanding -/

/-- A load, atomic or wait that has not landed (R311). -/
def Body.isLoad : Body → Bool
  | .load .. => true
  | .atomic .. => true
  | .qwait .. => true
  | .qwaitReply .. => true
  | .spr 1 .. => true
  | .sprAck 1 .. => true
  | .sprRefuse 1 .. => true
  | .poison _ => true
  | _ => false

/-- A GEN access that has left its core and is not performed (R313): misses and line fetches, accesses at a home pier, atomics,
and what a CFLUSH or a release sent. -/
def Body.isGen : Body → Bool
  | .load _ p _ _ (some _) _ none => ptrPath p == 0
  | .fetch .. => true
  | .store .. => true
  | .atomic _ _ p _ _ _ _ _ _ => ptrPath p == 0
  | .regis .. => true
  | .regisReply .. => true
  | .notice .. => true
  | _ => false

/-- An RO load that has left its core and has not landed (R313, R333). -/
def Body.isRo : Body → Bool
  | .load _ p _ _ (some _) _ none => ptrPath p == 1
  | _ => false

/-- A sub-word store whose line is being fetched: its bytes are not merged yet (R147). -/
def Body.isNarrow : Body → Bool
  | .fetch _ _ (some _) => true
  | _ => false

/-- A remote scratchpad access not yet answered (R313). -/
def Body.isSpr : Body → Bool
  | .spr .. => true
  | .sprAck .. => true
  | .sprRefuse .. => true
  | _ => false

/-- A vault access not yet performed (R313). -/
def Body.isVlt : Body → Bool
  | .pstore p _ _ => ptrPath p == 4
  | .load _ p _ _ _ _ none => ptrPath p == 4
  | .atomic _ _ p _ _ _ _ _ _ => ptrPath p == 4
  | _ => false

/-- A fence probe. -/
def Body.isProbe : Body → Bool
  | .probe => true
  | _ => false

/-- Whether an actor has an outstanding packet of a kind. -/
def State.owes (s : State) (a : Actor) (f : Body → Bool) : Bool :=
  s.packets.any (fun p => p.owner == some a && f p.body)

/-- Whether an actor has an outstanding SEND, SENDQ or FILL (R289, R313). -/
def State.owesMessage (s : State) (a : Actor) : Bool :=
  (s.core a.core).sendbuf.any (fun e => e.slot == a.slotNum)

/-- The banks a request to a physical address reaches, noted in the masks of R309: the pier slice of the issuing die
that is its home or holds it as a visitor, and the home die where the request goes on (R152). -/
def Thread.noteHome (t : Thread) (s : State) (core pa : Nat) (on : Bool) : Thread :=
  let die := core / 256
  let t := t.notePier (s.visitSlice core pa % 64)
  if s.homeDie pa ≠ die && on then t.noteBank (16 + s.homeDie pa) else t

/-- Whether the visitor slice of a core lacks the sector of an address, so that a request for it goes on to its home (R152). -/
def State.visitorMiss (s : State) (core pa : Nat) : Bool :=
  !(s.sectorAt 2 (s.visitSlice core pa) (pa / 256) (pa / 128 % 2)).valid

/-- The banks that a request leaving a core's caches reaches, noted: none where the cluster cache has what it asks for. -/
def Thread.noteMiss (t : Thread) (s : State) (core pa : Nat) (inCC : Bool) : Thread :=
  if inCC then t else t.noteHome s core pa (s.visitorMiss core pa)

/-- The banks that a request for an access at the home pier reaches, noted: its slice on the own die, or the home die. -/
def Thread.noteDirect (t : Thread) (s : State) (core pa : Nat) : Thread :=
  if s.homeDie pa = core / 256 then t.notePier (s.visitSlice core pa % 64) else t.noteBank (16 + s.homeDie pa)

/-! ### Registration (R305, R306) -/

/-- The level below a unit's cache, for a line. -/
def belowOf (s : State) (level unit line : Nat) : Below :=
  match level with
  | 0 => belowL1 s (unit / 16) line
  | 1 => belowCC s unit line
  | _ => belowHome

/-- The code a unit has at the level below its cache. -/
def unitCodeOf (level unit : Nat) : Nat := if level = 2 then visitorUnit unit else unit

/-- Where a registrant's code of the level below `level` lies: its cache's level and unit; none for engines. -/
def registrantAt (level code : Nat) : Option (Nat × Nat) :=
  if level = 0 then (if code = copyUnit then none else some (0, code))
  else if code < 64 then some (1, code)
  else if code < 320 then some (2, code - 64)
  else none

/-- The port at which a cache is reached: an L1 and a cluster cache at a core's, a pier slice at its own (R271). -/
def unitPort (level unit : Nat) : Nat := if level = 0 then unit else if level = 1 then 16 * unit else slicePort 0 unit

/-- Whether a region is named in a mask; region 0 never is (R308). -/
def named (mask : Word) (region : Nat) : Bool := region != 0 && bitOf mask region

/-- The sectors of a cache whose dirty words a release of a mask sends: line, sector number and sector. -/
def dirtyNamed (ls : List Line) (mask : Word) : List (Nat × Nat × Sector) :=
  (ls.flatMap (fun l => [(l.line, 0, l.s0), (l.line, 1, l.s1)])).filter
    (fun x => x.2.2.dirty != 0 && named mask x.2.2.region)

/-- The dirty words of one sector sent to the next level (R305), and the banks that reaches noted: the next level fetches a
sector it does not hold (R309). -/
def State.sendDirty (s : State) (a : Actor) (level unit : Nat) (x : Nat × Nat × Sector) : State :=
  let core := a.core
  let pa := 256 * x.1 + 128 * x.2.1
  let die := core / 256
  let t := s.thrOf a
  let t := if level = 0 then t.noteMiss s core pa (s.sectorAt 1 (core / 16) x.1 x.2.1).valid else t.noteHome s core pa (level == 2 || s.visitorMiss core pa)
  let s := s.setSectorAt level unit x.1 x.2.1 { x.2.2 with sent := x.2.2.dirty, awaits := some s.nextId }
  let dst := if level = 0 then core else if level = 1 then pierPort s core die pa else pierPort s core (s.homeDie pa) pa
  (s.setThrOf a t).send { net := if level = 0 then .local else .req, owner := some a, ctx := t.ctx, cls := 0,
                          src := core, dst := dst,
                          body := .regis level unit x.1 x.2.1 x.2.2.dirty x.2.2.data x.2.2.region }

/-- The dirty words of every sector of a named region of a cache sent to the next level (R312). -/
def State.sendLevel (s : State) (a : Actor) (level unit : Nat) (mask : Word) : State :=
  (dirtyNamed (s.linesAt level unit) mask).foldl (fun s x => s.sendDirty a level unit x) s

/-- Whether an earlier registration of the same sector is still on its way. -/
def State.registersBefore (s : State) (id level unit line sec : Nat) : Bool :=
  s.packets.any (fun q => decide (q.id < id) && q.registers level unit line sec)

/-- A deregistration notice sent to a registrant of a sector, in class 0 (R306). -/
def State.sendNotice (s : State) (p : Packet) (level unit line sec : Nat) : State :=
  s.send { net := if level = 0 then .local else .req, owner := p.owner, ctx := p.ctx, cls := 0, src := p.dst,
           dst := if level = 0 then p.dst else unitPort level unit, body := .notice level unit line sec }

/-- REGISTRATION: dirty words reach the next level, which merges them, sets REG and replies with the merged bytes; the
unit REG named before is told (R305, R306). One whose words have been written back since carries nothing. -/
def execRegistration (id : Nat) (s : State) : Out :=
  match s.arrived? id with
  | some p =>
    match p.body with
    | .regis level unit line sec mask data region =>
      let b := belowOf s level unit line
      let back := fun (s : State) => s.reply p (if level = 0 then .local else .rsp)
        (.regisReply level unit line sec mask (b.bytes s line sec))
      if s.registersBefore id level unit line sec then .next s
      else if mask = 0 then .next (back s)
      else
        let (s1, old) := b.register s (unitCodeOf level unit) line sec region p.ctx mask data
        let s1 := s1.movePoison (3 + level, unit) b.place line sec mask
        let s1 := if level = 0 then s1 else s1.retestWaits (256 * line + 128 * sec) 128
        let s1 := match old.bind (registrantAt level) with
          | some (l, u) => s1.sendNotice p l u line sec
          | none => s1
        .next (back s1)
    | _ => .next s
  | none => .next s

/-- Whether the level below names a unit as the registrant of a sector (R304). -/
def State.registeredTo (s : State) (level unit line sec : Nat) : Bool :=
  match level with
  | 0 => (s.sectorAt 1 (unit / 16) line sec).reg == some unit
  | 1 => if s.homeDie (256 * line) = unit / 16 then Tab.find? s.homeReg (2 * line + sec) == some unit
         else (s.sectorAt 2 (s.visitSlice (16 * unit) (256 * line)) line sec).reg == some unit
  | _ => Tab.find? s.homeReg (2 * line + sec) == some (visitorUnit unit)

/-- REGISTRATION_REPLY: the sender installs the merged bytes beneath what it has written since, valid and owned, and
clears the dirty bits it sent (R305). The reply of a registration that is not the sector's latest, or whose words the sector has
written back since, brings nothing newer and installs nothing. -/
def execRegistrationReply (id : Nat) (s : State) : Out :=
  match s.arrived? id with
  | some p =>
    match p.body with
    | .regisReply level unit line sec mask data =>
      let x := s.sectorAt level unit line sec
      let keep := x.dirty &&& ~~~ (x.sent &&& mask)
      let s1 := if x.awaits = some id then
          s.setSectorAt level unit line sec
            { x with data := mergeUnder x.data keep data, valid := true, owned := s.registeredTo level unit line sec,
                     dirty := keep, sent := x.sent &&& keep, awaits := none }
        else s
      .next (s1.dropPacket id)
    | _ => .next s
  | none => .next s

/-- DEREGISTRATION_NOTICE: the unit clears its owned bit, forwards the notice to its own registrant, and acknowledges
it when that one has (R306). The acknowledgement returns on RSP. -/
def execDeregistrationNotice (id : Nat) (s : State) : Out :=
  match s.arrived? id with
  | some p =>
    match p.body with
    | .notice level unit line sec =>
      if p.net = .rsp then .next (s.dropPacket id)
      else
        let x := s.sectorAt level unit line sec
        let s1 := s.setSectorAt level unit line sec { x with owned := false }
        match if level = 0 then none else x.reg.bind (registrantAt (level - 1)) with
        | some (l, u) =>
          let dst := if l = 0 then p.dst else unitPort l u
          .next (s1.resend p p.net p.dst dst (.notice l u line sec))
        | none => .next (if p.net = .local then s1.dropPacket id else s1.reply p .rsp p.body)
    | _ => .next s
  | none => .next s

/-! ### FENCE probes (R313) -/

/-- The banks a scope probes whose bit is set (R310): the destination ports of its probes, which are the thread's own ports of
the pier slices (R271). The cluster cache's port is the core itself; a die's probe goes to its first slice. -/
def probeBanks (t : Thread) (core scope : Nat) : List Nat :=
  let die := core / 256
  let piers := if scope = 0 then [] else
    (List.range 64).filterMap (fun j => if bitOf t.csr.tbmask j then some (slicePort core (64 * die + j)) else none)
  let vaults := (List.range 16).filterMap (fun v =>
    if bitOf t.csr.tbmaskx v && (scope != 0 || v == core / 16 % 16) then some (if v = core / 16 % 16 then core else vaultEnd (die * 16 + v)) else none)
  let dies := if scope < 2 then [] else
    (List.range 4).filterMap (fun d => if bitOf t.csr.tbmaskx (16 + d) then some (slicePort core (64 * d)) else none)
  core :: (piers ++ vaults ++ dies)

/-- One probe on REQ and one on SYN to each bank a scope lists (R313). -/
def State.sendProbes (s : State) (a : Actor) (scope : Nat) : State :=
  let core := a.core
  (probeBanks (s.thrOf a) core scope).foldl (fun s d =>
    let p : Packet := { net := if d = core then .local else .req, owner := some a, ctx := (s.thrOf a).ctx, cls := 0,
                        src := core, dst := d, body := .probe }
    (s.send p).send { p with net := if d = core then .local else .syn }) s

/-- The masks of R309 with the bits a scope's probes covered cleared (R313). -/
def Thread.clearBanks (t : Thread) (core scope : Nat) : Thread :=
  let keepV := if scope = 0 then setBit t.csr.tbmaskx (core / 16 % 16) false else setBits t.csr.tbmaskx 15 0 0
  let x := if scope < 2 then keepV else setBits keepV 19 16 0
  let x := if scope < 3 then x else setBit x 20 false
  { t with csr := { t.csr with tbmask := if scope = 0 then t.csr.tbmask else 0, tbmaskx := x } }

/-- FENCE_PROBE_ECHO: a probe arrives behind the thread's earlier requests and is echoed, on RSP or on SYN's reverse path; the echo
ends it at its core (R270, R313). -/
def execFenceProbeEcho (id : Nat) (s : State) : Out :=
  match s.arrived? id with
  | some p =>
    if p.body.isProbe && p.dst == p.core then .next (s.dropPacket id)
    else if p.body.isProbe && !s.packets.any (fun q => q.net == p.net && q.owner == p.owner && q.src == p.src
        && q.dst == p.dst && decide (q.id < p.id) && (q.body.isGen || q.body.isRo || q.body.isVlt)) then
      .next (s.reply p (if p.net = .syn then .syn else .rsp) .probe)
    else .next s
  | none => .next s

/-! ### The storage set and the regions -/

/-- Letters of a storage set (R27, R47): bit 0 G, 1 S, 2 V, 3 O. -/
def stG (st : Nat) : Bool := st % 2 == 1
def stS (st : Nat) : Bool := st / 2 % 2 == 1
def stV (st : Nat) : Bool := st / 4 % 2 == 1
def stO (st : Nat) : Bool := st / 8 % 2 == 1

/-- The RO lines of a core's L1 and of its cluster cache discarded (R151). -/
def State.dropRO (s : State) (core : Nat) : State :=
  let s := s.setLinesAt 0 core ((s.linesAt 0 core).filter (fun l => !l.ro))
  s.setLinesAt 1 (core / 16) ((s.linesAt 1 (core / 16)).filter (fun l => !l.ro))

/-- Whether a sector at a level is owned up to a scope's coherence point: every level between it and the point holds
it owned (R311). -/
def State.ownedTo (s : State) (core level scope line sec : Nat) : Bool :=
  let die := core / 256
  let visiting := s.homeDie (256 * line) != die
  (level != 0 || (s.sectorAt 0 core line sec).owned)
    && (decide (scope < 1) || decide (1 < level) || (s.sectorAt 1 (core / 16) line sec).owned)
    && (decide (scope < 2) || !visiting || (s.sectorAt 2 (s.visitSlice core (256 * line)) line sec).owned)

/-- A line of a cache after an acquire of a mask: valid sectors of named regions lose their valid bit unless owned
(R311). -/
def State.acquireLine (s : State) (core level scope : Nat) (mask : Word) (l : Line) : Line :=
  let f := fun (i : Nat) (x : Sector) =>
    if x.valid && named mask x.region && !s.ownedTo core level scope l.line i then { x with valid := false } else x
  if l.ro then l else { l with s0 := f 0 l.s0, s1 := f 1 l.s1 }

/-- Whether a pier slice lies on a core's die and in its partition. -/
def State.ownSlice (s : State) (core slice : Nat) : Bool :=
  slice / 64 == core / 256 && s.partOfQuarter (slice / 16) == s.partOfCore core

/-- The cache actions of an acquire (R310, R311). -/
def State.acquire (s : State) (core : Nat) (mask : Word) (scope st : Nat) : State :=
  let s1 := if stG st then
      let a := s.setLinesAt 0 core ((s.linesAt 0 core).map (s.acquireLine core 0 scope mask))
      let b := if scope < 1 then a else
        a.setLinesAt 1 (core / 16) ((a.linesAt 1 (core / 16)).map (s.acquireLine core 1 scope mask))
      if scope < 2 then b else
        { b with piers := b.piers.map (fun (c : Nat × List Line) =>
            if s.ownSlice core c.1 then (c.1, c.2.map (s.acquireLine core 2 scope mask)) else c) }
    else s
  if stO st then s1.dropRO core else s1

/-! ### Progress of a release or a fence -/

/-- How far an ordering instruction's wait has come in a turn: it waits on, it is over, or it is over and a deferred
trap that arrived during it is to be taken at the instruction (R159, R291). -/
inductive Prog where
  | wait (s : State)
  | over (s : State)
  | caught (s : State)

/-- The state with the number the current instruction keeps replaced. -/
def State.setArg (s : State) (n : Nat) : State := s.setThr { s.thr with arg := n }

/-- The end of a fence: its bits are cleared, RO lines go where O is named, and a deferred trap that is pending with
INH = 0 is due at this boundary (R159, R313; the boundary is the ordering instruction's own). -/
def State.fenceEnd (s : State) (scope st : Nat) : Prog :=
  let core := s.curCore
  let s := s.setThr (s.thr.clearBanks core scope)
  let s := if stO st then s.dropRO core else s
  let s := s.setArg 0
  if !s.thr.async.isEmpty && !bitOf s.thr.csr.status 0 then .caught s else .over s

/-- Whether what a fence of a storage set waits for has happened (R313). -/
def State.fenceClear (s : State) (st : Nat) : Bool :=
  let a := s.cur
  !s.owesMessage a && !s.thr.vecAccessesOut && !s.owes a Body.isProbe && (!stG st || !s.owes a Body.isGen) && (!stS st || !s.owes a Body.isSpr)
    && (!stV st || !s.owes a Body.isVlt) && (!stO st || !s.owes a Body.isRo)

/-- FENCE from its probes on (R313): stage 5 sends them, stage 6 waits. -/
def State.fenceWait (s : State) (scope st : Nat) : Prog :=
  if s.fenceClear st then s.fenceEnd scope st else .wait (s.setArg 6)

/-- FENCE from the start (R313). -/
def State.fenceStart (s : State) (scope st : Nat) : Prog := (s.sendProbes s.cur scope).fenceWait scope st

/-- Whether the registrations a release sent are answered and their notices acknowledged (R312). -/
def State.regisClear (s : State) : Bool :=
  !s.owes s.cur (fun b => match b with
    | .regis .. => true
    | .regisReply .. => true
    | .notice .. => true
    | _ => false)

/-- A release from the visitor lines on (R310, R312). -/
def State.relFrom3 (s : State) (scope st : Nat) : Prog :=
  if s.regisClear then s.fenceStart scope st else .wait (s.setArg 3)

/-- A release from the cluster cache on: at package and system scope the visitor lines follow (R310, R312). -/
def State.relFrom2 (s : State) (mask : Word) (scope st : Nat) : Prog :=
  if !s.regisClear then .wait (s.setArg 2)
  else if scope < 2 then s.fenceStart scope st
  else (((s.piers.map (·.1)).filter (s.ownSlice s.curCore)).foldl (fun u x => u.sendLevel s.cur 2 x mask) s).relFrom3 scope st

/-- A release from the L1 on: at die scope and beyond the cluster cache follows (R310, R312). -/
def State.relFrom1 (s : State) (mask : Word) (scope st : Nat) : Prog :=
  if !s.regisClear then .wait (s.setArg 1)
  else if scope < 1 then s.fenceStart scope st
  else (s.sendLevel s.cur 1 (s.curCore / 16) mask).relFrom2 mask scope st

/-- One turn of a release of a mask at a scope over a storage set (R312), by the number the instruction keeps: 0 at
its start, 1 to 3 while registrations of a level are out, 6 in its fence. -/
def State.relTurn (s : State) (mask : Word) (scope st : Nat) : Prog :=
  match s.thr.arg with
  | 0 =>
    if s.owes s.cur Body.isLoad || s.thr.vecAccessesOut || (stG st && s.owes s.cur Body.isNarrow) then .wait s
    else if stG st then (s.sendLevel s.cur 0 s.curCore mask).relFrom1 mask scope st
    else s.fenceStart scope st
  | 1 => s.relFrom1 mask scope st
  | 2 => s.relFrom2 mask scope st
  | 3 => s.relFrom3 scope st
  | _ => s.fenceWait scope st

/-- One turn of a fence (R313). -/
def State.fenceTurn (s : State) (scope st : Nat) : Prog :=
  match s.thr.arg with
  | 0 => s.fenceStart scope st
  | _ => s.fenceWait scope st

/-- The state with the current instruction at a stage of its own. -/
def State.setStage (s : State) (n : Nat) : State := s.setThr { s.thr with stage := n }

/-- The oldest pending deferred trap taken at the instruction the thread stands at (R392). -/
def State.takeCaught (s : State) : State :=
  let s := s.setThr { s.thr with stage := 0, vals := [], arg := 0, parked := false }
  s.takeAsync s.cur

/-- An instruction of which this wait is stage `n`: it waits on, it goes on with `k`, or a deferred trap is taken at
it. -/
def Prog.thenDo (p : Prog) (n : Nat) (k : State → Res) : Res :=
  match p with
  | .wait s => .wait (s.setStage n) false
  | .over s => k s
  | .caught s => .keep s.takeCaught

/-- THR_REGMASK of the thread whose turn it is (R308). -/
def State.regmask (s : State) : Word := s.thr.csr.regmask

/-- The word of a SYN instruction (R307). -/
def wordSyn (f7 b a f3 d : Nat) : Nat := wordK 22 f7 f3 b a d

/-- ACQ (R311): it waits for the thread's loads, then discards stale sectors of the named regions. -/
def execAcq (st : BitVec 4) (a : Reg) (scope : BitVec 2) : State → Out :=
  issue { word := wordSyn 0 st.toNat a.toNat scope.toNat 0, srcs := [a], sub := 1, leaves := true } (fun s xs =>
    if s.owes s.cur Body.isLoad || s.thr.vecAccessesOut then .wait (s.setStage 1) false
    else .done (s.acquire s.curCore (arg xs 0) scope.toNat st.toNat) [])

/-- REL (R312). -/
def execRel (st : BitVec 4) (a : Reg) (scope : BitVec 2) : State → Out :=
  issue { word := wordSyn 1 st.toNat a.toNat scope.toNat 0, srcs := [a], sub := 1, leaves := true } (fun s xs =>
    (s.relTurn (arg xs 0) scope.toNat st.toNat).thenDo 1 (fun s => .done s []))

/-- FENCE (R313). -/
def execFence (st : BitVec 4) (scope : BitVec 2) : State → Out :=
  issue { word := wordSyn 2 st.toNat 0 scope.toNat 0, sub := 1, leaves := true } (fun s _ =>
    (s.fenceTurn scope.toNat st.toNat).thenDo 1 (fun s => .done s []))

end Sys2Proof.Machine
end

