-- ==== Sys2Proof/Machine/Migrate.lean ====
section
/-! DEFINITION. Leaving a core and arriving on one: the departure of R329, the checks and the packet of R298, MIGR
(R299), and the arrival and installation of a migrant (R300, R329). -/

namespace Sys2Proof.Machine

/-- A sector's dirty words written to the next level, with the reply already installed (R305). -/
def State.pushSector (s : State) (level unit line sec : Nat) : State :=
  let x := s.sectorAt level unit line sec
  if x.dirty = 0 then s
  else
    let b := belowOf s level unit line
    let ctx := (findLine (s.linesAt level unit) line).elim 0 Line.ctx
    let s := State.writeBack b (unitCodeOf level unit) level unit s line sec ctx x
    s.setSectorAt level unit line sec
      { x with data := b.bytes s line sec, valid := true, owned := s.registeredTo level unit line sec, dirty := 0, sent := 0,
               awaits := none }

/-- A sector's dirty words written from a core's caches to the home pier (R142, R329). -/
def State.pushHome (s : State) (core line sec : Nat) : State :=
  ((s.pushSector 0 core line sec).pushSector 1 (core / 16) line sec).pushSector 2 (s.visitSlice core (256 * line)) line sec

/-- The sectors of a cache whose region is 0 and that hold dirty words: line and sector number. -/
def privateDirty (ls : List Line) : List (Nat × Nat) :=
  ((ls.flatMap (fun l => [(l.line, 0, l.s0), (l.line, 1, l.s1)])).filter
    (fun x => x.2.2.dirty != 0 && x.2.2.region == 0)).map (fun x => (x.1, x.2.1))

/-- The region-0 dirty words of a core's L1 and of its cluster cache written back to their home piers (R329). -/
def State.pushPrivate (s : State) (core : Nat) : State :=
  (privateDirty (s.linesAt 0 core ++ s.linesAt 1 (core / 16))).foldl (fun s x => s.pushHome core x.1 x.2) s

/-- Regions 1 to 63. -/
def allRegions : Word := 0xFFFFFFFFFFFFFFFE

/-- One turn of the departure of R329: a package-scope release of regions 1 to 63 and a fence over G, S and V. -/
def State.leaveTurn (s : State) : Prog := s.relTurn allRegions 2 7

/-- The end of the departure of R329: the region-0 dirty words of the core's L1 and cluster cache go home, and both masks of R309
are 0 after it. -/
def State.leaveEnd (s : State) (a : Actor) : State :=
  let s := s.pushPrivate a.core
  let t := s.thrOf a
  s.setThrOf a { t with csr := { t.csr with tbmask := 0, tbmaskx := 0 } }

/-- The arrival of R329 on a core: ACQ.PKG of regions 1 to 63 over G, and the non-owned region-0 sectors of its L1 and
cluster cache discarded. -/
def State.enterCore (s : State) (core : Nat) : State :=
  let s := s.acquire core allRegions 2 1
  let f := fun (x : Sector) => if x.region == 0 && !x.owned then { x with valid := false } else x
  let g := fun (l : Line) => if l.ro then l else { l with s0 := f l.s0, s1 := f l.s1 }
  let s := s.setLinesAt 0 core ((s.linesAt 0 core).map g)
  s.setLinesAt 1 (core / 16) ((s.linesAt 1 (core / 16)).map g)

/-- Whether a thread holds a vector context: its start record asked for lane groups (R171). -/
def Thread.hasVec (t : Thread) : Bool := t.laneReq != 0

/-- The number of registers THR_MIGMASK names. -/
def migCount (t : Thread) : Nat := ((List.range 32).filter (fun i => i != 0 && bitOf t.csr.migmask i)).length

/-- The bytes of a migration packet (R298). -/
def migBytes (t : Thread) : Nat := 64 + 16 * t.loops.length + 8 * migCount t

/-- The first condition of R298 that bars a departure: its subcode. -/
def State.departBar (s : State) (k i : Nat) : Option Nat :=
  let t := s.thrOf (.slot k i)
  let c := s.core k
  if t.hasVec || !t.acc.isEmpty then some 1
  else if !bitOf t.csr.rank 21 || bitOf t.csr.rank 20 then some 2
  else if t.csr.qmap != 0 then some 3
  else if (List.range 16).any (fun x => x != 0 && x != 15 && Tab.find? c.bind x == some i) then some 4
  else if i == 15 && bitOf c.xctl 0 then some 5
  else if 288 < migBytes t then some 6
  else none

/-- Whether the waits before a departure are over (R298): no register pending; every SEND, SENDQ, SPR store and fill
answered. -/
def State.departReady (s : State) (a : Actor) : Bool :=
  (s.thrOf a).pending == 0 && !s.owesMessage a && !s.owes a Body.isSpr

/-- What travels of a thread (R298): registers not named in THR_MIGMASK are 0 and full on arrival, and the vector
configuration and THR_QMAP are at their reset values. -/
def Thread.packed (t : Thread) : Thread :=
  let d : ThrCsrs := {}
  { t with g := t.g.filter (fun p => bitOf t.csr.migmask p.1), empty := t.empty &&& t.csr.migmask.setWidth 32,
           pending := 0,
           csr := { t.csr with vtype := d.vtype, vl := d.vl, vlceil := d.vlceil, strip := d.strip, qmap := d.qmap,
                               tbmask := 0, tbmaskx := 0 },
           stage := 0, vals := [], arg := 0, parked := false, withdrawable := false, landing := false, saveAt := none,
           lanes := [], laneReq := 0,
           vec := {}, run := .issuing }

/-- A migration packet bound for a rank leaves its core: straight to the coordinates of a pinned entry that the core's interface holds,
else to the rank's home (R285); straight to the core where the rank has no home any more. -/
def State.sendMigrant (s : State) (ctx bound : Nat) (m : Migrant) : State :=
  let p := fun (dst leg : Nat) => ({ net := if dst = m.source then .local else .msg, ctx := ctx, cls := 2, src := m.source, dst := dst,
                                     body := .migrant m bound leg } : Packet)
  match s.rankHome ctx bound, Tab.find? (s.core m.source).rankCache (homeKey ctx bound) with
  | _, some _ => s.send (p m.target 3)
  | some (_, h), none => s.send (p h 0)
  | none, none => s.send (p m.target 3)

/-- The thread of a slot leaves for a core at a position: DEPART goes to the home of its rank, the packet to the
target, and the slot is swapping (R298, R300, R301). -/
def State.depart (s : State) (k i target bound : Nat) (pc : BitVec 53) (loops : List LoopLevel) : State :=
  let a := Actor.slot k i
  let s := s.leaveEnd a
  let t := s.thrOf a
  let rank := bits t.csr.rank 19 0
  let home := (s.rankHome t.ctx rank).elim k (fun h => h.2)
  let m : Migrant := { thr := { t.packed with pc := pc, loops := loops }, source := k, srcSlot := i, target := target }
  let s := s.send { net := if home = k then .local else .msg, ctx := t.ctx, cls := 2, src := k, dst := home,
                    body := .depart rank k }
  let s := s.sendMigrant t.ctx bound m
  s.setThrOf a { t with run := .swapping, parked := false, stage := 0, vals := [], arg := 0 }

/-- One turn of an instruction that departs for a core: its stage is 4 (target + 1) plus 0 while the thread waits for
what it has outstanding, or 1 while its release is under way. `pc` and `loops` are where it goes on. -/
def State.departTurn (s : State) (target bound : Nat) (pc : BitVec 53) (loops : List LoopLevel) : Res :=
  match s.cur with
  | .episode _ => .park
  | .slot k i =>
    let base := 4 * (target + 1)
    let rel := fun (s : State) => (s.leaveTurn).thenDo (base + 1) (fun s => .keep (s.depart k i target bound pc loops))
    if s.thr.stage = base + 1 then rel s
    else if !s.departReady s.cur then .wait (s.setStage base) false
    else rel s

/-- MIGR (R299): the thread moves to the core on which a rank runs. -/
def execMigr (a : Reg) : State → Out :=
  issue { word := wordK 19 5 0 0 a.toNat 0, srcs := [a], sub := 1, leaves := true } (fun s xs =>
    let t := s.thr
    let rank := bits (arg xs 0) 19 0
    let next := t.seqNext
    if 4 ≤ t.stage then s.departTurn (t.stage / 4 - 1) rank next.1 next.2.1
    else
      withRank s rank (fun w s =>
        match w with
        | .nowhere => .trap .messageNack (nackWord rank 0 1)
        | .moving => .park
        | .away => .park
        | .here k _ =>
          if k = s.curCore then .done s []
          else
            match s.departBar s.curCore s.cur.slotNum with
            | some c => .trap .migrationFault (wordOf c)
            | none => s.departTurn k rank next.1 next.2.1))

/-! ### Arrival (R300) -/

/-- The lowest empty slot of COR_MIGSLOT. -/
def State.migSlot (s : State) (k : Nat) : Option Nat :=
  (List.range 16).find? (fun i => i != 0 && bitOf (s.core k).migslot i && !s.slotBound k i)

/-- The source slot of a migrant empties, once the target has installed or buffered it (R300). -/
def State.freeSource (s : State) (m : Migrant) : State :=
  let c := s.core m.source
  match Tab.find? c.slots m.srcSlot with
  | some t => if t.run = .swapping ∧ t.csr.rank = m.thr.csr.rank ∧ t.ctx = m.thr.ctx then
      (s.setCore m.source { c with slots := Tab.erase c.slots m.srcSlot }).unpin m.source t.ctx else s
  | none => s

/-- A launch's list of started threads after one of them has moved. -/
def moveStarted (l : List (Nat × Nat × Nat)) (k i k' i' : Nat) : List (Nat × Nat × Nat) :=
  l.map (fun x => if x.1 = k ∧ x.2.1 = i then (k', i', x.2.2) else x)

/-- A migrant installed in a slot: the arrival of R329, ARRIVE to the home of its rank, and its place among the
threads of its launch (R300, R301). -/
def State.install (s : State) (k i : Nat) (m : Migrant) : State :=
  let t := { m.thr with uid := s.nextId }
  let s := { s.enterCore k with nextId := s.nextId + 1 }
  let s := s.setCore k { s.core k with slots := Tab.set (s.core k).slots i t }
  let s := s.onLaunch k i (fun l => { l with insts := l.insts.map (fun n =>
    { n with started := moveStarted n.started m.source m.srcSlot k i }) })
  let rank := bits t.csr.rank 19 0
  let home := (s.rankHome t.ctx rank).elim k (fun h => h.2)
  s.send { net := if home = k then .local else .msg, ctx := t.ctx, cls := 2, src := k, dst := home,
           body := .arrive rank (s.coordOf k i) }

/-- A migration packet at the core it is bound for: installed, buffered, or refused, and then its source keeps it (R300). -/
def State.settleMigrant (s : State) (p : Packet) (m : Migrant) : State :=
  let c := s.core p.dst
  match if c.arrivals.isEmpty then s.migSlot p.dst else none with
  | some i => ((s.dropPacket p.id).freeSource m).install p.dst i m
  | none =>
    if c.arrivals.length < 4 then ((s.setCore p.dst { c with arrivals := c.arrivals ++ [m] }).dropPacket p.id).freeSource m
    else s.refuse p

/-- A migration packet sent on from a core to another. -/
def State.passMigrant (s : State) (p : Packet) (m : Migrant) (rank dst leg : Nat) : State :=
  s.resend p (if dst = p.dst then .local else .msg) p.dst dst (.migrant m rank leg)

/-- Whether a core holds the thread of a rank. -/
def State.coreHasRank (s : State) (k ctx rank : Nat) : Bool := (List.range 16).any (fun i => s.slotHasRank k i ctx rank)

/-- MIGRANT_ARRIVAL: the home of the rank forwards the packet to the rank's coordinates, or holds it in a transit; the core there
takes it while the rank is with it, else returns it to the home, which sends it after the rank (R285, R300, R301). DESIGN CHOICE
(assumption 79): where the rank names no thread any more the packet goes to the core to which its instruction resolved the rank, and a
returned one settles on the core that returned it; the spec gives a migration no NACK. -/
def execMigrantArrival (id : Nat) (s : State) : Out :=
  match s.arrived? id with
  | some p =>
    match p.body with
    | .migrant m rank leg =>
      let h := s.homeEntry p.dst p.ctx rank
      match leg with
      | 0 =>
        if h.transit then
          if 16 ≤ h.held.length then .next (s.refuse p)
          else .next ((s.setHomeEntry p.dst p.ctx rank { h with held := h.held ++ [id] }).setPacket { p with held := true })
        else if coordV h.word && coordPkg h.word == s.pkg then .next (s.passMigrant p m rank (coordCore h.word) 1)
        else .next (s.passMigrant p m rank m.target 3)
      | 1 => if s.coreHasRank p.dst p.ctx rank then .next (s.settleMigrant p m)
             else .next (s.passMigrant p m rank p.src 2)
      | 2 =>
        if h.transit then
          .next ((s.setHomeEntry p.dst p.ctx rank { h with returned := h.returned ++ [id] }).setPacket { p with held := true })
        else if coordV h.word && coordPkg h.word == s.pkg && coordCore h.word != p.src then
          .next (s.passMigrant p m rank (coordCore h.word) 1)
        else .next (s.passMigrant p m rank p.src 3)
      | _ => .next (s.settleMigrant p m)
    | _ => .next s
  | none => .next s

/-- MIGRANT_INSTALL: the first buffered migrant takes the lowest empty slot of COR_MIGSLOT (R300). -/
def execMigrantInstall (core : Nat) (s : State) : Out :=
  let c := s.core core
  match c.arrivals, s.migSlot core with
  | m :: rest, some i => .next ((s.setCore core { c with arrivals := rest }).install core i m)
  | _, _ => .next s

end Sys2Proof.Machine
end

