-- ==== Sys2Proof/Machine/Access.lean ====
section
/-! DEFINITION. Shared operations of scalar accesses: translation for an issuing instruction, miss registers, poison
and its consumption, the episode stores, the IOR space, and what one access of a thread waits for. -/

namespace Sys2Proof.Machine

/-! ### Translation of an issuing access (R166 to R168) -/

/-- What an access finds in the TLBs: a leaf that allows it, no entry, or a leaf that does not. -/
inductive Xlat where
  | leaf (e : Word) (shift : Nat)
  | miss
  | rights (level size : Nat)
  deriving DecidableEq, Repr

/-- The TLB lookup of an access of a core in a context: kind 0 load, 1 store, 2 atomic. -/
def State.xlatAt (s : State) (core ctx va kind : Nat) : Xlat :=
  match s.tlbLookup core ctx va with
  | none => .miss
  | some e => if s.allows e.leaf e.shift va kind then .leaf e.leaf e.shift
              else .rights (if e.shift = 30 then 1 else if e.shift = 21 then 2 else 3) (sizeCode e.shift)

/-- The TLB lookup of an access of the thread whose turn it is. -/
def State.xlat (s : State) (va kind : Nat) : Xlat := s.xlatAt s.curCore s.curCtx va kind

/-- An access translated, or the turn of one that cannot issue (R167, R168). -/
def withLeaf (s : State) (va kind : Nat) (k : Word → Nat → Res) : Res :=
  match s.xlat va kind with
  | .leaf e sh => k e sh
  | .miss => .parkWith (startWalk va kind)
  | .rights level size =>
    .parkWith (fun s => s.dataFault s.cur s.curCtx va 2 level size (accessBits kind) 0)

/-- What an engine of a core finds for an address: a leaf that allows its access, a page whose walk it has to wait for, or a data
fault with its KIND, LEVEL and SIZE. -/
inductive EngineLook where
  | leaf (e : Word) (shift : Nat)
  | wait
  | bad (kind level size : Nat)
  deriving DecidableEq, Repr

/-- The translation of an engine's access (R167, R168). An engine waits for the walk of a page that the tables map; a walk that ends
badly leaves nothing in a TLB, and the engine meets its fault as the tables stand. -/
def State.engineLook (s : State) (core ctx va kind : Nat) : EngineLook :=
  match s.xlatAt core ctx va kind with
  | .leaf e sh => .leaf e sh
  | .rights level size => .bad 2 level size
  | .miss =>
    match s.walk ctx va with
    | .leaf .. => .wait
    | .bad kind level => .bad kind level 255

/-- A TLB with an entry added: an older one for the page goes, and a full TLB drops one of its choice (R167,
assumption 6). -/
def tlbAdd (t : List TlbEntry) (cap pick : Nat) (e : TlbEntry) : List TlbEntry :=
  let t := t.filter (fun x => !(x.ctx == e.ctx && x.shift == e.shift && x.page == e.page))
  let t := if t.length < cap then t else t.eraseIdx (Config.victim pick % t.length)
  e :: t

/-- A leaf found by a walk put in the core's TLB and the cluster's. -/
def State.tlbFill (s : State) (core ctx va : Nat) (leaf : Word) (shift : Nat) : State :=
  let e : TlbEntry := { ctx := ctx, page := va / 2 ^ shift, shift := shift, leaf := leaf }
  let c := s.core core
  let s := s.setCore core { c with tlb := tlbAdd c.tlb 64 s.fresh e }
  let x := s.cluster (core / 16)
  { (s.setCluster (core / 16) { x with tlb := tlbAdd x.tlb 2048 (s.fresh + 1) e }) with fresh := s.fresh + 2 }

/-- The actors whose threads wait for a walk. -/
def State.walkers (s : State) (id : Nat) : List Actor :=
  s.cores.flatMap (fun c => c.2.slots.filterMap (fun t =>
    if t.2.walking == some id then some (Actor.slot c.1 t.1) else none))

/-- A thread that waited for a walk which found a leaf: the TLBs of its core hold it, and the access retries. -/
def State.walkFound (s : State) (ctx va : Nat) (e : Word) (sh : Nat) (a : Actor) : State :=
  (s.setThrOf a { s.thrOf a with walking := none }).tlbFill a.core ctx va e sh

/-- A thread that waited for a walk which found none: its own access meets the data fault; a pc or a target is no code page (R89,
R168). -/
def State.walkFailed (s : State) (ctx kind level : Nat) (a : Actor) : State :=
  let t := s.thrOf a
  if t.walkAcc = 0 then s.setThrOf a { t with walking := none, noCode := some (t.walkVa / 65536) }
  else s.dataFault a ctx t.walkVa kind level 255 t.walkAcc 0

/-- TRANSLATION_WALK_COMPLETE: the walk has read its entries at the pier, and what it found comes back on RSP. The joined accesses
retry with the leaf in the TLBs, or fault on one record (R167, R168). -/
def execTranslationWalkComplete (id : Nat) (s : State) : Out :=
  match s.arrived? id with
  | some p =>
    match p.body with
    | .walk ctx va _ =>
      if p.net != .rsp then .next (s.reply p .rsp p.body)
      else
        let ws := s.walkers id
        let s1 := s.dropPacket id
        match s.walk ctx va with
        | .leaf e sh _ => .next (ws.foldl (fun s a => s.walkFound ctx va e sh a) (s1.tlbFill p.walkCore ctx va e sh))
        | .bad kind level => .next (ws.foldl (fun s a => s.walkFailed ctx kind level a) s1)
    | _ => .next s
  | none => .next s

/-! ### Errors and poison (R410 to R413) -/

/-- CLU_ERRCNT with a corrected error, or a poisoned word, counted; both saturate (R412). -/
def errCount (w : Word) (poisoned : Bool) : Word :=
  if poisoned then setBits w 47 32 (Nat.min 0xFFFF (bits w 47 32 + 1))
  else setBits w 31 0 (Nat.min 0xFFFFFFFF (bits w 31 0 + 1))

/-- The cluster whose SRAM a storage is, as `State.poisoned` numbers storages: none for memory and the piers. -/
def placeCluster (place unit : Nat) : Option Nat :=
  match place with
  | 1 => some (unit / 16)
  | 2 => some unit
  | 3 => some (unit / 16)
  | 4 => some unit
  | 6 => some (unit / 16)
  | 7 => some (unit / 256)
  | 8 => some (unit / 256)
  | _ => none

/-- An error of a storage counted in the CLU_ERRCNT of its cluster. -/
def State.countError (s : State) (place unit : Nat) (poisoned : Bool) : State :=
  match placeCluster place unit with
  | some c => s.setCluster c { s.cluster c with errcnt := errCount (s.cluster c).errcnt poisoned }
  | none => s

/-- A change to the launch of an actor's thread; an episode has none. -/
def State.onLaunchOf (s : State) (a : Actor) (f : Launch → Launch) : State :=
  match a with
  | .slot k i => s.onLaunch k i f
  | .episode _ => s

/-- The single-bit errors of words that `n` bytes at `at_` of a storage touch, corrected and written back by an access on behalf of
a thread: each is counted, and the verdict of the thread's launch is corrected (R410, R412, R413). -/
def State.correct (s : State) (a : Actor) (place unit at_ n : Nat) : State :=
  let hit := fun (w : Nat × Nat × Nat) => w.1 == place && w.2.1 == unit && decide (8 * w.2.2 < at_ + n ∧ at_ < 8 * w.2.2 + 8)
  let l := s.flawed.filter hit
  if l.isEmpty then s
  else
    let s := l.foldl (fun s _ => s.countError place unit false) { s with flawed := s.flawed.filter (fun w => !hit w) }
    s.onLaunchOf a (fun l => l.taint 1)

/-- The words that `n` bytes at `at_` of a storage touch, read on behalf of a thread: none where one is poisoned, else the state with
their errors corrected (R410). -/
def State.tested (s : State) (a : Actor) (place unit at_ n : Nat) : Option State :=
  if s.poisoned place unit at_ n then none else some (s.correct a place unit at_ n)

/-- The turn of an instruction that meets a poisoned word before it has done anything: the thread consumes it. -/
def eatPoison (addr : Word) : Res := .instead (fun s => s.consumePoison s.cur addr)

/-- A poisoned word met by a packet of a thread: the thread consumes it, and nothing lands (R411). -/
def State.poisonPacket (s : State) (p : Packet) (addr : Word) : State :=
  let s := s.dropPacket p.id
  match p.owner with
  | some a => s.consumePoison a addr
  | none => s

/-! ### Miss registers (R148) -/

/-- Whether an access allocates its line in the L1, and so may share a miss register. -/
def PAccess.fills (x : PAccess) : Bool := !x.sync && x.ca == 0

/-- The miss register an access under way holds: none, one of its own, or one of its line (R148). -/
inductive MissUse where
  | none
  | own
  | line (n : Nat)
  deriving DecidableEq, Repr

/-- The miss register of an access with a physical address. -/
def PAccess.miss (x : PAccess) : MissUse := if x.fills then .line (x.pa / 256) else .own

/-- The miss register a packet holds: loads and line fetches do; a store of 4 or 8 bytes never does. -/
def Body.miss : Body → MissUse
  | .load _ _ _ _ (some x) _ none => x.miss
  | .load _ _ _ _ none _ none => .own
  | .fetch x _ v => if v.isSome && decide (4 ≤ x.n) then .none else x.miss
  | _ => .none

/-- The miss registers of a core in use: one for each line being fetched into the L1, and one for every other load
whose data is outstanding beyond the L1. -/
def State.missesOf (s : State) (k : Nat) : List MissUse :=
  s.packets.foldl (fun ms p =>
    match p.owner with
    | some (.slot c _) =>
      if c ≠ k then ms
      else
        match p.body.miss with
        | .none => ms
        | .own => .own :: ms
        | .line n => if ms.contains (.line n) then ms else .line n :: ms
    | _ => ms) []

/-- Whether an access can take a miss register, or join the one of its line. -/
def State.missFree (s : State) (k : Nat) (x : MissUse) : Bool :=
  let ms := s.missesOf k
  x == .none || decide (ms.length < Config.missRegisters) || (x != .own && ms.contains x)

/-! ### Order of one thread's accesses (R140, R143, R150, R162) -/

/-- Where an outstanding access acts: memory at its home, a vault, the IOR space, or cached memory. -/
inductive Place where
  | home (pa n : Nat) (sync : Bool)
  | cached (pa n : Nat)
  | vault (v : Nat)
  | ior
  | none
  deriving DecidableEq, Repr

/-- The place of an access with a physical address. -/
def PAccess.place (x : PAccess) : Place := if x.sync || x.ca == 2 then .home x.pa x.n x.sync else .cached x.pa x.n

/-- The place of a pointer's access without one. -/
def ptrPlace (p : Word) : Place := match ptrPath p with | 4 => .vault (vaultOf p) | 7 => .ior | _ => .none

/-- Where a packet's access acts. -/
def Body.place : Body → Place
  | .load _ _ _ _ (some x) _ none => x.place
  | .load _ p _ _ none _ none => ptrPlace p
  | .store x _ => x.place
  | .pstore p _ _ => ptrPlace p
  | .atomic _ _ p _ _ _ (some x) _ _ => if ptrPath p = 0 then x.place else .none
  | .atomic _ _ p _ _ _ none _ _ => ptrPlace p
  | .fetch x _ (some _) => x.place
  | .lockReq pa _ => .home pa 8 true
  | .lockRel pa _ => .home pa 8 true
  | .qwait pa _ _ => .home pa 8 true
  | _ => .none

/-- Whether two byte ranges meet. -/
def overlap (a n b m : Nat) : Bool := decide (a < b + m ∧ b < a + n)

/-- Whether an earlier access of a thread must be performed before a later one: program order on SYNC pages, to one
vault, in the IOR space, and to the same bytes. -/
def Place.before : Place → Place → Bool
  | .home a n x, .home b m y => (x && y) || overlap a n b m
  | .home a n _, .cached b m => overlap a n b m
  | .cached a n, .home b m _ => overlap a n b m
  | .cached a n, .cached b m => overlap a n b m
  | .vault v, .vault w => v == w
  | .ior, .ior => true
  | _, _ => false

/-- Whether no earlier access of the same thread stands before a packet's access. A wait that its home has in its table has been
performed there. -/
def State.orderClear (s : State) (p : Packet) : Bool :=
  !s.packets.any (fun q => q.owner == p.owner && q.owner.isSome && decide (q.id < p.id)
    && q.body.place.before p.body.place && !(q.held && (match q.body with | .qwait .. => true | _ => false)))

/-- Whether nothing that an actor has under way stands before a new access of it. -/
def State.clearFor (s : State) (a : Actor) (x : Place) : Bool :=
  !s.packets.any (fun q => q.owner == some a && q.body.place.before x)

/-! ### The IOR space (R424) -/

/-- A doubleword of the IOR space. -/
def State.iorRead (s : State) (a : Nat) : Word :=
  if a < 0x800 then Tab.get 0 s.groups (a / 8)
  else if 0x1000 ≤ a ∧ a < 0x3000 then Tab.get 0 s.members ((a - 0x1000) / 8)
  else 0

/-- A write of a doubleword of the IOR space; reserved bits stay 0, and other addresses ignore it. -/
def State.iorWrite (s : State) (a : Nat) (v : Word) : State :=
  if a < 0x800 then { s with groups := Tab.set s.groups (a / 8) (zextLow v 21) }
  else if 0x1000 ≤ a ∧ a < 0x3000 then { s with members := Tab.set s.members ((a - 0x1000) / 8) (zextLow v 18) }
  else s

/-- Whether an IOR address is a system-only entry. -/
def iorSystem (a : Nat) : Bool := decide (a < 0x800 ∨ (0x1000 ≤ a ∧ a < 0x3000))

/-! ### The stores of an episode (R366) -/

/-- The physical address of a window offset: the frame translated at EPOPEN. -/
def Episode.winPa (e : Episode) (off : Nat) : Nat := e.frames.getD (off / 65536) 0 + off % 65536

/-- Whether an access of an episode lies in its stores; a write does not touch the text. -/
def Episode.admits (e : Episode) (p : Word) (n : Nat) (write : Bool) : Bool :=
  if ptrPath p = 0 then decide (ptrAddr p + n ≤ e.wlen)
  else decide (ptrAddr p + n ≤ 262144) && (!write || decide (e.textLen ≤ ptrAddr p))

/-- The bytes an episode reads through a pointer, uncached and at the home piers for its window (R381). -/
def State.epRead (s : State) (x : Nat) (p : Word) (n : Nat) : Nat :=
  let e := s.episode x
  if ptrPath p = 0 then s.mem.readLE (e.winPa (ptrAddr p)) n else e.store.readLE (ptrAddr p) n

/-- The bytes an episode writes through a pointer. -/
def State.epWrite (s : State) (x : Nat) (p : Word) (n val : Nat) : State :=
  let e := s.episode x
  if ptrPath p = 0 then s.homeWrite (e.winPa (ptrAddr p)) (bytesLE n val)
  else s.setEpisode x { e with store := e.store.writeLE (ptrAddr p) n val }

/-! ### Bytes as a thread sees them -/

/-- A byte of memory as a core sees it: in its L1, its cluster cache, the visitor lines of its die, or at home; a page
with SYNC or CA 2 is seen at home (R147, R150, R190). -/
def State.viewByte (s : State) (k pa : Nat) (direct : Bool) : Byte :=
  let line := pa / 256
  let sec := pa / 128 % 2
  let off := pa % 128
  let x := s.sectorAt 0 k line sec
  let y := s.sectorAt 1 (k / 16) line sec
  let z := s.sectorAt 2 (s.visitSlice k pa) line sec
  if direct then s.mem.byte pa
  else if x.hit off 1 then x.data.byte off
  else if y.hit off 1 then y.data.byte off
  else if z.hit off 1 then z.data.byte off
  else s.mem.byte pa

/-- What keeps an instruction's own access to memory from being performed: an address without a TLB entry, a data fault with its
address, KIND, LEVEL and SIZE, or an earlier access of the thread to the same bytes. -/
inductive XFault where
  | miss (va : Nat)
  | fault (va kind level size : Nat)
  | busy
  deriving DecidableEq, Repr

/-- The first page of a range of GEN or RO space that an access of a slot's thread cannot be performed on yet (R140, R167, R168). -/
def State.pagesLook (s : State) (k i va n kind : Nat) : Option XFault :=
  let ctx := (s.thrOf (.slot k i)).ctx
  (pagesOf va n).findSome? (fun pg =>
    let a := max va (65536 * pg)
    match s.xlatAt k ctx a kind with
    | .miss => some (.miss a)
    | .rights level size => some (.fault a 2 level size)
    | .leaf e sh =>
      let len := min (va + n) (65536 * pg + 65536) - a
      if s.clearFor (.slot k i) (.home (leafPa e sh a) len (leafSync e)) then none else some .busy)

/-- A byte of a context's GEN space as a core sees it through its TLBs; 0 where they hold nothing. -/
def State.genByte (s : State) (k ctx va : Nat) : Byte :=
  match s.tlbLookup k ctx va with
  | some e => s.viewByte k (leafPa e.leaf e.shift va) (leafSync e.leaf || leafCA e.leaf == 2)
  | none => 0

/-- `n` bytes through a GEN, RO or SPL pointer as the thread of a slot loads them, or what keeps them from being read. -/
def State.threadRead (s : State) (k i : Nat) (p : Word) (n : Nat) : Except XFault (List Byte) :=
  if ptrPath p ≤ 1 then
    match s.pagesLook k i (ptrAddr p) n 0 with
    | some f => .error f
    | none => .ok ((List.range n).map (fun j => s.genByte k (s.thrOf (.slot k i)).ctx (ptrAddr p + j)))
  else .ok ((List.range n).map (fun j => BitVec.ofNat 8 (s.spadRead k (s.crewOf k i) (ptrOff p + j) 1)))

/-- A byte stored by the thread of a slot to its context's GEN space. -/
def State.genStoreByte (s : State) (k ctx va : Nat) (b : Byte) : State :=
  match s.tlbLookup k ctx va with
  | some e =>
    let pa := leafPa e.leaf e.shift va
    if leafSync e.leaf || leafCA e.leaf == 2 then s.homeStore pa 1 b.toNat
    else s.cachedStore k pa 1 b.toNat (leafCA e.leaf) (leafRegion e.leaf) ctx
  | none => s

/-- Bytes stored through a GEN or SPL pointer as the thread of a slot stores them, or what keeps them from being stored. -/
def State.threadWrite (s : State) (k i : Nat) (p : Word) (bs : List Byte) : Except XFault State :=
  if ptrPath p = 0 then
    match s.pagesLook k i (ptrAddr p) bs.length 1 with
    | some f => .error f
    | none => .ok (bs.zipIdx.foldl (fun s x => s.genStoreByte k (s.thrOf (.slot k i)).ctx (ptrAddr p + x.2) x.1) s)
  else .ok (bs.zipIdx.foldl (fun s x => s.spadWrite k (s.crewOf k i) (ptrOff p + x.2) 1 x.1.toNat) s)

/-- Bytes written at the home piers for a context whose pages a core's TLBs hold, with the registration of a release at package scope
(R305). -/
def State.coreWrite (s : State) (k ctx va : Nat) (bs : List Byte) : State :=
  (pagesOf va bs.length).foldl (fun (s : State) pg =>
    let lo := max va (65536 * pg)
    let hi := min (va + bs.length) (65536 * pg + 65536)
    match s.tlbLookup k ctx lo with
    | some e => s.homeWrite (leafPa e.leaf e.shift lo) ((bs.drop (lo - va)).take (hi - lo))
    | none => s) s

/-- Whether the 8-byte word at an address is poisoned where a core sees it: in its L1, its cluster cache, its visitor slice, or at home
(R410). -/
def State.viewPoisoned (s : State) (k ctx va : Nat) : Bool :=
  match s.tlbLookup k ctx va with
  | none => false
  | some e =>
    let pa := leafPa e.leaf e.shift va
    let v := s.visitSlice k pa
    if leafSync e.leaf || leafCA e.leaf == 2 then s.poisoned 0 0 pa 8
    else if s.hitAt 0 k pa 8 false then s.poisoned 3 k pa 8
    else if s.hitAt 1 (k / 16) pa 8 false then s.poisoned 4 (k / 16) pa 8
    else if s.hitAt 2 v pa 8 false then s.poisoned 5 v pa 8
    else s.poisoned 0 0 pa 8

/-- An SPL access of `n` bytes by an instruction of a slot's thread recorded, where a byte of it lies outside the crew's allocation
(R155, R156): THR_OORADDR takes the pointer of the access. -/
def State.noteSpan (s : State) (k i : Nat) (p : Word) (n : Nat) : State :=
  if ptrPath p == 2 && (List.range n).any (fun j => ((s.crewOf k i).phys (ptrOff p + j)).isNone) then
    s.setThrOf (.slot k i) ((s.thrOf (.slot k i)).noteOor p)
  else s

/-- The turn of an instruction whose own memory access cannot be performed yet (R167, R168). -/
def parkFault (f : XFault) (kind : Nat) : Res :=
  match f with
  | .miss va => .parkWith (startWalk va kind)
  | .fault va k level size => .parkWith (fun s => s.dataFault s.cur s.curCtx va k level size (accessBits kind) 0)
  | .busy => .park

/-! ### The accesses of engines (R270, R271) -/

/-- The packet of an engine's access under way. -/
def State.enginePacket (s : State) (who : EngineRef) : Option Packet :=
  s.packets.find? (fun p => match p.body with | .engine w _ _ => w == who | _ => false)

/-- An access of an engine: performed at once by `k` where it reaches what it needs inside its cluster, else sent to a port of REQ, if
`room` lets it go, and performed when its packet has come back on RSP. It injects through the port of a core (R271). -/
def State.engineAccess (s : State) (who : EngineRef) (ctx cls core n : Nat) (write : Bool) (dst : Option Nat) (room : Bool)
    (k : State → State) : State :=
  match s.enginePacket who with
  | some q => if !s.ready q then s else if q.net == .rsp then k (s.dropPacket q.id) else s.reply q .rsp q.body
  | none =>
    match dst with
    | none => k s
    | some d => if room then s.send { net := .req, ctx := ctx, cls := cls, src := core, dst := d, body := .engine who n write } else s

/-! ### Values -/

/-- A vault request noted in THR_TBMASKX (R309). -/
def Thread.noteVault (t : Thread) (core v : Nat) : Thread :=
  t.noteBank (if v / 16 = core / 256 then v % 16 else 16 + v / 16)

/-- The end of a vault, and the network a core reaches it by: its own through the bond (R272). -/
def vaultPort (core v : Nat) : Net × Nat :=
  if v = core / 16 then (.local, core) else (.req, vaultEnd v)

end Sys2Proof.Machine
end

