-- ==== Sys2Proof/Machine/LoadStore.lean ====
section
/-! DEFINITION. Scalar loads and stores on every path (R137 to R162), PREF and the pin instructions, and what completes
them: replies, stores at the home pier, remote scratchpad accesses and instruction-cache refills. -/

namespace Sys2Proof.Machine

/-! ### Loads (R139, R144) -/

/-- A load sent on its way: its packet, with the value where that is already known and when it lands. -/
def sendLoad (net : Net) (dst : Nat) (ptr : Word) (n : Nat) (signed : Bool) (acc : Option PAccess) (ro : Bool)
    (val : Option Word) (lat : Nat) : State → Dest → State := fun s d =>
  s.send { net := net, owner := some s.cur, ctx := s.curCtx, cls := 1, src := s.curCore, dst := dst,
           due := if val.isSome then some (s.now + lat) else none,
           vseq := if s.thr.runAhead then some s.thr.vseq else none,
           body := .load d ptr n signed acc ro val }

/-- A GEN or RO load (R144, R147 to R151): from the L1 where it hits and nothing of its thread stands before it, else from the
cluster cache, the pier, or the home pier of a page with SYNC or CA 2. DESIGN CHOICE (assumption 77): the CA and SYNC fields of a
page rule RO loads as they rule GEN loads; R150 speaks of GEN accesses only. -/
def genLoad (s : State) (ptr : Word) (n : Nat) (signed ro : Bool) : Res :=
  let k := s.curCore
  let va := ptrAddr ptr
  withLeaf s va 0 (fun e sh =>
    let pa := leafPa e sh va
    let ca := if leafCA e = 0 && !s.canAlloc 0 k (pa / 256) then 1 else leafCA e
    let acc : PAccess := { pa := pa, n := n, region := leafRegion e, sync := leafSync e, ca := ca }
    let direct := leafSync e || leafCA e == 2
    if !direct && leafCA e == 0 && s.l1Hit k pa n ro && s.clearFor s.cur acc.place then
      match s.tested s.cur 3 k pa n with
      | none => eatPoison ptr
      | some s => .later s (sendLoad .local k ptr n signed none ro (some (extend signed n (s.readSector 0 k pa n))) 12)
    else if !s.missFree k acc.miss then .park
    else if direct then
      .later (s.setThr (s.thr.noteDirect s k pa))
        (sendLoad .req (pierPort s k (s.homeDie pa) pa) ptr n signed (some acc) ro none 0)
    else
      let inCC := s.hitAt 1 (k / 16) pa n ro
      .later (s.setThr (s.thr.noteMiss s k pa inCC))
        (sendLoad (if inCC then .local else .req) (if inCC then k else pierPort s k (k / 256) pa) ptr n signed (some acc) ro none 0))

/-- A load of a crew's scratchpad on the issuing core (R153 to R156). -/
def spadLoad (s : State) (c : Crew) (ptr : Word) (n : Nat) (signed : Bool) : Res :=
  let off := ptrOff ptr
  match c.phys off with
  | some o =>
    match s.tested s.cur 1 s.curCore o n with
    | none => eatPoison ptr
    | some s => .later s (sendLoad .local s.curCore ptr n signed none false
        (some (extend signed n ((s.core s.curCore).spad.readLE o n))) 8)
  | none => .later (s.setThr (s.thr.noteOor ptr)) (sendLoad .local s.curCore ptr n signed none false (some 0) 8)

/-- A load through SPR (R158, R160): local when its rank lies on the issuing core; otherwise the thread migrates. -/
def sprLoad (s : State) (ptr : Word) (n : Nat) (signed : Bool) : Res :=
  let t := s.thr
  let rank := ptrRank ptr
  if 4 ≤ t.stage then s.departTurn (t.stage / 4 - 1) rank t.pc t.loops
  else
    withRank s rank (fun w s =>
      match w with
      | .nowhere => .trap .scratchpadRefusal ptr
      | .moving => .park
      | .away => .park
      | .here k i =>
        if k = s.curCore then
          if s.windowAdmits k i (ptrOff ptr) n 0 s.cur then spadLoad s (s.crewOf k i) ptr n signed
          else .trap .scratchpadRefusal ptr
        else
          match s.departBar s.curCore s.cur.slotNum with
          | some c => .trap .migrationFault (wordOf c)
          | none => s.departTurn k rank t.pc t.loops)

/-- A load through VLT (R161, R162). -/
def vltLoad (s : State) (ptr : Word) (n : Nat) (signed : Bool) : Res :=
  let k := s.curCore
  let v := vaultOf ptr
  if !s.vaultGrant s.thr.ctx ptr n false then .trap .vaultFault ptr
  else if !s.missFree k .own then .park
  else
    .later (s.setThr (s.thr.noteVault k v)) (sendLoad (vaultPort k v).1 (vaultPort k v).2 ptr n signed none false none 0)

/-- A load through IOR (R143): LDD only. -/
def iorLoad (s : State) (ptr : Word) (n : Nat) : Res :=
  if n ≠ 8 then .trap .pointerFault ptr
  else if !s.missFree s.curCore .own then .park
  else .later s (sendLoad .req hubPort ptr 8 false none false none 0)

/-- A load of an episode, performed in program order when it issues (R366, R381): one of the local store has landed before the
context's next turn; one of the window lands 230 A-cycles later, R366's typical time (assumption 41). -/
def episodeLoad (s : State) (x : Nat) (ptr : Word) (n : Nat) (signed : Bool) : Res :=
  let e := s.episode x
  if !e.admits ptr n false then .trap .pointerFault ptr
  else if ptrPath ptr ≠ 0 then .done s [extend signed n (s.epRead x ptr n)]
  else
    match s.tested s.cur 0 0 (e.winPa (ptrAddr ptr)) n with
    | none => eatPoison ptr
    | some s => .later s (sendLoad .local 0 ptr n signed none false (some (extend signed n (s.epRead x ptr n))) 460)

/-- A load once its base is read (R138, R139, R144, R181). -/
def loadBody (s : State) (base : Word) (imm : BitVec 12) (n : Nat) (signed : Bool) : Res :=
  match s.formPtr base imm.toInt n false with
  | .error (c, v) => .trap c v
  | .ok ptr =>
    match s.cur with
    | .episode x => episodeLoad s x ptr n signed
    | .slot _ _ =>
      if s.thr.vecStoresOut then .park
      else
        match ptrPath ptr with
        | 0 => genLoad s ptr n signed false
        | 1 => genLoad s ptr n signed true
        | 2 => spadLoad s (s.crewOf s.curCore s.cur.slotNum) ptr n signed
        | 3 => if s.thr.runAhead then .park else sprLoad s ptr n signed
        | 4 => vltLoad s ptr n signed
        | _ => if s.thr.runAhead then .park else iorLoad s ptr n

/-- A LOAD instruction (R137). -/
def loadOp (f3 n : Nat) (signed : Bool) (imm : BitVec 12) (a d : Reg) : State → Out :=
  issue { word := wordI 0 f3 imm.toNat a.toNat d.toNat, srcs := [a], dsts := [d] } (fun s xs =>
    loadBody s (arg xs 0) imm n signed)

/-- LDB (R137). -/
def execLdb (imm : BitVec 12) (a d : Reg) : State → Out := loadOp 0 1 true imm a d

/-- LDH (R137). -/
def execLdh (imm : BitVec 12) (a d : Reg) : State → Out := loadOp 1 2 true imm a d

/-- LDW (R137). -/
def execLdw (imm : BitVec 12) (a d : Reg) : State → Out := loadOp 2 4 true imm a d

/-- LDD (R137). -/
def execLdd (imm : BitVec 12) (a d : Reg) : State → Out := loadOp 3 8 false imm a d

/-- LDBU (R137). -/
def execLdbu (imm : BitVec 12) (a d : Reg) : State → Out := loadOp 4 1 false imm a d

/-- LDHU (R137). -/
def execLdhu (imm : BitVec 12) (a d : Reg) : State → Out := loadOp 5 2 false imm a d

/-- LDWU (R137). -/
def execLdwu (imm : BitVec 12) (a d : Reg) : State → Out := loadOp 6 4 false imm a d

/-! ### Stores (R140, R144) -/

/-- A line fetch, or a store that waits for one or for an earlier access of its thread, sent on its way: to the cluster cache
where that is enough, else to the pier. -/
def State.sendFetch (s : State) (acc : PAccess) (ro near : Bool) (val : Option Nat) : State :=
  let k := s.curCore
  s.send { net := if near then .local else .req, owner := some s.cur, ctx := s.curCtx, cls := 1, src := k,
           dst := if near then k else pierPort s k (k / 256) acc.pa, body := .fetch acc ro val }

/-- A GEN store (R140, R147, R149, R150): performed at the home pier, or in the L1 or the cluster cache. A sub-word store of an
absent word fetches the line first; a store behind an access of its thread to the same bytes that is not performed yet follows it. -/
def genStore (s : State) (ptr : Word) (n val : Nat) : Res :=
  let k := s.curCore
  let va := ptrAddr ptr
  withLeaf s va 1 (fun e sh =>
    let pa := leafPa e sh va
    let acc : PAccess := { pa := pa, n := n, region := leafRegion e, sync := leafSync e, ca := leafCA e }
    if leafSync e || leafCA e == 2 then
      .done ((s.setThr (s.thr.noteDirect s k pa)).send { net := .req, owner := some s.cur, ctx := s.curCtx, cls := 1, src := k,
                                                         dst := pierPort s k (s.homeDie pa) pa, body := .store acc val }) []
    else
      let at_ : PAccess := { acc with ca := s.storeLevel k (pa / 256) (leafCA e) }
      if s.storeFetches k pa n (leafCA e) then
        let inCC := s.hitAt 1 (k / 16) pa n false
        if !s.missFree k at_.miss then .park
        else .done ((s.setThr (s.thr.noteMiss s k pa inCC)).sendFetch at_ false inCC (some val)) []
      else if s.clearFor s.cur acc.place then .done (s.cachedStore k pa n val (leafCA e) (leafRegion e) s.curCtx) []
      else .done (s.sendFetch at_ false true (some val)) [])

/-- An SPR store whose rank lies on the issuing core, performed at issue through the windows (R140, R158, R159): its refusal is a
deferred trap. -/
def State.sprLocal (s : State) (i : Nat) (ptr : Word) (n val : Nat) : State :=
  let k := s.curCore
  let off := ptrOff ptr
  let t := s.thr
  if !s.windowAdmits k i off n 1 s.cur then s.setThr { t with async := t.async ++ [{ cause := .scratchpadRefusal, tval := ptr }] }
  else if ((s.crewOf k i).phys off).isNone then s.setThr (t.noteOor ptr)
  else s.spadWrite k (s.crewOf k i) off n val

/-- A store through SPR (R158, R159): one way; its refusal arrives later. -/
def sprStore (s : State) (ptr : Word) (n val : Nat) : Res :=
  let k := s.curCore
  let go := fun (s : State) (net : Net) (dst : Nat) =>
    Res.done (s.send { net := net, owner := some s.cur, ctx := s.thr.ctx, cls := 1, src := k, dst := dst,
                       body := .spr 0 ptr n val 0 0 .none }) []
  withRank s (ptrRank ptr) (fun w s =>
    match w with
    | .nowhere => go s .local k
    | .moving => .park
    | .away => .park
    | .here c i => if c = k then .done (s.sprLocal i ptr n val) [] else go s .req c)

/-- A store once its operands are read (R138, R140, R144, R181). -/
def storeBody (s : State) (base val : Word) (imm : BitVec 12) (n : Nat) : Res :=
  match s.formPtr base imm.toInt n true with
  | .error (c, v) => .trap c v
  | .ok ptr =>
    let v := val.toNat % 2 ^ (8 * n)
    match s.cur with
    | .episode x =>
      if !(s.episode x).admits ptr n true then .trap .pointerFault ptr else .done (s.epWrite x ptr n v) []
    | .slot k i =>
      if s.thr.vecAccessesOut then .park
      else
        match ptrPath ptr with
        | 2 =>
          match (s.crewOf k i).phys (ptrOff ptr) with
          | some _ => .done (s.spadWrite k (s.crewOf k i) (ptrOff ptr) n v) []
          | none => .done (s.setThr (s.thr.noteOor ptr)) []
        | 3 => sprStore s ptr n v
        | 4 =>
          if !s.vaultGrant s.thr.ctx ptr n true then .trap .vaultFault ptr
          else
            .done ((s.setThr (s.thr.noteVault k (vaultOf ptr))).send
              { net := (vaultPort k (vaultOf ptr)).1, owner := some s.cur, ctx := s.thr.ctx, cls := 1, src := k,
                dst := (vaultPort k (vaultOf ptr)).2, body := .pstore ptr n v }) []
        | 7 =>
          if n ≠ 8 then .trap .pointerFault ptr
          else if s.privilege s.cur < 2 && iorSystem (ptrAddr ptr) then .trap .privilege ptr
          else .done (s.send { net := .req, owner := some s.cur, ctx := s.thr.ctx, cls := 1, src := k, dst := hubPort,
                               body := .pstore ptr 8 v }) []
        | _ => genStore s ptr n v

/-- A STORE instruction (R137). -/
def storeOp (f3 n : Nat) (imm : BitVec 12) (b a : Reg) : State → Out :=
  issue { word := wordS 1 f3 imm.toNat b.toNat a.toNat, srcs := [a, b], leaves := true } (fun s xs =>
    storeBody s (arg xs 0) (arg xs 1) imm n)

/-- STB (R137). -/
def execStb (imm : BitVec 12) (b a : Reg) : State → Out := storeOp 0 1 imm b a

/-- STH (R137). -/
def execSth (imm : BitVec 12) (b a : Reg) : State → Out := storeOp 1 2 imm b a

/-- STW (R137). -/
def execStw (imm : BitVec 12) (b a : Reg) : State → Out := storeOp 2 4 imm b a

/-- STD (R137). -/
def execStd (imm : BitVec 12) (b a : Reg) : State → Out := storeOp 3 8 imm b a

/-! ### PREF, CPIN, CUNPIN, CFLUSH (R141, R142) -/

/-- The cache a PREF fetches its line into (R141, R149, R150): 0 the L1, 1 the cluster cache, 2 the pier; none where its page or a
full set keeps it out, or the line is there. A page with CA 1, or a pinned set, is prefetched into the cluster cache for level 0. -/
def State.prefLevel (s : State) (e : Word) (line level : Nat) (ro : Bool) : Option Nat :=
  let k := s.curCore
  if leafSync e || leafCA e == 2 then none
  else if level = 0 && leafCA e == 0 && s.canAlloc 0 k line then (if s.wholeAt 0 k line ro then none else some 0)
  else if level ≤ 1 then (if s.wholeAt 1 (k / 16) line ro then none else some 1)
  else if s.homeDie (256 * line) = k / 256 || s.wholeAt 2 (s.visitSlice k (256 * line)) line ro then none
  else some 2

/-- PREF (R141): a hint that changes no register; the line is fetched where the pointer, its translation and its rights
allow, and a miss register is free. A page that no TLB holds is walked first (R167). An episode's has no effect (R367). -/
def execPref (imm : BitVec 12) (a level : Reg) : State → Out :=
  issue { word := wordI 0 7 imm.toNat a.toNat level.toNat, srcs := [a] } (fun s xs =>
    if s.cur.isEpisode then .done s []
    else
      match s.formPtr (arg xs 0) imm.toInt 0 false with
      | .error _ => .done s []
      | .ok ptr =>
        let k := s.curCore
        let va := ptrAddr ptr
        let ro := ptrPath ptr == 1
        if 1 < ptrPath ptr then .done s []
        else
          match s.xlat va 0 with
          | .rights .. => .done s []
          | .miss => if s.thr.noCode = some (va / 65536) then .done s [] else .parkWith (startWalk va 3)
          | .leaf e sh =>
            let pa := leafPa e sh va
            match s.prefLevel e (pa / 256) level.toNat ro with
            | none => .done s []
            | some l =>
              let acc : PAccess := { pa := pa, n := 1, region := leafRegion e, sync := false, ca := l }
              let inCC := decide (l < 2) && s.wholeAt 1 (k / 16) (pa / 256) ro
              if s.missFree k acc.miss then .done ((s.setThr (s.thr.noteMiss s k pa inCC)).sendFetch acc ro inCC none) []
              else .done s [])

/-- The line operations of R142: the path, the translation and the rights of a load; SYNC pages and pages with CA
other than 0 see no effect. An episode's have none (R367). -/
def lineOp (f3 : Nat) (imm : BitVec 12) (a : Reg) (f : State → Word → Nat → Word → Res) : State → Out :=
  issue { word := wordS 1 f3 imm.toNat 0 a.toNat, srcs := [a], leaves := true } (fun s xs =>
    if s.cur.isEpisode then .done s []
    else
      match s.formPtr (arg xs 0) imm.toInt 0 false with
      | .error (c, v) => .trap c v
      | .ok ptr =>
        if 1 < ptrPath ptr then .trap .pointerFault ptr
        else
          withLeaf s (ptrAddr ptr) 0 (fun e sh =>
            if leafSync e || leafCA e != 0 then .done s [] else f s e (leafPa e sh (ptrAddr ptr)) ptr))

/-- The pin bit of a line of a core's L1 set or cleared. -/
def State.setPin (s : State) (k line ctx : Nat) (b : Bool) : State :=
  match findLine (s.core k).l1 line with
  | some l => s.setLinesAt 0 k (putLine (s.core k).l1 { l with pin := b, ctx := if b then ctx else l.ctx })
  | none => s

/-- CPIN (R142, R148): it completes at issue; an absent line is allocated and pinned, and its sectors are fetched; a fully pinned
set makes it do nothing. -/
def execCpin (imm : BitVec 12) (a : Reg) : State → Out :=
  lineOp 4 imm a (fun s e pa ptr =>
    let k := s.curCore
    let line := pa / 256
    let ro := ptrPath ptr == 1
    let acc : PAccess := { pa := pa, n := 1, region := leafRegion e, sync := false, ca := 0 }
    match findLine (s.core k).l1 line with
    | some _ => .done (s.setPin k line s.curCtx true) []
    | none =>
      if !s.canAlloc 0 k line then .done s []
      else if !s.missFree k acc.miss then .park
      else
        let inCC := s.wholeAt 1 (k / 16) line ro
        let s := s.setThr (s.thr.noteMiss s k pa inCC)
        let s := (allocLine (belowL1 s (k / 16) line) k 0 k s line s.curCtx ro).setPin k line s.curCtx true
        .done (s.sendFetch acc ro inCC none) [])

/-- CUNPIN (R142): the line stays valid. -/
def execCunpin (imm : BitVec 12) (a : Reg) : State → Out :=
  lineOp 5 imm a (fun s _ pa _ => .done (s.setPin s.curCore (pa / 256) s.curCtx false) [])

/-- A line dropped from a cache after its dirty words have gone; a unit that its REGs name is told (R142, R306). -/
def State.shedLine (s : State) (level unit line : Nat) : State :=
  match findLine (s.linesAt level unit) line with
  | some l =>
    let s := (s.tellRegistrant level line 0 l.s0).tellRegistrant level line 1 l.s1
    (s.setLinesAt level unit (dropLine (s.linesAt level unit) line)).forgetLine level unit line
  | none => s

/-- Whether a core's L1, its cluster cache or its visitor slice holds dirty words of a line. -/
def State.lineDirty (s : State) (k line : Nat) : Bool :=
  [(0, k), (1, k / 16), (2, s.visitSlice k (256 * line))].any (fun u =>
    (s.sectorAt u.1 u.2 line 0).dirty != 0 || (s.sectorAt u.1 u.2 line 1).dirty != 0)

/-- CFLUSH (R142): dirty words go to the home pier with the registration of a package-scope release; an unpinned line
then leaves the L1, and the line the cluster cache. -/
def execCflush (imm : BitVec 12) (a : Reg) : State → Out :=
  lineOp 6 imm a (fun s _ pa _ =>
    let k := s.curCore
    let line := pa / 256
    let s := if s.lineDirty k line then s.setThr (s.thr.noteHome s k pa true) else s
    let s := (s.pushHome k line 0).pushHome k line 1
    let pinned := (findLine (s.core k).l1 line).elim false (fun l => l.pin)
    let s := if pinned then s else s.shedLine 0 k line
    .done (s.shedLine 1 (k / 16) line) [])

/-! ### Completion of loads (R139, R147, R148, R150) -/

/-- A load's value lands and its packet is gone. -/
def State.landLoad (s : State) (p : Packet) (dst : Dest) (v : Word) : State :=
  let s := s.dropPacket p.id
  match p.owner with
  | some a => s.landAt a dst v p.vseq
  | none => s

/-- A load's value lands, unless the words it comes from are poisoned where it is served (R410, R411). -/
def State.landTested (s : State) (p : Packet) (dst : Dest) (ptr : Word) (place unit at_ n : Nat) (v : State → Word) : State :=
  match s.tested (p.owner.getD (.slot p.src 0)) place unit at_ n with
  | none => s.poisonPacket p ptr
  | some s => s.landLoad p dst (v s)

/-- A cached access once its line has come: in the L1 where it allocates there, else in the cluster cache or the pier (R147,
R149): the level and unit that serve it. -/
def State.fetched (s : State) (k ctx : Nat) (x : PAccess) (ro : Bool) : Nat × Nat × State :=
  if x.ca = 0 && s.canAlloc 0 k (x.pa / 256) then (0, k, s.fillL1 k (x.pa / 256) ctx x.region ro)
  else if x.ca < 2 then (1, k / 16, s.fillCC (k / 16) (x.pa / 256) ctx x.region ro)
  else (2, s.visitSlice k x.pa, s.fillPier (k / 16) (x.pa / 256) ctx x.region ro)

/-- The access of an outstanding load, or of a line fetch, performed, and its value landed. -/
def State.performLoad (s : State) (p : Packet) : State :=
  match p.body with
  | .load dst ptr n signed (some x) ro none =>
    if x.sync || x.ca == 2 then s.landTested p dst ptr 0 0 x.pa n (fun s => extend signed n (s.mem.readLE x.pa n))
    else
      let (level, unit, s) := s.fetched p.core p.ctx x ro
      s.landTested p dst ptr (3 + level) unit x.pa n (fun s => extend signed n (s.readSector level unit x.pa n))
  | .load dst ptr n signed none _ none =>
    if ptrPath ptr = 4 then
      let off := bits ptr 26 0
      s.landTested p dst ptr 2 (vaultOf ptr) off n
        (fun s => extend signed n ((Tab.get [] s.vaults (vaultOf ptr) : Memory).readLE off n))
    else s.landLoad p dst (s.iorRead (ptrAddr ptr))
  | .load dst _ _ _ _ _ (some v) => s.landLoad p dst v
  | .fetch x ro none => (s.fetched p.core p.ctx x ro).2.2.dropPacket p.id
  | .fetch x _ (some v) => (s.cachedStore p.core x.pa x.n v x.ca x.region p.ctx).dropPacket p.id
  | _ => s

/-- The accesses of a core that have joined the miss register of a packet, oldest first (R148). -/
def State.joined (s : State) (p : Packet) : List Nat :=
  match p.owner, p.body.miss with
  | some (.slot k _), .line n => (s.packets.filter (fun q => q.id != p.id && match q.owner with
      | some (.slot c _) => c == k && q.body.miss == .line n
      | _ => false)).map Packet.id
  | _, _ => []

/-- A joined access performed with the line that has arrived, unless an access of its thread stands before it. -/
def State.performJoined (s : State) (id : Nat) : State :=
  match s.packet? id with
  | some q => if s.orderClear q then s.performLoad q else s
  | none => s

/-- Whether a load's packet may land now: its time has come, or it has reached its port and nothing of its thread is
to be performed before it. -/
def State.loadDue (s : State) (p : Packet) : Bool :=
  match p.due with
  | some f => decide (f ≤ s.now)
  | none => s.ready p && s.orderClear p

/-- LOAD_REPLY: a request that has reached its port is answered on RSP (R270); the data of a load lands in its register or queue
entry, and with it every access joined to its miss register (R139, R148). -/
def execLoadReply (id : Nat) (s : State) : Out :=
  match s.packet? id with
  | some p =>
    let go : Out := if p.net == .req then .next (if s.ready p then s.reply p .rsp p.body else s) else if s.loadDue p then .next ((s.joined p).foldl State.performJoined (s.performLoad p)) else .next s
    match p.body with
    | .load .. => go
    | .fetch .. => go
    | _ => .next s
  | none => .next s

/-! ### Stores at their place (R143, R150, R162) -/

/-- HOME_PIER_STORE: a store reaches its home pier, its vault or the hub and is performed there, in its thread's
program order; waiters of the word are tested again (R150, R323). -/
def execHomePierStore (id : Nat) (s : State) : Out :=
  match s.arrived? id with
  | some p =>
    if !s.orderClear p then .next s
    else
      match p.body with
      | .store x v => .next ((s.dropPacket id).homeStore x.pa x.n v)
      | .pstore ptr n v =>
        let s1 := s.dropPacket id
        if ptrPath ptr = 4 then
          let w := vaultOf ptr
          .next ({ s1 with vaults := Tab.set s1.vaults w ((Tab.get [] s1.vaults w : Memory).writeLE (bits ptr 26 0) n v) }.clearPoison
            2 w (bits ptr 26 0) n)
        else .next (s1.iorWrite (ptrAddr ptr) (wordOf v))
      | _ => .next s
  | none => .next s

/-! ### Remote scratchpad accesses (R158, R159) -/

/-- The new value of an atomic on `n` bytes (R317). -/
def atomicNew (fn n old v : Nat) : Nat :=
  let sx := fun (x : Nat) => (sextLow (wordOf x) (8 * n)).toInt
  match fn with
  | 0 => (old + v) % 2 ^ (8 * n)
  | 1 => v
  | 2 => v
  | 3 => if sx v < sx old then v else old
  | 4 => if sx old < sx v then v else old
  | 5 => Nat.min old v
  | 6 => Nat.max old v
  | 7 => old &&& v
  | 8 => old ||| v
  | _ => old ^^^ v

/-- Whether an atomic writes: AMOCAS only where the old value is the expected one (R317). -/
def atomicWrites (fn old cmp : Nat) : Bool := !(fn == 2 && old != cmp)

/-- What an atomic leaves behind: AMOCAS writes only where the old value is the expected one (R317). -/
def atomicResult (fn n old v cmp : Nat) : Nat := if fn = 2 && old != cmp then old else atomicNew fn n old v

/-- REMOTE_SCRATCHPAD_ACCESS: an SPR store or atomic reaches the core its rank names, which admits it under its
windows or refuses it; a rank that names no thread is refused the same way (R158, R159). -/
def execRemoteScratchpadAccess (id : Nat) (s : State) : Out :=
  match s.arrived? id with
  | some p =>
    match p.body with
    | .spr kind ptr n val fn cmp dst =>
      let back := if p.src = p.dst then Net.local else .rsp
      match s.resolveRank p.ctx (ptrRank ptr) with
      | .moving => .next (s.refuse p)
      | .away => .next (s.setPacket { p with held := true })
      | .nowhere => .next (s.reply p back (.sprRefuse kind ptr dst))
      | .here k i =>
        if k ≠ p.dst then .next (s.resend p .req p.src k p.body)
        else
          let off := ptrOff ptr
          if !s.windowAdmits k i off n (if kind = 1 then 2 else 1) (p.owner.getD (.slot p.src 0)) then
            .next (s.reply p back (.sprRefuse kind ptr dst))
          else
            let c := s.crewOf k i
            match c.phys off with
            | none => .next (s.reply p back (.sprAck kind ptr n 0 true dst))
            | some o =>
              match if kind = 1 then s.tested (p.owner.getD (.slot p.src 0)) 1 k o n else some s with
              | none => .next (s.poisonPacket p ptr)
              | some s =>
                let old := s.spadRead k c off n
                let new := if kind = 1 then atomicResult fn n old val cmp else val
                .next ((s.spadWrite k c off n new).reply p back (.sprAck kind ptr n old false dst))
    | _ => .next s
  | none => .next s

/-- REMOTE_ACK: the answer lands at the requester: an atomic's value, and THR_OORFLAG where the access was out of range
(R155, R158). -/
def execRemoteAck (id : Nat) (s : State) : Out :=
  match s.arrived? id with
  | some p =>
    match p.body with
    | .sprAck kind ptr n v oor dst =>
      let s1 := s.dropPacket id
      match p.owner with
      | some a =>
        let s2 := if oor then s1.setThrOf a ((s1.thrOf a).noteOor ptr) else s1
        if kind = 1 then .next (s2.land a dst (extend true n v)) else .next s2
      | none => .next s1
    | _ => .next s
  | none => .next s

/-- A destination that waited gets its old state back: the register is no longer pending, the queue entry goes. -/
def State.unawait (s : State) (a : Actor) (dst : Dest) : State :=
  match dst with
  | .none => s
  | .reg r => let t := s.thrOf a
              s.setThrOf a { t with pending := maskSet t.pending r.toNat false }
  | .queue i tag =>
    let c := s.core a.core
    let q := c.queue i
    s.setCore a.core (c.setQueue i { q with ents := q.ents.filter (fun e => e.tag != tag) })

/-- SPR_REFUSAL_ARRIVAL: a store's refusal makes a deferred SCRATCHPAD_REFUSAL pending; an atomic's traps at the
atomic, whose thread has waited for it (R159). -/
def execSprRefusalArrival (id : Nat) (s : State) : Out :=
  match s.arrived? id with
  | some p =>
    match p.body with
    | .sprRefuse kind ptr dst =>
      let s1 := s.dropPacket id
      match p.owner with
      | some a =>
        let t := s1.thrOf a
        if kind = 1 && !(t.run == .issuing && t.stage == 8) then .next s1
        else if kind = 1 then
          let s2 := (s1.setThrOf a { t with stage := 0, vals := [], arg := 0 }).unawait a dst
          .next (s2.takeTrap a .scratchpadRefusal ptr t.pc false)
        else .next (s1.setThrOf a { t with async := t.async ++ [{ cause := .scratchpadRefusal, tval := ptr }] })
      | none => .next s1
    | _ => .next s
  | none => .next s

/-- ICACHE_REFILL: a line arrives in a core's instruction cache; the threads parked on it go on at their turns (R63).
Lines are numbered by their virtual address and the context of the thread that needs them. -/
def execIcacheRefill (core line : Nat) (s : State) : Out :=
  let c := s.core core
  if c.icache.contains line then .next s
  else .next (s.setCore core { c with icache := line :: c.icache })

end Sys2Proof.Machine
end

