-- ==== Sys2Proof/Machine/VectorMath.lean ====
section
/-! DEFINITION. What vector instructions compute (R173 to R177, R187 to R192, R195 to R208, R215 to R228, R251, R252): the
elements a dispatched instruction reads and writes, its flags, its checked unit, and the conversions of vector memory
instructions. Nothing here decides when. -/

namespace Sys2Proof.Machine

/-! ### Element types and formats (R173, R175, R189) -/

/-- s: bytes of an element of an ET. -/
def etSize (et : Nat) : Nat := match et with | 0 => 1 | 1 => 2 | 2 => 2 | 3 => 4 | _ => 8

/-- fr: the floating format of an ET other than E8. -/
def etFmt (et : Nat) : FFmt := match et with | 1 => fp16 | 2 => bf16 | 4 => fp64 | _ => fp32

/-- Memory bytes of an element of a format code; a RAW element has the size of the ET (R103, R189). -/
def fmtSize (f s : Nat) : Nat :=
  match f with
  | 0 => s
  | 3 | 4 | 10 | 11 => 2
  | 5 | 6 | 9 => 4
  | 7 | 8 => 8
  | _ => 1

/-- Signed and unsigned integer format codes (R103). -/
def fmtSigned (f : Nat) : Bool := f == 1 || f == 3 || f == 5 || f == 7
def fmtUnsigned (f : Nat) : Bool := f == 2 || f == 4 || f == 6

/-- Block-scaled format codes: FP4B, I4B, T1B. -/
def fmtBlock (f : Nat) : Bool := f == 14 || f == 15 || f == 16

/-- The floating format of a code 8 to 13, or E3M5. -/
def fmtFloat (f : Nat) : FFmt :=
  match f with
  | 8 => fp64
  | 9 => fp32
  | 10 => fp16
  | 11 => bf16
  | 12 => fp8e4m3
  | 13 => fp8e5m2
  | _ => e3m5

/-- Whether a vector load may convert a format to an ET (R191). -/
def loadFormatOk (f et : Nat) : Bool :=
  let s := etSize et
  match f with
  | 0 => true
  | 8 => et == 4
  | 9 => et == 3 || et == 4
  | 10 => et == 1 || et == 3 || et == 4
  | 11 => et == 2 || et == 3 || et == 4
  | 12 | 13 => true
  | 14 | 15 | 16 => et == 1 || et == 3 || et == 4
  | 17 => false
  | _ => decide (f ≤ 18) && decide (fmtSize f s ≤ s)

/-- Whether a vector store may convert an ET to a format (R192). -/
def storeFormatOk (f et : Nat) : Bool :=
  let s := etSize et
  match f with
  | 0 => true
  | 8 | 9 | 10 | 11 => et != 0 && decide (fmtSize f s ≤ s)
  | 12 | 13 => true
  | 14 | 15 | 16 => et == 1 || et == 3 || et == 4
  | 17 => false
  | _ => decide (f ≤ 18) && decide (fmtSize f s ≤ s)

/-- An integer cut to w bits. -/
def cutInt (w : Nat) (x : Int) : Nat := (x % (2 ^ w : Nat)).toNat

/-- w bits read as two's complement. -/
def readInt (w x : Nat) : Int := if 2 ^ (w - 1) ≤ x % 2 ^ w then (x % 2 ^ w : Nat) - (2 ^ w : Nat) else (x % 2 ^ w : Nat)

/-- A memory element converted to a register element (R191); no flag. -/
def loadConvert (f et raw : Nat) : Nat :=
  let s := etSize et
  if f = 0 ∨ fmtUnsigned f ∨ f = 18 then raw
  else if fmtSigned f then cutInt (8 * s) (readInt (8 * fmtSize f s) raw)
  else if (et = 0 ∧ 12 ≤ f) ∨ fmtFloat f = etFmt et then raw
  else ((etFmt et).convert (.mode 1) ((fmtFloat f).unpack raw)).1

/-- A register element converted to a memory element (R192): its bytes and flags. -/
def storeConvert (f et rm x : Nat) : Nat × Nat :=
  let s := etSize et
  if f = 0 then (x, 0)
  else if fmtSigned f ∨ fmtUnsigned f ∨ f = 18 then (x % 2 ^ (8 * fmtSize f s), 0)
  else if (et = 0 ∧ 12 ≤ f) ∨ fmtFloat f = etFmt et then (x, 0)
  else (fmtFloat f).convert (.mode rm) ((etFmt et).unpack x)

/-- The element set of a block-scaled code: 0 E2M1, 1 integers, 2 ternary (R112, R116). -/
def blockSet (f : Nat) : Nat := f - 14

/-- Where element `i` of a block-scaled pointer lies (R114): its byte, its shift in it, its scale byte. -/
def blockPlace (f l i : Nat) : Nat × Nat × Nat :=
  let g := 160 * (i / 256)
  let k := i % 256
  let sc := g + 128 + k / 2 ^ (3 + l)
  if f = 16 then (g + k / 4, 2 * (k % 4), sc) else (g + k / 2, 4 * (k % 2), sc)

/-- Bits of a block-scaled element code. -/
def blockBits (f : Nat) : Nat := if f = 16 then 2 else 4

/-! ### Registers of a context (R171, R187) -/

/-- An element of a vector register. -/
def VecCtx.elem (c : VecCtx) (v i s : Nat) : Nat := (Tab.get [] c.v v : Memory).readLE (i * s) s

/-- An element of a vector register written, with the mark (R187). -/
def VecCtx.putElem (c : VecCtx) (v s : Nat) (x : Nat × Nat) : VecCtx :=
  { c with v := Tab.set c.v v ((Tab.get [] c.v v : Memory).writeLE (x.1 * s) s x.2),
           w := Tab.set c.w v (max (Tab.get 0 c.w v) ((x.1 + 1) * s)) }

/-- A mask register. -/
def VecCtx.mask (c : VecCtx) (m : Nat) : BitVec 2048 := Tab.get 0 c.m m

/-! ### What a dispatched instruction knows (R174, R179, R196) -/

/-- ET copied at dispatch. -/
def VEntry.et (e : VEntry) : Nat := bits e.vtype 3 0

/-- s of an instruction. -/
def VEntry.size (e : VEntry) : Nat := etSize e.et

/-- The indices of present elements, ascending (R174). -/
def VEntry.present (e : VEntry) (c : VecCtx) : List Nat :=
  (List.range e.vl).filter (fun i => !e.op.masked || (c.mask 0).getLsbD i)

/-- The scalar value copied at dispatch. -/
def VEntry.scalar (e : VEntry) : Word := e.xs.headD 0

/-- An imm5 sign-extended to w bits. -/
def imm5 (w x : Nat) : Nat := cutInt w (readInt 5 x)

/-- The second source of kinds 0 to 2 for element `i` (R196); a floating immediate is the exact value of the integer. -/
def VEntry.source (e : VEntry) (c : VecCtx) (float : Bool) (i : Nat) : Nat :=
  let s := e.size
  match e.op.kind with
  | 0 => c.elem e.op.vb i s
  | 1 => e.scalar.toNat % 2 ^ (8 * s)
  | _ => if float then ((etFmt e.et).convert (.mode 1) (ofInt (readInt 5 e.op.vb))).1 else imm5 (8 * s) e.op.vb

/-- x, y and z of element `i` (R196). -/
def VEntry.operands (e : VEntry) (c : VecCtx) (float : Bool) (i : Nat) : Nat × Nat × Nat :=
  let s := e.size
  let va := c.elem e.op.va i s
  let z := c.elem e.op.vd i s
  if e.op.kind = 3 then (e.scalar.toNat % 2 ^ (8 * s), va, z) else (va, e.source c float i, z)

/-! ### VINT (R200, R201) -/

/-- An integer operation on w-bit elements (R200). -/
def vintOp (f5 w x y z : Nat) : Nat :=
  let sx := readInt w x
  let sy := readInt w y
  let lo : Int := -(2 ^ (w - 1) : Nat)
  let hi : Int := (2 ^ (w - 1) : Nat) - 1
  let clamp := fun (v : Int) => cutInt w (min (max v lo) hi)
  let n := y % w
  match f5 with
  | 0 => (x + y) % 2 ^ w
  | 1 => cutInt w ((x : Int) - y)
  | 2 => x * y % 2 ^ w
  | 3 => cutInt w (sx * sy / (2 ^ w : Nat))
  | 4 => x * y / 2 ^ w
  | 5 => (x * y + z) % 2 ^ w
  | 6 => if sx < sy then x else y
  | 7 => if sx < sy then y else x
  | 8 => min x y
  | 9 => max x y
  | 10 => x &&& y
  | 11 => x ||| y
  | 12 => x ^^^ y
  | 13 => x * 2 ^ n % 2 ^ w
  | 14 => x / 2 ^ n
  | 15 => cutInt w (sx / (2 ^ n : Nat))
  | 16 => clamp (sx + sy)
  | _ => clamp (sx - sy)

/-- An integer comparison (R201). -/
def vintCmp (f5 w x y : Nat) : Bool :=
  match f5 with
  | 18 => x == y
  | 19 => x != y
  | 20 => decide (readInt w x < readInt w y)
  | 21 => decide (readInt w x ≤ readInt w y)
  | 22 => decide (x < y)
  | _ => decide (x ≤ y)

/-! ### The approximating instructions (R205 to R208) -/

/-- FP32 mul and fma of the procedures, rounding RNE: the result, and NX where this or an earlier step was inexact. -/
def apMul (p q : Nat) (nx : Nat) : Nat × Nat :=
  let (r, f) := fMul fp32 (.mode 1) (fp32.unpack p) (fp32.unpack q)
  (r, nx ||| (f &&& flagNX))
def apFma (p q t : Nat) (nx : Nat) : Nat × Nat :=
  let (r, f) := fFma fp32 (.mode 1) (fp32.unpack p) (fp32.unpack q) (fp32.unpack t)
  (r, nx ||| (f &&& flagNX))

/-- The sign of FP32 bits inverted. -/
def apNeg (x : Nat) : Nat := x ^^^ 0x80000000

/-- scale(p, k), with a sign: bits and flags. -/
def apScale (neg : Bool) (p : Nat) (k : Int) : Nat × Nat :=
  match fp32.unpack p with
  | .num n m e => fp32.round (.mode 1) (n != neg) m (e + k) false
  | v => fp32.convert (.mode 1) v

/-- The refinement of VFRCP. -/
def rcpIter (d : Nat) : Nat → Nat → Nat → Nat × Nat
  | 0, y, nx => (y, nx)
  | n + 1, y, nx =>
    let (t, nx) := apFma (apNeg d) y 0x3F800000 nx
    let (y, nx) := apFma y t y nx
    rcpIter d n y nx

/-- The refinement of VFRSQ. -/
def rsqIter (h : Nat) : Nat → Nat → Nat → Nat × Nat
  | 0, y, nx => (y, nx)
  | n + 1, y, nx =>
    let (t, nx) := apMul y y nx
    let (u, nx) := apFma (apNeg h) t 0x3FC00000 nx
    let (y, nx) := apMul y u nx
    rsqIter h n y nx

/-- Horner's steps of VFEXP2. -/
def expIter (f : Nat) : List Nat → Nat → Nat → Nat × Nat
  | [], p, nx => (p, nx)
  | k :: ks, p, nx =>
    let (p, nx) := apFma p f k nx
    expIter f ks p nx

/-- An exact FP32 value as bits. -/
def exact32 (neg : Bool) (m : Nat) (e : Int) : Nat := (fp32.round (.mode 1) neg m e false).1

/-- VFRCP of a value: FP32 bits and flags (R205). -/
def vfrcp (v : FVal) : Nat × Nat :=
  match v with
  | .nan sn => (fp32.nan, if sn then flagNV else 0)
  | .inf n => (fp32.pack n 0, 0)
  | .num n m e =>
    if m = 0 then (fp32.pack n fp32.inf, flagDZ)
    else
      let k := Nat.log2 m
      let d := exact32 false m (-((k : Int) + 1))
      let (y, nx) := apFma (apNeg 0x3FF0F0F1) d 0x4034B4B5 0
      let (y, nx) := rcpIter d 3 y nx
      let (r, f) := apScale n y (-(e + k) - 1)
      (r, f ||| nx)

/-- VFRSQ of a value: FP32 bits and flags (R206). -/
def vfrsq (v : FVal) : Nat × Nat :=
  match v with
  | .nan sn => (fp32.nan, if sn then flagNV else 0)
  | .inf n => if n then (fp32.nan, flagNV) else (0, 0)
  | .num n m e =>
    if m = 0 then (fp32.pack n fp32.inf, flagDZ)
    else if n then (fp32.nan, flagNV)
    else
      let k := Nat.log2 m
      let ex := e + k
      let odd : Int := if ex % 2 = 0 then 0 else 1
      let mm := exact32 false m (odd - k)
      let h := exact32 false m (odd - k - 1)
      let (y, nx) := apFma (apNeg 0x3E2AAAAB) mm 0x3F955555 0
      let (y, nx) := rsqIter h 4 y nx
      let (r, f) := apScale false y (-((ex - odd) / 2))
      (r, f ||| nx)

/-- VFEXP2 of a value: FP32 bits and flags (R207). -/
def vfexp2 (v : FVal) : Nat × Nat :=
  match v with
  | .nan sn => (fp32.nan, if sn then flagNV else 0)
  | .inf n => if n then (0, 0) else (fp32.inf, 0)
  | .num n m e =>
    if fCmp v (ofInt 128) != some .lt then (fp32.inf, flagOF + flagNX)
    else if fCmp v (ofInt (-151)) != some .gt then (0, flagUF + flagNX)
    else
      let (i, _) := roundInt (.mode 1) n m e
      let f := (fAdd fp32 (.mode 1) v (ofInt (-i))).1
      let (p, nx) := expIter f [0x39218489, 0x3AAEC3FF, 0x3C1D955B, 0x3D635847, 0x3E75FDF0, 0x3F317218, 0x3F800000]
        0x377FE5FE 0
      let (r, fl) := apScale false p i
      (r, fl ||| nx)

/-- An approximating instruction on an element of fr: the FP32 result narrowed to fr by RNE (R208). -/
def vfApprox (f5 : Nat) (fr : FFmt) (x : Nat) : Nat × Nat :=
  let v := fr.unpack x
  let (r, fl) := match f5 with
    | 12 => vfrcp v
    | 13 => vfrsq v
    | _ => vfexp2 v
  if fr = fp32 then (r, fl)
  else let (y, f') := fr.convert (.mode 1) (fp32.unpack r)
       (y, fl ||| f')

/-! ### VFP (R202, R203) -/

/-- A floating operation on elements of fr: bits and flags (R202, VFCLS of R203). -/
def vfpOp (f5 : Nat) (fr : FFmt) (rm x y z : Nat) : Nat × Nat :=
  let a := fr.unpack x
  let b := fr.unpack y
  let c := fr.unpack z
  let r := Rnd.mode rm
  match f5 with
  | 0 => fAdd fr r a b
  | 1 => fAdd fr r a b.neg
  | 2 => fMul fr r a b
  | 3 => fDiv fr r a b
  | 4 => fSqrt fr r a
  | 5 => fFma fr r a b c
  | 6 => fFma fr r a b c.neg
  | 7 => fFma fr r a.neg b c
  | 8 => fMinMax fr false x y
  | 9 => fMinMax fr true x y
  | 10 => (x % 2 ^ (fr.width - 1), 0)
  | 11 => (x ^^^ 2 ^ (fr.width - 1), 0)
  | 18 => (fClass fr x, 0)
  | _ => vfApprox f5 fr x

/-- A vector floating comparison (R203). -/
def vfpCmp (f5 : Nat) (fr : FFmt) (x y : Nat) : Bool × Nat := fCompare fr (f5 - 15) x y

/-! ### Reductions (R125, R227, R228) -/

/-- add() of R125 and R228 under a mode, with the flags so far. -/
def redAdd (fr : FFmt) (r : Rnd) (p q : Option Nat) (fl : Nat) : Option Nat × Nat :=
  match p, q with
  | none, _ => (q, fl)
  | _, none => (p, fl)
  | some a, some b => let (x, f) := fAdd fr r (fr.unpack a) (fr.unpack b)
                      (some x, fl ||| f)

/-- One level of a pairwise tree. -/
def redLevel (fr : FFmt) (r : Rnd) : List (Option Nat) → Nat → List (Option Nat) × Nat
  | p :: q :: rest, fl =>
    let (x, fl) := redAdd fr r p q fl
    let (xs, fl) := redLevel fr r rest fl
    (x :: xs, fl)
  | ps, fl => (ps, fl)

/-- The tree over a power of two of nodes: `k` levels. -/
def redTree (fr : FFmt) (r : Rnd) : Nat → List (Option Nat) → Nat → Option Nat × Nat
  | 0, ns, fl => (ns.headD none, fl)
  | k + 1, ns, fl => let (ns, fl) := redLevel fr r ns fl
                     redTree fr r k ns fl

/-- VFREDSUM in the length-agnostic order (R125): the sum and its flags, for the present elements of `x`. -/
def vfredsumLA (fr : FFmt) (x : Nat → Option Nat) (vl init : Nat) : Nat × Nat :=
  let (a, fl) := (List.range ((vl + 31) / 32)).foldl (fun (acc : Option Nat × Nat) j =>
    let (n, fl) := redTree fr (.mode 1) 5 ((List.range 32).map (fun k => x (32 * j + k))) acc.2
    redAdd fr (.mode 1) acc.1 n fl) (some init, 0)
  (a.getD init, fl)

/-- The lanes of R228: e = 64g / s. -/
def redLanes (g s : Nat) : Nat := 64 * g / s

/-- VFREDSUM in the lane-grouped order (R228). -/
def vfredsumLanes (fr : FFmt) (rm : Nat) (x : Nat → Option Nat) (vl lanes init : Nat) : Nat × Nat :=
  let (acc, fl) := (List.range vl).foldl (fun (a : List (Option Nat) × Nat) i =>
    let (v, f) := redAdd fr (.mode rm) (a.1.getD (i % lanes) none) (x i) a.2
    (a.1.set (i % lanes) v, f)) (List.replicate lanes none, 0)
  let (n, fl) := redTree fr (.mode rm) (Nat.log2 lanes) acc fl
  match n with
  | none => (init, fl)
  | some _ => let (r, fl) := redAdd fr (.mode rm) (some init) n fl
              (r.getD init, fl)

/-! ### Conversion (R217, R218) -/

/-- Whether VCVT may convert an ET to a code (R217). -/
def vcvtOk (code et : Nat) : Bool :=
  let s := etSize et
  et != 0 && (match code with
    | 0 => true
    | 14 | 15 | 16 => et != 2
    | 17 => false
    | 18 => true
    | _ => decide (fmtSize code s ≤ s))

/-- A value converted to a code 1 to 13 or 18, as it stands in an element of w bits (R217): bits and flags. -/
def toCode (code w : Nat) (r : Rnd) (v : FVal) : Nat × Nat :=
  let n := 8 * fmtSize code 0
  if fmtSigned code then
    let (x, f) := toInt r (-(2 ^ (n - 1) : Nat)) ((2 ^ (n - 1) : Nat) - 1) v
    (cutInt w x, f)
  else if fmtUnsigned code then
    let (x, f) := toInt r 0 ((2 ^ n : Nat) - 1) v
    (cutInt w x, f)
  else (fmtFloat code).convert r v

/-- The rounding of one conversion and the stochastic state after it: a step for every element under SR (R124). -/
def srStep (sr : Bool) (rm : Nat) (seed : BitVec 32) : Rnd × BitVec 32 :=
  if sr then let s := galois seed
             (.sr (s.toNat / 65536), s)
  else (.mode rm, seed)

/-- Elements converted one by one: the results, flags and stochastic state after (R217, R218, R124). -/
def convertAll (f : Rnd → Nat → Nat × Nat) (sr : Bool) (rm : Nat) :
    List Nat → BitVec 32 → List (Nat × Nat) × Nat × BitVec 32
  | [], seed => ([], 0, seed)
  | i :: is, seed =>
    let (r, seed) := srStep sr rm seed
    let (x, fl) := f r i
    let (xs, fl', seed) := convertAll f sr rm is seed
    ((i, x) :: xs, fl ||| fl', seed)

/-- A VCVT to a block-scaled format, block by block of eight elements (R217): each encoded and read back in fr. -/
def convertBlocks (code rm : Nat) (sr : Bool) (fr : FFmt) (here : Nat → Bool) (x : Nat → Nat) :
    List Nat → BitVec 32 → List (Nat × Nat) × Nat × BitVec 32
  | [], seed => ([], 0, seed)
  | j :: js, seed =>
    let idx := (List.range 8).map (fun k => 8 * j + k)
    let (sc, cs, fl, seed) := encodeBlock (blockSet code) rm sr seed
      (idx.map (fun i => if here i then some (fr.unpack (x i)) else none))
    let out := (idx.zip cs).filterMap (fun p =>
      if here p.1 then some (p.1, (fr.convert (.mode 1) (decodeElem (blockSet code) p.2 sc)).1) else none)
    let (xs, fl', seed) := convertBlocks code rm sr fr here x js seed
    (out ++ xs, fl ||| fl', seed)

/-! ### What an instruction computes -/

/-- Results of a vector instruction: elements of vd, a mask register, a scalar, flags, the stochastic state, and a tile. -/
structure VOut where
  elems : List (Nat × Nat) := []
  mask : Option (BitVec 2048) := none
  clear : Bool := false
  scalar : Option Word := none
  flags : Nat := 0
  seed : BitVec 32 := 1
  tile : Option Tile := none
  deriving DecidableEq, Repr

/-- Elements computed one by one, their flags ORed (R204). -/
def mapElems (is : List Nat) (f : Nat → Nat × Nat) : List (Nat × Nat) × Nat :=
  (is.map (fun i => (i, (f i).1)), is.foldl (fun fl i => fl ||| (f i).2) 0)

/-- Bits of a mask register replaced at given positions. -/
def maskBits (old : BitVec 2048) (bs : List (Nat × Bool)) : BitVec 2048 :=
  bs.foldl (fun m b => if b.2 then m ||| BitVec.ofNat 2048 (2 ^ b.1) else m &&& ~~~ BitVec.ofNat 2048 (2 ^ b.1)) old

/-- VINT (R200, R201). -/
def vintOut (e : VEntry) (c : VecCtx) : VOut :=
  let w := 8 * e.size
  let is := e.present c
  if 18 ≤ e.op.f5 then
    { mask := some (maskBits (c.mask e.op.vd) (is.map (fun i =>
        let (x, y, _) := e.operands c false i
        (i, vintCmp e.op.f5 w x y)))) }
  else
    { elems := is.map (fun i =>
        let (x, y, z) := e.operands c false i
        (i, vintOp e.op.f5 w x y z)) }

/-- VFP (R202, R203). -/
def vfpOut (e : VEntry) (c : VecCtx) : VOut :=
  let fr := etFmt e.et
  let is := e.present c
  if 15 ≤ e.op.f5 ∧ e.op.f5 ≤ 17 then
    let rs := is.map (fun i =>
      let (x, y, _) := e.operands c true i
      (i, vfpCmp e.op.f5 fr x y))
    { mask := some (maskBits (c.mask e.op.vd) (rs.map (fun r => (r.1, r.2.1)))),
      flags := rs.foldl (fun fl r => fl ||| r.2.2) 0 }
  else
    let (xs, fl) := mapElems is (fun i =>
      let (x, y, z) := e.operands c true i
      vfpOp e.op.f5 fr e.rm x y z)
    { elems := xs, flags := fl }

/-- The index an instruction takes: the scalar, or imm5 read unsigned (R220, R221). -/
def VEntry.amount (e : VEntry) : Nat := if e.op.kind = 1 then e.scalar.toNat else e.op.vb

/-- A reduction's element 0 of vd (R227). -/
def reduceOut (e : VEntry) (c : VecCtx) (g : Nat) : VOut :=
  let s := e.size
  let w := 8 * s
  let fr := etFmt e.et
  let is := e.present c
  let init := c.elem e.op.vb 0 s
  let x := fun i => c.elem e.op.va i s
  let pick := fun i => if is.contains i then some (x i) else none
  if is.isEmpty then {}
  else
    match e.op.f5 with
    | 12 => { elems := [(0, is.foldl (fun a i => (a + x i) % 2 ^ w) init)] }
    | 13 => { elems := [(0, is.foldl (fun a i => vintOp 6 w a (x i) 0) init)] }
    | 14 => { elems := [(0, is.foldl (fun a i => vintOp 7 w a (x i) 0) init)] }
    | 15 =>
      let (r, fl) := if bitOf e.vtype 4 then vfredsumLA fr pick e.vl init
                     else vfredsumLanes fr e.rm pick e.vl (redLanes g s) init
      { elems := [(0, r)], flags := fl }
    | f =>
      let (r, fl) := is.foldl (fun (a : Nat × Nat) i =>
        let (m, f') := fMinMax fr (f == 17) a.1 (x i)
        (m, a.2 ||| f')) (init, 0)
      { elems := [(0, r)], flags := fl }

/-- VPERM but for VCFG and VGRANT (R188, R217 to R227). -/
def vpermOut (e : VEntry) (c : VecCtx) (g : Nat) (seed : BitVec 32) : VOut :=
  let s := e.size
  let w := 8 * s
  let vlmax := 1024 / s
  let fr := etFmt e.et
  let is := e.present c
  let x := fun i => c.elem e.op.va i s
  let below := List.range e.vl
  match e.op.f5 with
  | 2 =>
    let sr := e.op.kind == 3
    let code := e.op.vb
    if fmtBlock code then
      let js := (List.range ((e.vl + 7) / 8)).filter (fun j => is.any (fun i => i / 8 == j))
      let (xs, fl, sd) := convertBlocks code e.rm sr fr (fun i => is.contains i) x js seed
      { elems := xs, flags := fl, seed := sd }
    else
      let (xs, fl, sd) := convertAll (fun r i =>
        if code = 0 then fr.convert r (ofInt (readInt w (x i))) else toCode code w r (fr.unpack (x i))) sr e.rm is seed
      { elems := xs, flags := fl, seed := sd }
  | 3 => { elems := is.map (fun i => (i, if e.op.kind = 1 then e.scalar.toNat % 2 ^ w else imm5 w e.op.vb)) }
  | 4 => { scalar := some (if e.amount < vlmax then wordOf (x e.amount) else 0) }
  | 5 => { elems := is.map (fun i => (i, x i)) }
  | 6 =>
    { elems := is.map (fun i =>
        (i, (if e.op.masked then (is.filter (fun j => decide (j < i))).length else i) % 2 ^ w)) }
  | 7 => { elems := (is.filter (fun i => decide (e.amount ≤ i))).map (fun i => (i, x (i - e.amount))) }
  | 8 => { elems := is.map (fun i => (i, if i + e.amount < e.vl then x (i + e.amount) else 0)) }
  | 9 =>
    let n := 2 ^ e.op.kind
    { elems := below.map (fun i =>
        let t := c.elem e.op.vb i s
        (i, if t < n * vlmax then c.elem (e.op.va + t / vlmax) (t % vlmax) s else 0)) }
  | 10 => { elems := ((below.filter (fun i => (c.mask 0).getLsbD i)).zipIdx).map (fun p => (p.2, x p.1)) }
  | 11 => { elems := below.map (fun i => (i, if (c.mask 0).getLsbD i then e.source c false i else x i)) }
  | 18 =>
    let a := c.mask e.op.va
    let b := c.mask e.op.vb
    let r := match e.op.kind with
      | 0 => a &&& b
      | 1 => a ||| b
      | 2 => a ^^^ b
      | _ => a &&& ~~~ b
    { mask := some (maskBits (c.mask e.op.vd) (below.map (fun i => (i, r.getLsbD i)))) }
  | 19 => { scalar := some (wordOf (below.filter (fun i => (c.mask e.op.va).getLsbD i)).length) }
  | 20 =>
    { scalar := some (match below.find? (fun i => (c.mask e.op.va).getLsbD i) with
        | some i => wordOf i
        | none => BitVec.allOnes 64) }
  | 21 =>
    { scalar := some (wordOf ((Tab.get 0 c.w e.op.va + s - 1) / s)), clear := e.op.kind == 3 }
  | _ => reduceOut e c g

/-! ### MRD and MWR (R251, R252) -/

/-- An element of a tile; a zero tile reads +0 (R240). -/
def Tile.elem (t : Tile) (i : Nat) : Nat := (Tab.get 0 t.data i).toNat

/-- Whether a tile holds INT32. -/
def Tile.isInt (t : Tile) : Bool := t.ty == some true

/-- The stored band product, 1.0 where none is. -/
def Tile.bandProduct (t : Tile) : Nat := (t.band.getD 0x3F800000).toNat

/-- One element of MRD (R251): the band product, then ReLU, then the conversion. -/
def mrdElem (t : Tile) (code w : Nat) (relu band : Bool) (r : Rnd) (v : Nat) : Nat × Nat :=
  if code = 0 then (v, 0)
  else if t.isInt then
    let x := readInt 32 v
    toCode code w r (ofInt (if relu then max x 0 else x))
  else
    let (v, f1) := if band then fMul fp32 (.mode 1) (fp32.unpack v) (fp32.unpack t.bandProduct) else (v, 0)
    let a := fp32.unpack v
    let a := if relu && fp32.signBit v && !a.isNaN then FVal.num false 0 0 else a
    let (x, f2) := toCode code w r a
    (x, f1 ||| f2)

/-- MRD (R251): the elements below VL. -/
def mrdOut (e : VEntry) (t : Tile) (seed : BitVec 32) : VOut :=
  let o := e.scalar
  let row := bits o 5 0
  let (xs, fl, sd) := convertAll (fun r i =>
    mrdElem t (bits o 10 6) (8 * e.size) (bitOf o 11) (bitOf o 12) r (t.elem (64 * row + i))) (bitOf o 13) e.rm
      (List.range e.vl) seed
  { elems := xs, flags := fl, seed := sd }

/-- One element of MWR (R252): the tile, and the flags of the conversion. -/
def mwrElem (e : VEntry) (ty accum : Bool) (t : Tile) (j x : Nat) : Tile × Nat :=
  let v := if e.et = 0 then ofInt (readInt 8 x) else (etFmt e.et).unpack x
  if ty then
    let (y, f) := toInt (.mode e.rm) (-2147483648) 2147483647 v
    let z := if accum then y + readInt 32 (t.elem j) else y
    let zc := min (max z (-2147483648)) 2147483647
    ({ t with data := Tab.set t.data j (BitVec.ofInt 32 zc), sat := t.sat || z != zc }, f)
  else
    let (y, f) := fp32.convert (.mode e.rm) v
    let z := if accum then (fAdd fp32 (.mode 1) (fp32.unpack (t.elem j)) (fp32.unpack y)).1 else y
    ({ t with data := Tab.set t.data j (BitVec.ofNat 32 z) }, f)

/-- MWR (R252): the tile after it. -/
def mwrOut (e : VEntry) (c : VecCtx) (t : Tile) : VOut :=
  let o := e.scalar
  let row := bits o 5 0
  let (t, fl) := (List.range e.vl).foldl (fun (a : Tile × Nat) i =>
    let (t, f) := mwrElem e (bitOf o 7) (bitOf o 6) a.1 (64 * row + i) (c.elem e.op.va i e.size)
    (t, a.2 ||| f)) (t, 0)
  { tile := some { t with ty := some (bitOf o 7) }, flags := fl }

/-- What an instruction of majors 14 to 17 computes; VGRANT is the thread's own. -/
def vecOut (e : VEntry) (c : VecCtx) (g : Nat) (t : Tile) (seed : BitVec 32) : VOut :=
  match e.op.major with
  | 14 => { vintOut e c with seed := seed }
  | 15 => { vfpOut e c with seed := seed }
  | 16 => if e.op.f5 = 2 then vpermOut e c g seed else { vpermOut e c g seed with seed := seed }
  | _ => if e.op.f5 = 5 then mrdOut e t seed else { mwrOut e c t with seed := seed }

/-! ### The checked unit (R210, R215) -/

/-- Whether an instruction is checked: every VINT and VFP instruction, VCVT and the reductions. -/
def VOp.checked (o : VOp) : Bool := o.major == 14 || o.major == 15 || (o.major == 16 && (o.f5 == 2 || (12 ≤ o.f5 && o.f5 ≤ 17)))

/-- The units a check chooses among, ascending: present elements, or leaves that hold one (R210, R215). -/
def VEntry.units (e : VEntry) (c : VecCtx) (g : Nat) : List Nat :=
  let is := e.present c
  if e.op.major = 16 ∧ 12 ≤ e.op.f5 then
    if e.op.f5 = 15 ∧ bitOf e.vtype 4 then (List.range ((e.vl + 31) / 32)).filter (fun j => is.any (fun i => i / 32 == j))
    else
      let n := redLanes g e.size
      (List.range n).filter (fun j => is.any (fun i => i % n == j))
  else is

/-- THR_SEED after the check of an instruction with some unit, and the unit chosen (R210). -/
def chooseUnit (seed : BitVec 32) (us : List Nat) : BitVec 32 × Nat :=
  let s := galois seed
  (s, us.getD (s.toNat / 65536 * us.length / 65536) 0)

/-- The FORMAT_FAULT of an instruction that its word and the copied THR_VTYPE decide (R199, R217, R227). -/
def VEntry.formatFault (e : VEntry) : Bool :=
  match e.op.major with
  | 15 => e.et == 0 || (e.et == 4 && 12 ≤ e.op.f5 && e.op.f5 ≤ 14)
  | 16 => (e.op.f5 == 2 && !vcvtOk e.op.vb e.et) || (15 ≤ e.op.f5 && e.op.f5 ≤ 17 && e.et == 0)
  | _ => false

/-! ### Registers an instruction touches (R194, R198) -/

/-- The vector registers an instruction reads, with whether by whole register. -/
def VOp.reads (o : VOp) : List Nat :=
  match o.major with
  | 13 => match o.f5 with
    | 2 | 6 => [o.vb]
    | 3 | 4 => [o.vd]
    | 5 => [o.vd, o.vb]
    | _ => []
  | 14 => (if o.kind = 0 then [o.vb] else []) ++ [o.va] ++ (if o.f5 = 5 then [o.vd] else [])
  | 15 =>
    let unary := o.f5 == 4 || (10 ≤ o.f5 && o.f5 ≤ 14) || o.f5 == 18
    (if o.kind = 0 && !unary then [o.vb] else []) ++ [o.va] ++ (if 5 ≤ o.f5 && o.f5 ≤ 7 then [o.vd] else [])
  | 16 => match o.f5 with
    | 2 | 4 | 5 | 7 | 8 | 10 => [o.va]
    | 9 => o.vb :: (List.range (2 ^ o.kind)).map (fun k => o.va + k)
    | 11 => o.va :: (if o.kind = 0 then [o.vb] else [])
    | 12 | 13 | 14 | 15 | 16 | 17 => [o.va, o.vb]
    | _ => []
  | _ => if o.f5 = 6 then [o.va] else []

/-- The vector register an instruction writes. -/
def VOp.writes (o : VOp) : Option Nat :=
  match o.major with
  | 13 => if o.f5 ≤ 2 ∨ o.f5 = 6 then some o.vd else none
  | 14 => if o.f5 < 18 then some o.vd else none
  | 15 => if 15 ≤ o.f5 ∧ o.f5 ≤ 17 then none else some o.vd
  | 16 => if o.f5 = 4 ∨ 18 ≤ o.f5 ∨ o.f5 ≤ 1 then none else some o.vd
  | _ => if o.f5 = 5 then some o.vd else none

/-- The mask registers an instruction reads. -/
def VOp.readsMask (o : VOp) : List Nat :=
  (if o.masked then [0] else []) ++
  (match o.major with
   | 13 => if o.f5 = 8 then [o.vd] else []
   | 14 => if 18 ≤ o.f5 then [o.vd] else []
   | 15 => if 15 ≤ o.f5 ∧ o.f5 ≤ 17 then [o.vd] else []
   | 16 => match o.f5 with
     | 10 => [0]
     | 18 => [o.va, o.vb, o.vd]
     | 19 | 20 => [o.va]
     | _ => []
   | _ => [])

/-- The mask register an instruction writes. -/
def VOp.writesMask (o : VOp) : Option Nat :=
  match o.major with
  | 13 => if o.f5 = 7 then some o.vd else none
  | 14 => if 18 ≤ o.f5 then some o.vd else none
  | 15 => if 15 ≤ o.f5 ∧ o.f5 ≤ 17 then some o.vd else none
  | 16 => if o.f5 = 18 then some o.vd else none
  | _ => none

/-- The pipe of an instruction: 0 VL, 1 VA, 2 VF, 3 VP (R185). -/
def VOp.pipe (o : VOp) : Nat := match o.major with | 13 => 0 | 14 => 1 | 15 => 2 | _ => 3

/-- The synchronising instructions (R182). -/
def VOp.sync (o : VOp) : Bool :=
  o.major == 16 && (o.f5 == 1 || o.f5 == 21 || o.f5 == 4 || o.f5 == 19 || o.f5 == 20)

/-- Instructions that execute alone (R182). -/
def VOp.alone (o : VOp) : Bool := o.sync || o.major == 17

end Sys2Proof.Machine
end

