-- ==== Sys2Proof/Machine/Vector.lean ====
section
/-! DEFINITION. The dispatch of vector instructions (R171, R176 to R185, R193, R195, R216, R247): what a thread's turn does
with an instruction of majors 13 to 16, MRD or MWR. What the vector unit then does is in VectorUnit.lean. -/

namespace Sys2Proof.Machine

/-- Whether a VGRANT of the thread has not performed its update (R177). -/
def Thread.grantPending (t : Thread) : Bool := t.vq.any (fun e => !e.confirmed && e.op.major == 16 && e.op.f5 == 1)

/-- The causes an instruction's word and the thread's mode decide at dispatch: no vector context (R171), and the convoy
violations of R185. -/
def State.vecPre (s : State) (word : Nat) (o : VOp) (cb : Bool) : Option (Cause × Word) :=
  let t := s.thr
  if !t.hasVec then some (.vectorAbsent, 0)
  else if !o.alone && !cb && !t.restored && (!t.convoyOpen || t.pipes.contains o.pipe) then
    some (.illegalInstruction, wordOf word)
  else none

/-- Entries in use of a core's dispatch queue (R178). -/
def State.dispatched (s : State) (k : Nat) : Nat :=
  (s.core k).slots.foldl (fun n t => n + (t.2.vq.filter (fun e => e.stage == .queued)).length) 0

/-- The dispatch of an instruction: what R179 copies, the queue entries it took, and its place in the convoys of R185. -/
def State.addEntry (s : State) (o : VOp) (cb : Bool) (srcs : List Reg) (xs : List Word) : State :=
  let t := s.thr
  let head := o.alone || cb || t.restored
  let convoy := if head then t.vseq + 1 else t.convoy
  let e : VEntry := { seq := t.vseq + 1, stamp := s.nextId, op := o, pc := t.pc, loops := t.loops, xs := xs,
                      vl := bits t.csr.vl 10 0, vtype := t.csr.vtype, rm := t.rm, head := head, convoy := convoy,
                      took := (srcs.zip xs).filterMap (fun p => (t.mapped p.1).map (fun q => (q, p.2))) }
  { (s.setThr { t with vseq := t.vseq + 1, vq := t.vq ++ [e], restored := false, convoyOpen := !o.alone, convoy := convoy,
                       pipes := if o.alone then [] else if head then [o.pipe] else o.pipe :: t.pipes }) with
    nextId := s.nextId + 1 }

/-- The destination of the entry dispatched last (R182). -/
def Thread.setLastDst (t : Thread) (d : Dest) : Thread :=
  { t with vq := t.vq.map (fun e => if e.seq == t.vseq then { e with dst := d } else e) }

/-- The dispatch turn of a vector instruction (R178, R181, R182): it parks while a VGRANT is outstanding or the dispatch
queue is full; `check` is a test of its operand values. -/
def vecDispatch (o : VOp) (word : Nat) (cb : Bool) (srcs dsts : List Reg)
    (check : State → List Word → Option (Cause × Word)) : State → Out := fun s =>
  issue { word := word, srcs := srcs, dsts := dsts, sub := 1, pre := s.vecPre word o cb } (fun s xs =>
    if s.thr.grantPending then .park
    else
      match check s xs with
      | some (c, v) => .trap c v
      | none =>
        if 8 ≤ s.dispatched s.curCore then .park
        else if o.sync then .later (s.addEntry o cb srcs xs) (fun s d => s.setThr (s.thr.setLastDst d))
        else .done (s.addEntry o cb srcs xs) []) s

/-- No test of operand values. -/
def noCheck : State → List Word → Option (Cause × Word) := fun _ _ => none

/-- A vector instruction of majors 14 to 16 whose kind says what vb names (R38, R44, R45). -/
def vecOp (major f5 : Nat) (cb mk : Bool) (vb va kind vd : Nat) : State → Out :=
  vecDispatch { major := major, f5 := f5, masked := mk, vb := vb, va := va, kind := kind, vd := vd }
    (wordV major f5 cb mk vb va kind vd) cb
    (if kind = 1 ∨ (major ≠ 16 ∧ kind = 3) then [BitVec.ofNat 5 vb] else []) [] noCheck

/-- A synchronising instruction of VPERM (R182). -/
def vecSync (f5 : Nat) (cb : Bool) (vb va kind : Nat) (d : Reg) : State → Out :=
  vecDispatch { major := 16, f5 := f5, vb := vb, va := va, kind := kind, vd := d.toNat }
    (wordV 16 f5 cb false vb va kind d.toNat) cb (if kind = 1 then [BitVec.ofNat 5 vb] else []) [d] noCheck

/-- The checks of R101 on a vector instruction's pointer, with R104 where it interprets FMT. -/
def vlsCheckPtr (o : VOp) : State → List Word → Option (Cause × Word) := fun s xs =>
  let p := arg xs 0
  match s.checkPtr o.isStore p with
  | some c => some (c, p)
  | none =>
    if o.f5 = 7 ∨ o.f5 = 8 then none
    else if 19 ≤ ptrFmt p ∨ (ptrFmt p = 14 ∧ ptrL p ≠ 0) ∨ ((ptrFmt p = 15 ∨ ptrFmt p = 16) ∧ 6 ≤ ptrL p) ∨ ptrFmt p = 17 then
      some (.formatFault, p)
    else none

/-- A vector memory instruction (R189, R190, R193). -/
def vlsOp (f5 : Nat) (cb mk : Bool) (vb : Nat) (a : Reg) (kind vd : Nat) : State → Out :=
  let o : VOp := { major := 13, f5 := f5, masked := mk, vb := vb, va := a.toNat, kind := kind, vd := vd }
  vecDispatch o (wordV 13 f5 cb mk vb a.toNat kind vd) cb (if kind = 1 then [a, BitVec.ofNat 5 vb] else [a]) []
    (vlsCheckPtr o)

/-! ### VCFG and VGRANT (R176, R177) -/

/-- VCFG (R176): on the scalar side, at issue. -/
def execVcfg (cb : Bool) (b a d : Reg) : State → Out := fun s =>
  issue { word := wordV 16 0 cb false b.toNat a.toNat 1 d.toNat, srcs := [a, b], dsts := [d], sub := 1,
          pre := if s.thr.hasVec then none else some (.vectorAbsent, 0) } (fun s xs =>
    let t := arg xs 1
    if s.thr.grantPending then .park
    else if bits t 63 5 ≠ 0 ∨ 4 < bits t 3 0 then .trap .formatFault t
    else
      let sz := etSize (bits t 3 0)
      let n := Nat.min (arg xs 0).toNat (Nat.min (1024 / sz) (bits s.thr.csr.vlceil 10 0 / sz))
      .done (s.setThr ((s.thr.setCsr 0x015 t).setCsr 0x016 (wordOf n))) [wordOf n]) s

/-- VGRANT (R177): the next share of the strip. -/
def execVgrant (cb : Bool) (d : Reg) : State → Out := vecSync 1 cb 0 0 0 d

/-! ### Vector loads and stores (R193, R194) -/

/-- VLD (R193). -/
def execVld (cb mk : Bool) (a vd : Reg) : State → Out := vlsOp 0 cb mk 0 a 0 vd.toNat

/-- VLDS (R193). -/
def execVlds (cb mk : Bool) (b a vd : Reg) : State → Out := vlsOp 1 cb mk b.toNat a 1 vd.toNat

/-- VLDX (R193). -/
def execVldx (cb mk : Bool) (vb a vd : Reg) : State → Out := vlsOp 2 cb mk vb.toNat a 0 vd.toNat

/-- VST (R193). -/
def execVst (cb mk : Bool) (a vd : Reg) : State → Out := vlsOp 3 cb mk 0 a 0 vd.toNat

/-- VSTS (R193). -/
def execVsts (cb mk : Bool) (b a vd : Reg) : State → Out := vlsOp 4 cb mk b.toNat a 1 vd.toNat

/-- VSTX (R193). -/
def execVstx (cb mk : Bool) (vb a vd : Reg) : State → Out := vlsOp 5 cb mk vb.toNat a 0 vd.toNat

/-- VLDA (R194). -/
def execVlda (cb mk : Bool) (vb a vd : Reg) : State → Out := vlsOp 6 cb mk vb.toNat a 0 vd.toNat

/-- VLDM (R193). -/
def execVldm (cb : Bool) (a : Reg) (md : BitVec 3) : State → Out := vlsOp 7 cb false 0 a 0 md.toNat

/-- VSTM (R193). -/
def execVstm (cb : Bool) (a : Reg) (md : BitVec 3) : State → Out := vlsOp 8 cb false 0 a 0 md.toNat

/-! ### VINT (R200, R201) -/

/-- VADD (R200). -/
def execVadd (cb mk : Bool) (vb va : Reg) (kind : BitVec 2) (vd : Reg) : State → Out := 
  vecOp 14 0 cb mk vb.toNat va.toNat kind.toNat vd.toNat

/-- VSUB (R200). -/
def execVsub (cb mk : Bool) (vb va : Reg) (kind : BitVec 2) (vd : Reg) : State → Out := 
  vecOp 14 1 cb mk vb.toNat va.toNat kind.toNat vd.toNat

/-- VMUL (R200). -/
def execVmul (cb mk : Bool) (vb va : Reg) (kind : BitVec 2) (vd : Reg) : State → Out := 
  vecOp 14 2 cb mk vb.toNat va.toNat kind.toNat vd.toNat

/-- VMULH (R200). -/
def execVmulh (cb mk : Bool) (vb va : Reg) (kind : BitVec 2) (vd : Reg) : State → Out := 
  vecOp 14 3 cb mk vb.toNat va.toNat kind.toNat vd.toNat

/-- VMULHU (R200). -/
def execVmulhu (cb mk : Bool) (vb va : Reg) (kind : BitVec 2) (vd : Reg) : State → Out := 
  vecOp 14 4 cb mk vb.toNat va.toNat kind.toNat vd.toNat

/-- VMADD (R200). -/
def execVmadd (cb mk : Bool) (vb va : Reg) (kind : BitVec 2) (vd : Reg) : State → Out := 
  vecOp 14 5 cb mk vb.toNat va.toNat kind.toNat vd.toNat

/-- VMIN (R200). -/
def execVmin (cb mk : Bool) (vb va : Reg) (kind : BitVec 2) (vd : Reg) : State → Out := 
  vecOp 14 6 cb mk vb.toNat va.toNat kind.toNat vd.toNat

/-- VMAX (R200). -/
def execVmax (cb mk : Bool) (vb va : Reg) (kind : BitVec 2) (vd : Reg) : State → Out := 
  vecOp 14 7 cb mk vb.toNat va.toNat kind.toNat vd.toNat

/-- VMINU (R200). -/
def execVminu (cb mk : Bool) (vb va : Reg) (kind : BitVec 2) (vd : Reg) : State → Out := 
  vecOp 14 8 cb mk vb.toNat va.toNat kind.toNat vd.toNat

/-- VMAXU (R200). -/
def execVmaxu (cb mk : Bool) (vb va : Reg) (kind : BitVec 2) (vd : Reg) : State → Out := 
  vecOp 14 9 cb mk vb.toNat va.toNat kind.toNat vd.toNat

/-- VAND (R200). -/
def execVand (cb mk : Bool) (vb va : Reg) (kind : BitVec 2) (vd : Reg) : State → Out := 
  vecOp 14 10 cb mk vb.toNat va.toNat kind.toNat vd.toNat

/-- VOR (R200). -/
def execVor (cb mk : Bool) (vb va : Reg) (kind : BitVec 2) (vd : Reg) : State → Out := 
  vecOp 14 11 cb mk vb.toNat va.toNat kind.toNat vd.toNat

/-- VXOR (R200). -/
def execVxor (cb mk : Bool) (vb va : Reg) (kind : BitVec 2) (vd : Reg) : State → Out := 
  vecOp 14 12 cb mk vb.toNat va.toNat kind.toNat vd.toNat

/-- VSLL (R200). -/
def execVsll (cb mk : Bool) (vb va : Reg) (kind : BitVec 2) (vd : Reg) : State → Out := 
  vecOp 14 13 cb mk vb.toNat va.toNat kind.toNat vd.toNat

/-- VSRL (R200). -/
def execVsrl (cb mk : Bool) (vb va : Reg) (kind : BitVec 2) (vd : Reg) : State → Out := 
  vecOp 14 14 cb mk vb.toNat va.toNat kind.toNat vd.toNat

/-- VSRA (R200). -/
def execVsra (cb mk : Bool) (vb va : Reg) (kind : BitVec 2) (vd : Reg) : State → Out := 
  vecOp 14 15 cb mk vb.toNat va.toNat kind.toNat vd.toNat

/-- VSADD (R200). -/
def execVsadd (cb mk : Bool) (vb va : Reg) (kind : BitVec 2) (vd : Reg) : State → Out := 
  vecOp 14 16 cb mk vb.toNat va.toNat kind.toNat vd.toNat

/-- VSSUB (R200). -/
def execVssub (cb mk : Bool) (vb va : Reg) (kind : BitVec 2) (vd : Reg) : State → Out := 
  vecOp 14 17 cb mk vb.toNat va.toNat kind.toNat vd.toNat

/-- VCEQ (R201). -/
def execVceq (cb mk : Bool) (vb va : Reg) (kind : BitVec 2) (md : BitVec 3) : State → Out := 
  vecOp 14 18 cb mk vb.toNat va.toNat kind.toNat md.toNat

/-- VCNE (R201). -/
def execVcne (cb mk : Bool) (vb va : Reg) (kind : BitVec 2) (md : BitVec 3) : State → Out := 
  vecOp 14 19 cb mk vb.toNat va.toNat kind.toNat md.toNat

/-- VCLT (R201). -/
def execVclt (cb mk : Bool) (vb va : Reg) (kind : BitVec 2) (md : BitVec 3) : State → Out := 
  vecOp 14 20 cb mk vb.toNat va.toNat kind.toNat md.toNat

/-- VCLE (R201). -/
def execVcle (cb mk : Bool) (vb va : Reg) (kind : BitVec 2) (md : BitVec 3) : State → Out := 
  vecOp 14 21 cb mk vb.toNat va.toNat kind.toNat md.toNat

/-- VCLTU (R201). -/
def execVcltu (cb mk : Bool) (vb va : Reg) (kind : BitVec 2) (md : BitVec 3) : State → Out := 
  vecOp 14 22 cb mk vb.toNat va.toNat kind.toNat md.toNat

/-- VCLEU (R201). -/
def execVcleu (cb mk : Bool) (vb va : Reg) (kind : BitVec 2) (md : BitVec 3) : State → Out := 
  vecOp 14 23 cb mk vb.toNat va.toNat kind.toNat md.toNat

/-! ### VFP (R202 to R208) -/

/-- VFADD (R202). -/
def execVfadd (cb mk : Bool) (vb va : Reg) (kind : BitVec 2) (vd : Reg) : State → Out := 
  vecOp 15 0 cb mk vb.toNat va.toNat kind.toNat vd.toNat

/-- VFSUB (R202). -/
def execVfsub (cb mk : Bool) (vb va : Reg) (kind : BitVec 2) (vd : Reg) : State → Out := 
  vecOp 15 1 cb mk vb.toNat va.toNat kind.toNat vd.toNat

/-- VFMUL (R202). -/
def execVfmul (cb mk : Bool) (vb va : Reg) (kind : BitVec 2) (vd : Reg) : State → Out := 
  vecOp 15 2 cb mk vb.toNat va.toNat kind.toNat vd.toNat

/-- VFDIV (R202). -/
def execVfdiv (cb mk : Bool) (vb va : Reg) (kind : BitVec 2) (vd : Reg) : State → Out := 
  vecOp 15 3 cb mk vb.toNat va.toNat kind.toNat vd.toNat

/-- VFMA (R202). -/
def execVfma (cb mk : Bool) (vb va : Reg) (kind : BitVec 2) (vd : Reg) : State → Out := 
  vecOp 15 5 cb mk vb.toNat va.toNat kind.toNat vd.toNat

/-- VFMS (R202). -/
def execVfms (cb mk : Bool) (vb va : Reg) (kind : BitVec 2) (vd : Reg) : State → Out := 
  vecOp 15 6 cb mk vb.toNat va.toNat kind.toNat vd.toNat

/-- VFNMA (R202). -/
def execVfnma (cb mk : Bool) (vb va : Reg) (kind : BitVec 2) (vd : Reg) : State → Out := 
  vecOp 15 7 cb mk vb.toNat va.toNat kind.toNat vd.toNat

/-- VFMIN (R202). -/
def execVfmin (cb mk : Bool) (vb va : Reg) (kind : BitVec 2) (vd : Reg) : State → Out := 
  vecOp 15 8 cb mk vb.toNat va.toNat kind.toNat vd.toNat

/-- VFMAX (R202). -/
def execVfmax (cb mk : Bool) (vb va : Reg) (kind : BitVec 2) (vd : Reg) : State → Out := 
  vecOp 15 9 cb mk vb.toNat va.toNat kind.toNat vd.toNat

/-- VFSQRT (R202). -/
def execVfsqrt (cb mk : Bool) (va vd : Reg) : State → Out := vecOp 15 4 cb mk 0 va.toNat 0 vd.toNat

/-- VFABS (R202). -/
def execVfabs (cb mk : Bool) (va vd : Reg) : State → Out := vecOp 15 10 cb mk 0 va.toNat 0 vd.toNat

/-- VFNEG (R202). -/
def execVfneg (cb mk : Bool) (va vd : Reg) : State → Out := vecOp 15 11 cb mk 0 va.toNat 0 vd.toNat

/-- VFRCP (R205). -/
def execVfrcp (cb mk : Bool) (va vd : Reg) : State → Out := vecOp 15 12 cb mk 0 va.toNat 0 vd.toNat

/-- VFRSQ (R206). -/
def execVfrsq (cb mk : Bool) (va vd : Reg) : State → Out := vecOp 15 13 cb mk 0 va.toNat 0 vd.toNat

/-- VFEXP2 (R207). -/
def execVfexp2 (cb mk : Bool) (va vd : Reg) : State → Out := vecOp 15 14 cb mk 0 va.toNat 0 vd.toNat

/-- VFCLS (R203). -/
def execVfcls (cb mk : Bool) (va vd : Reg) : State → Out := vecOp 15 18 cb mk 0 va.toNat 0 vd.toNat

/-- VFCEQ (R203). -/
def execVfceq (cb mk : Bool) (vb va : Reg) (kind : BitVec 2) (md : BitVec 3) : State → Out := 
  vecOp 15 15 cb mk vb.toNat va.toNat kind.toNat md.toNat

/-- VFCLT (R203). -/
def execVfclt (cb mk : Bool) (vb va : Reg) (kind : BitVec 2) (md : BitVec 3) : State → Out := 
  vecOp 15 16 cb mk vb.toNat va.toNat kind.toNat md.toNat

/-- VFCLE (R203). -/
def execVfcle (cb mk : Bool) (vb va : Reg) (kind : BitVec 2) (md : BitVec 3) : State → Out := 
  vecOp 15 17 cb mk vb.toNat va.toNat kind.toNat md.toNat

/-! ### VPERM (R217 to R228) -/

/-- VCVT (R217). -/
def execVcvt (cb mk : Bool) (f : BitVec 5) (va vd : Reg) : State → Out := vecOp 16 2 cb mk f.toNat va.toNat 0 vd.toNat

/-- VCVT with SR (R218). -/
def execVcvtSr (cb mk : Bool) (f : BitVec 5) (va vd : Reg) : State → Out := vecOp 16 2 cb mk f.toNat va.toNat 3 vd.toNat

/-- VSPLAT (R219). -/
def execVsplat (cb mk : Bool) (vb : Reg) (kind : BitVec 2) (vd : Reg) : State → Out := 
  vecOp 16 3 cb mk vb.toNat 0 kind.toNat vd.toNat

/-- VMVS (R220). -/
def execVmvs (cb : Bool) (vb va : Reg) (kind : BitVec 2) (d : Reg) : State → Out := vecSync 4 cb vb.toNat va.toNat kind.toNat d

/-- VMVV (R219). -/
def execVmvv (cb mk : Bool) (va vd : Reg) : State → Out := vecOp 16 5 cb mk 0 va.toNat 0 vd.toNat

/-- VIOTA (R219). -/
def execViota (cb mk : Bool) (vd : Reg) : State → Out := vecOp 16 6 cb mk 0 0 0 vd.toNat

/-- VSLUP (R221). -/
def execVslup (cb mk : Bool) (vb va : Reg) (kind : BitVec 2) (vd : Reg) : State → Out := 
  vecOp 16 7 cb mk vb.toNat va.toNat kind.toNat vd.toNat

/-- VSLDN (R221). -/
def execVsldn (cb mk : Bool) (vb va : Reg) (kind : BitVec 2) (vd : Reg) : State → Out := 
  vecOp 16 8 cb mk vb.toNat va.toNat kind.toNat vd.toNat

/-- VGATHR (R222): its kind is the logarithm of the group size, and it names no g register. -/
def execVgathr (cb : Bool) (vb va : Reg) (kind : BitVec 2) (vd : Reg) : State → Out := 
  vecDispatch { major := 16, f5 := 9, vb := vb.toNat, va := va.toNat, kind := kind.toNat, vd := vd.toNat }
    (wordV 16 9 cb false vb.toNat va.toNat kind.toNat vd.toNat) cb [] [] noCheck

/-- VCOMPR (R223). -/
def execVcompr (cb : Bool) (va vd : Reg) : State → Out := vecOp 16 10 cb false 0 va.toNat 0 vd.toNat

/-- VMERGE (R224): its mk is 1, and selects. -/
def execVmerge (cb : Bool) (vb va : Reg) (kind : BitVec 2) (vd : Reg) : State → Out := 
  vecOp 16 11 cb true vb.toNat va.toNat kind.toNat vd.toNat

/-- VREDSUM (R227). -/
def execVredsum (cb mk : Bool) (vb va vd : Reg) : State → Out := vecOp 16 12 cb mk vb.toNat va.toNat 0 vd.toNat

/-- VREDMIN (R227). -/
def execVredmin (cb mk : Bool) (vb va vd : Reg) : State → Out := vecOp 16 13 cb mk vb.toNat va.toNat 0 vd.toNat

/-- VREDMAX (R227). -/
def execVredmax (cb mk : Bool) (vb va vd : Reg) : State → Out := vecOp 16 14 cb mk vb.toNat va.toNat 0 vd.toNat

/-- VFREDSUM (R228). -/
def execVfredsum (cb mk : Bool) (vb va vd : Reg) : State → Out := vecOp 16 15 cb mk vb.toNat va.toNat 0 vd.toNat

/-- VFREDMIN (R227). -/
def execVfredmin (cb mk : Bool) (vb va vd : Reg) : State → Out := vecOp 16 16 cb mk vb.toNat va.toNat 0 vd.toNat

/-- VFREDMAX (R227). -/
def execVfredmax (cb mk : Bool) (vb va vd : Reg) : State → Out := vecOp 16 17 cb mk vb.toNat va.toNat 0 vd.toNat

/-- MLOG (R225): its kind is the operation, and it names no g register. -/
def execMlog (cb : Bool) (mb ma : BitVec 3) (kind : BitVec 2) (md : BitVec 3) : State → Out := 
  vecDispatch { major := 16, f5 := 18, vb := mb.toNat, va := ma.toNat, kind := kind.toNat, vd := md.toNat }
    (wordV 16 18 cb false mb.toNat ma.toNat kind.toNat md.toNat) cb [] [] noCheck

/-- MPOP (R226). -/
def execMpop (cb : Bool) (ma : BitVec 3) (d : Reg) : State → Out := vecSync 19 cb 0 ma.toNat 0 d

/-- MFIRST (R226). -/
def execMfirst (cb : Bool) (ma : BitVec 3) (d : Reg) : State → Out := vecSync 20 cb 0 ma.toNat 0 d

/-- VHWM (R188). -/
def execVhwm (cb : Bool) (va d : Reg) : State → Out := vecSync 21 cb 0 va.toNat 0 d

/-- VHWM with CLR (R188). -/
def execVhwmClr (cb : Bool) (va d : Reg) : State → Out := vecSync 21 cb 0 va.toNat 3 d

/-! ### MRD and MWR (R251, R252) -/

/-- The accumulator a tile-task record targets, and its type (R238). -/
def Task.target (t : Task) : Nat := recField t.record 1 1 % 8
def Task.isInt (t : Task) : Bool := recField t.record 1 1 / 8 % 2 == 1

/-- The type an accumulator will hold after the thread's earlier tasks and MWRs on it (R239). -/
def State.projectedType (s : State) (k i c : Nat) : Option Bool :=
  let t := s.thrOf (.slot k i)
  let ty0 := (Tab.get {} t.acc c : Tile).ty
  let ts := (s.quad (k / 4)).tasks.filter (fun x => x.core == k && x.slot == i && x.target == c)
  let ty1 := (ts.getLast?).elim ty0 (fun x => some x.isInt)
  let ws := t.vq.filter (fun e => !e.confirmed && e.op.major == 17 && e.op.f5 == 6 && e.op.vd == c)
  (ws.getLast?).elim ty1 (fun e => some (bitOf e.scalar 7))

/-- The checks of MRD at dispatch (R251). -/
def mrdCheck (c : Nat) : State → List Word → Option (Cause × Word) := fun s xs =>
  let o := arg xs 0
  let t := s.thr
  let sz := etSize (bits t.csr.vtype 3 0)
  let f := bits o 10 6
  if (Tab.find? t.acc c).isNone then some (.accumulatorFault, wordOf c)
  else if bits o 63 14 ≠ 0 ∨ 4096 < bits o 5 0 * 64 + bits t.csr.vl 10 0 ∨ 13 < f ∨ (f ≠ 0 ∧ sz < fmtSize f sz)
      ∨ (f = 0 ∧ (sz ≠ 4 ∨ bits o 13 11 ≠ 0))
      ∨ (s.projectedType s.curCore s.cur.slotNum c = some true ∧ bitOf o 12) ∨ (bitOf o 13 ∧ f < 9) then
    some (.formatFault, o)
  else none

/-- The checks of MWR at dispatch (R252). -/
def mwrCheck (c : Nat) : State → List Word → Option (Cause × Word) := fun s xs =>
  let o := arg xs 0
  let t := s.thr
  if (Tab.find? t.acc c).isNone then some (.accumulatorFault, wordOf c)
  else
    let ty := s.projectedType s.curCore s.cur.slotNum c
    if bits o 63 8 ≠ 0 ∨ 4096 < bits o 5 0 * 64 + bits t.csr.vl 10 0 ∨ (ty ≠ none ∧ ty ≠ some (bitOf o 7)) then
      some (.formatFault, o)
    else none

/-- MRD (R251): a vector instruction that executes alone. -/
def execMrd (b : Reg) (c : BitVec 3) (vd : Reg) : State → Out :=
  vecDispatch { major := 17, f5 := 5, va := c.toNat, vd := vd.toNat } (wordK 17 5 0 b.toNat c.toNat vd.toNat) false [b] []
    (mrdCheck c.toNat)

/-- MWR (R252): a vector instruction that executes alone. -/
def execMwr (b va : Reg) (c : BitVec 3) : State → Out :=
  vecDispatch { major := 17, f5 := 6, va := va.toNat, vd := c.toNat } (wordK 17 6 0 b.toNat va.toNat c.toNat) false [b] []
    (mwrCheck c.toNat)

end Sys2Proof.Machine
end

