-- ==== Sys2Proof/Machine/VectorUnit.lean ====
section
/-! DEFINITION. What the vector unit does with dispatched instructions (R178 to R194, R210 to R215): the start of convoys,
checks, confirmation, memory accesses, the reads of VLDA, and the unwind of a trap. -/

namespace Sys2Proof.Machine

/-! ### The shadow log and the CSRs the unit writes (R180, R181) -/

/-- The number of the youngest vector instruction dispatched before a logged write. -/
def Undo.after : Undo → Nat
  | .reg a _ _ _ _ => a
  | .csr a _ _ => a

/-- A CSR the unit changes for a confirmed instruction: values the log holds of it change with it. -/
def Thread.unitCsr (t : Thread) (num : Nat) (f : Word → Word) : Thread :=
  { t with csr := t.csr.put num (f (t.csr.get num)),
           log := t.log.map (fun u => match u with
             | .csr a n v => if n = num then .csr a n (f v) else u
             | u => u) }

/-- Log entries retire once every vector instruction before them is confirmed (R181). -/
def Thread.retireLog (t : Thread) : Thread :=
  match t.vq.find? (fun e => !e.confirmed) with
  | some e => { t with log := t.log.filter (fun u => decide (e.seq ≤ u.after)) }
  | none => { t with log := [] }

/-- One logged write taken back (R183). -/
def Thread.undo (t : Thread) (u : Undo) : Thread :=
  match u with
  | .reg _ r v em pd =>
    { t with g := Tab.set t.g r.toNat v, empty := maskSet t.empty r.toNat em, pending := maskSet t.pending r.toNat pd }
  | .csr _ n v => { t with csr := t.csr.put n v }

/-! ### Convoys (R185, R186) -/

/-- The first instruction of a thread that still waits in the dispatch queue. -/
def Thread.nextQueued (t : Thread) : Option VEntry := t.vq.find? (fun e => e.stage == .queued)

/-- Whether some started instruction of the thread has not finished. -/
def Thread.inFlight (t : Thread) : Bool := t.vq.any (fun e => e.stage != .queued)

/-- Who holds a shared pipe of the quad, VL (0) or VP (3): a core and slot. -/
def Quad.holder (q : Quad) (pipe : Nat) : Option (Nat × Nat) := if pipe = 0 then q.vlBusy else q.vpBusy

/-- Whether a slot holds a shared pipe of the quad. -/
def Quad.holds (q : Quad) (k i : Nat) : Bool := q.vlBusy == some (k, i) || q.vpBusy == some (k, i)

/-- The shared pipes a convoy takes when it needs the first: those of its dispatched members. DESIGN CHOICE (assumption 80): a
convoy that further members may still join takes both, so that no two convoys wait for each other's pipe; R186 grants whole
convoys and does not say what an open one takes. -/
def Thread.convoyPipes (t : Thread) (e : VEntry) : List Nat :=
  let ms := (t.vq.filter (fun x => x.convoy == e.convoy)).map (fun x => x.op.pipe)
  if !(ms.contains 0 || ms.contains 3) then []
  else if t.convoyOpen && t.convoy == e.convoy then [0, 3]
  else [0, 3].filter (fun p => ms.contains p)

/-- Whether the tasks an MRD or MWR waits for have completed (R251, R252). -/
def State.tileReady (s : State) (k i : Nat) (o : VOp) : Bool :=
  o.major != 17 || !(s.quad (k / 4)).tasks.any (fun x => x.core == k && x.slot == i &&
    x.target == (if o.f5 = 5 then o.va else o.vd))

/-- The instruction of a slot that is ready to start, pipes apart: a convoy head once the previous convoy has drained,
another member behind those before it (R182, R185). -/
def State.readyHead (s : State) (k i : Nat) : Option VEntry :=
  let t := s.thrOf (.slot k i)
  match t.nextQueued with
  | some e =>
    if e.head && (t.inFlight || (s.quad (k / 4)).holds k i) then none
    else if !s.tileReady k i e.op then none
    else some e
  | none => none

/-- The shared pipes the convoy of a slot's ready instruction still has to take. -/
def State.lacks (s : State) (k i : Nat) : List Nat :=
  match s.readyHead k i with
  | some e => ((s.thrOf (.slot k i)).convoyPipes e).filter (fun p => (s.quad (k / 4)).holder p != some (k, i))
  | none => []

/-- Whose turn a shared pipe is (R186): of the first core from the pointer on with a ready convoy that needs it, and within the core
of the one dispatched earliest. -/
def State.pipeTurn (s : State) (qn pipe : Nat) : Option (Nat × Nat) :=
  let q := s.quad qn
  let ptr := if pipe = 0 then q.pipeVL else q.pipeVP
  ((List.range 4).map (fun j => 4 * qn + (ptr + j) % 4)).findSome? (fun c =>
    (List.range 16).foldl (fun (b : Option (Nat × Nat)) i =>
      if !(s.lacks c i).contains pipe then b
      else
        match b with
        | none => some (c, i)
        | some x => if ((s.readyHead c i).elim 0 VEntry.stamp) < ((s.readyHead x.1 x.2).elim 0 VEntry.stamp) then some (c, i) else b) none)

/-- Whether a slot's convoy may take the shared pipes it lacks, all at once: each is free and its turn; where a convoy has the turn on
VL and needs both, it goes before one that has the turn on VP and also waits for VL (assumption 80). -/
def State.mayTake (s : State) (k i : Nat) : Bool :=
  let q := s.quad (k / 4)
  let l := s.lacks k i
  let vl := s.pipeTurn (k / 4) 0
  let vp := s.pipeTurn (k / 4) 3
  l.all (fun p => (q.holder p).isNone) && (!l.contains 0 || vl == some (k, i)) &&
    (!l.contains 3 || vp == some (k, i) || (l.contains 0 && vp.any (fun x => (s.lacks x.1 x.2).contains 0)))

/-- A quad with shared pipes taken by a slot's convoy: their pointers move to the next core (R186). -/
def Quad.take (q : Quad) (l : List Nat) (k i : Nat) : Quad :=
  let q := if l.contains 0 then { q with vlBusy := some (k, i), pipeVL := (k % 4 + 1) % 4 } else q
  if l.contains 3 then { q with vpBusy := some (k, i), pipeVP := (k % 4 + 1) % 4 } else q

/-- VECTOR_CONVOY_START: a ready convoy head, or a later member, leaves the dispatch queue and starts, once its convoy holds every
shared pipe it needs (R178, R185, R186). -/
def execVectorConvoyStart (core slot : Nat) (s : State) : Out :=
  match s.readyHead core slot with
  | none => .next s
  | some e =>
    if !s.mayTake core slot then .next s
    else
      let t := s.thrOf (.slot core slot)
      let t := { t with vq := t.vq.map (fun x => if x.seq == e.seq then { x with stage := .started } else x) }
      .next ((s.setQuad (core / 4) ((s.quad (core / 4)).take (s.lacks core slot) core slot)).setThrOf (.slot core slot) t)

/-- A quad without what a slot's convoy holds. -/
def Quad.release (q : Quad) (k i : Nat) : Quad :=
  { q with vlBusy := if q.vlBusy == some (k, i) then none else q.vlBusy,
           vpBusy := if q.vpBusy == some (k, i) then none else q.vpBusy }

/-- Whether no dispatched instruction of the convoy that has started last is left (R185). -/
def Thread.convoyDone (t : Thread) : Bool := !t.inFlight && !t.nextQueued.any (fun e => !e.head)

/-- CONVOY_DRAINED: with its last dispatched member finished, a convoy gives its pipes back (R185, R186). -/
def execConvoyDrained (core slot : Nat) (s : State) : Out :=
  if !(s.thrOf (.slot core slot)).convoyDone then .next s
  else .next (s.setQuad (core / 4) ((s.quad (core / 4)).release core slot))

/-! ### The accesses of a vector memory instruction (R189, R190, R192, R193) -/

/-- A pointer with another offset field. -/
def ptrAt (p : Word) (off : Nat) : Word :=
  match ptrPath p with
  | 2 | 3 => setBits p 18 0 off
  | 4 => setBits p 26 0 off
  | _ => setBits p 52 0 off

/-- The end of a path's space (R190). -/
def spaceEnd (p : Word) : Nat := match ptrPath p with | 2 | 3 => 2 ^ 19 | 4 => 2 ^ 27 | _ => 2 ^ 53

/-- The bytes a block-scaled store writes at offsets from its pointer, and its flags (R114, R117, R192). -/
def VEntry.blockStore (e : VEntry) (c : VecCtx) (f l : Nat) : List (Nat × Nat) × Nat :=
  let n := 2 ^ (3 + l)
  let per := 8 / blockBits f
  let is := e.present c
  let js := (List.range ((e.vl + n - 1) / n)).filter (fun j => is.any (fun i => i / n == j))
  js.foldl (fun (a : List (Nat × Nat) × Nat) j =>
    let (sc, cs, fl, _) := encodeBlock (blockSet f) e.rm false 1 ((List.range n).map (fun x =>
      if is.contains (j * n + x) then some ((etFmt e.et).unpack (c.elem e.op.vd (j * n + x) e.size)) else none))
    let (b0, _, so) := blockPlace f l (j * n)
    let bs := (List.range (n / per)).map (fun b =>
      (b0 + b, (List.range per).foldl (fun v x => v + cs.getD (b * per + x) 0 * 2 ^ (blockBits f * x)) 0))
    -- the reserved bytes of the group, with its first written block (R114)
    let g := j * n / 256
    let pad := if js.any (fun x => decide (x < j) && x * n / 256 == g) then []
      else ((if f = 16 then (List.range 64).map (fun b => 160 * g + 64 + b) else [])
        ++ (List.range (32 - 2 ^ (5 - l))).map (fun b => 160 * g + 128 + 2 ^ (5 - l) + b)).map (fun b => (b, 0))
    (a.1 ++ bs ++ [(so, sc)] ++ pad, a.2 ||| fl)) ([], 0)

/-- The accesses of an instruction, in ascending element index: element, offset, bytes and value stored; and the flags of
a store's conversions. -/
def VEntry.accesses (e : VEntry) (c : VecCtx) : List (Nat × Int × Nat × Nat) × Nat :=
  let p := e.scalar
  let s := e.size
  let f := ptrFmt p
  let l := ptrL p
  let base : Int := ptrOff p
  let is := e.present c
  match e.op.f5 with
  | 7 => ((List.range 32).map (fun k => (k, base + 8 * k, 8, 0)), 0)
  | 8 => ((List.range 32).map (fun k => (k, base + 8 * k, 8, (c.mask e.op.vd).toNat / 2 ^ (64 * k) % 2 ^ 64)), 0)
  | f5 =>
    if fmtBlock f then
      if f5 = 3 then
        let (bs, fl) := e.blockStore c f l
        (bs.map (fun b => (0, base + b.1, 1, b.2)), fl)
      else
        (is.flatMap (fun i =>
          let (b, _, sc) := blockPlace f l i
          [(i, base + b, 1, 0), (i, base + sc, 1, 0)]), 0)
    else
      let m := fmtSize f s
      let off := fun (i : Nat) =>
        match f5 with
        | 1 | 4 => base + i * (arg e.xs 1).toInt
        | 2 | 5 | 6 => base + c.elem e.op.vb i s * m
        | _ => base + i * m
      if e.op.isStore then
        let vs := is.map (fun i => (i, storeConvert f e.et e.rm (c.elem e.op.vd i s)))
        (vs.map (fun v => (v.1, off v.1, m, v.2.1)), vs.foldl (fun fl v => fl ||| v.2.2) 0)
      else (is.map (fun i => (i, off i, m, 0)), 0)

/-- What the checks of R190 find. -/
inductive VCheck where
  | ok (ts : List VTarget) (flags : Nat)
  | trap (c : Cause) (tval : Word)
  | fault (va kind level size : Nat)
  | walk (va : Nat)
  | wait
  deriving DecidableEq, Repr

/-- The checks of one access: address, translation, vault grant (R190). -/
def State.vlsTest (s : State) (k ctx : Nat) (p : Word) (write : Bool) (x : Nat × Int × Nat × Nat) : VCheck :=
  let (i, off, n, v) := x
  let q := ptrAt p (off % (spaceEnd p : Nat)).toNat
  let t : VTarget := { elem := i, ptr := q, n := n, val := v }
  if off < 0 ∨ (spaceEnd p : Int) ≤ off ∨ off % n ≠ 0 then .trap .pointerFault q
  else if ptrPath p ≤ 1 then
    match s.engineLook k ctx (ptrAddr q) (if write then 1 else 0) with
    | .leaf e sh => .ok [{ t with leaf := e, shift := sh }] 0
    | .wait => .walk (ptrAddr q)
    | .bad kind level size => .fault (ptrAddr q) kind level size
  else if ptrPath p = 4 ∧ !s.vaultGrant ctx q n write then .trap .vaultFault q
  else .ok [t] 0

/-- The checks of every access, in ascending element index; the first that fails decides. -/
def vlsTests (f : Nat × Int × Nat × Nat → VCheck) : List (Nat × Int × Nat × Nat) → List VTarget → VCheck
  | [], ts => .ok ts.reverse 0
  | x :: xs, ts =>
    match f x with
    | .ok [t] _ => vlsTests f xs (t :: ts)
    | r => r

/-- The checks of R190 on a vector memory instruction of a slot. -/
def State.vlsCheck (s : State) (k i : Nat) (e : VEntry) : VCheck :=
  let t := s.thrOf (.slot k i)
  let p := e.scalar
  let f := ptrFmt p
  let o := e.op
  let plain := o.f5 = 7 ∨ o.f5 = 8
  let (xs, fl) := e.accesses t.vec
  if ¬ plain ∧ (!(if o.isStore then storeFormatOk f e.et else loadFormatOk f e.et) ∨ (fmtBlock f ∧ o.f5 ≠ 0 ∧ o.f5 ≠ 3)) then
    .trap .formatFault p
  else if ptrPath p = 7 then .trap .pointerFault p
  else if xs.isEmpty then .ok [] 0
  else if ¬ plain ∧ fmtBlock f ∧ ptrOff p % 32 ≠ 0 then .trap .pointerFault p
  else
    match vlsTests (s.vlsTest k t.ctx p o.isStore) xs [] with
    | .ok ts _ =>
      if ptrPath p = 3 then
        match s.resolveRank t.ctx (ptrRank p) with
        | .here c x =>
          if ts.all (fun q => s.windowAdmits c x (ptrOff q.ptr) q.n (if o.isStore then 1 else 0) (.slot k i)) then
            .ok (ts.map (fun q => { q with unit := 16 * c + x })) fl
          else .trap .scratchpadRefusal p
        | .nowhere => .trap .scratchpadRefusal p
        | _ => .wait
      else .ok ts fl
    | r => r

/-- Whether an access reaches memory at its home (R150). -/
def VTarget.direct (t : VTarget) : Bool := leafSync t.leaf || leafCA t.leaf == 2

/-- The physical address of a translated access. -/
def VTarget.pa (t : VTarget) : Nat := leafPa t.leaf t.shift (ptrAddr t.ptr)

/-- Where an access acts, for the order of a thread's accesses (R181). -/
def VTarget.place (t : VTarget) : Place :=
  if ptrPath t.ptr ≤ 1 then (if t.direct then .home t.pa t.n (leafSync t.leaf) else .cached t.pa t.n)
  else ptrPlace t.ptr

/-- A scratchpad access of the unit outside the crew's allocation recorded (R155, R156). -/
def Thread.unitOor (t : Thread) (p : Word) : Thread :=
  if bitOf t.csr.oorflag 0 then t
  else (t.unitCsr 0x013 (fun w => w ||| 1)).unitCsr 0x014 (fun _ => p)

/-- Where an access of the unit has to be sent to be performed: nowhere where its own cluster holds what it needs, else the port of
a pier, a vault, or the core that an SPR pointer names (R150, R190, R270). -/
def State.unitReach (s : State) (k : Nat) (x : VTarget) (write : Bool) : Option Nat :=
  match ptrPath x.ptr with
  | 0 | 1 =>
    let pa := x.pa
    let ro := ptrPath x.ptr == 1
    if x.direct then some (pierPort s k (s.homeDie pa) pa)
    else if write then
      let ca := if (findLine (s.core k).l1 (pa / 256)).isSome then 0 else 1
      if s.storeFetches k pa x.n ca then some (pierPort s k (k / 256) pa) else none
    else if s.l1Hit k pa x.n ro || s.hitAt 1 (k / 16) pa x.n ro then none
    else some (pierPort s k (k / 256) pa)
  | 4 => if vaultOf x.ptr = k / 16 then none else some (vaultEnd (vaultOf x.ptr))
  | 3 => if x.unit / 16 = k then none else some (x.unit / 16)
  | _ => none

/-- The banks an access of the unit reaches, noted in the masks of R309 for a confirmed instruction. -/
def Thread.noteTarget (t : Thread) (s : State) (k : Nat) (x : VTarget) (write : Bool) : Thread :=
  let u : Thread :=
    match ptrPath x.ptr with
    | 0 | 1 => if x.direct then ({} : Thread).noteDirect s k x.pa else ({} : Thread).noteMiss s k x.pa (s.unitReach k x write).isNone
    | 4 => ({} : Thread).noteVault k (vaultOf x.ptr)
    | _ => {}
  (t.unitCsr 0x01D (fun w => w ||| u.csr.tbmask)).unitCsr 0x01E (fun w => w ||| u.csr.tbmaskx)

/-- The bytes a vector load reads of cached memory: of the L1 where they are all there, else of the cluster cache with the issuing
core's dirty words over them (R147, R190). -/
def State.cachedRead (s : State) (k i : Nat) (x : VTarget) : Option Nat × State :=
  let a := Actor.slot k i
  let pa := x.pa
  let ro := ptrPath x.ptr == 1
  if s.l1Hit k pa x.n ro then
    match s.tested a 3 k pa x.n with
    | none => (none, s)
    | some s => (some (s.readSector 0 k pa x.n), s)
  else
    let s := if s.hitAt 1 (k / 16) pa x.n ro then s else s.fillCC (k / 16) (pa / 256) (s.thrOf a).ctx (leafRegion x.leaf) ro
    let own := s.sectorAt 0 k (pa / 256) (pa / 128 % 2)
    let inc := s.sectorAt 1 (k / 16) (pa / 256) (pa / 128 % 2)
    match s.tested a 4 (k / 16) pa x.n with
    | none => (none, s)
    | some s => (some ((mergeUnder own.data own.dirty inc.data).readLE (pa % 128) x.n), s)

/-- One read of the unit performed: the value, none where it meets poison (R190, R411). Vector GEN accesses do not allocate
in the L1, and find the issuing core's words there. -/
def State.unitRead (s : State) (k i : Nat) (x : VTarget) : Option Nat × State :=
  let a := Actor.slot k i
  let at_ := fun (place unit off : Nat) (m : State → Memory) =>
    match s.tested a place unit off x.n with
    | none => (none, s)
    | some s => (some ((m s).readLE off x.n), s)
  match ptrPath x.ptr with
  | 0 | 1 => if x.direct then at_ 0 0 x.pa (fun s => s.mem) else s.cachedRead k i x
  | 4 => at_ 2 (vaultOf x.ptr) (bits x.ptr 26 0) (fun s => Tab.get [] s.vaults (vaultOf x.ptr))
  | path =>
    let (c, j) := if path = 3 then (x.unit / 16, x.unit % 16) else (k, i)
    match (s.crewOf c j).phys (ptrOff x.ptr) with
    | some o => at_ 1 c o (fun s => (s.core c).spad)
    | none => (some 0, s.setThrOf a ((s.thrOf a).unitOor x.ptr))

/-- One write of the unit performed. -/
def State.unitWrite (s : State) (k i : Nat) (x : VTarget) : State :=
  let a := Actor.slot k i
  match ptrPath x.ptr with
  | 0 | 1 =>
    if x.direct then s.homeStore x.pa x.n x.val
    else
      let ca := if (findLine (s.core k).l1 (x.pa / 256)).isSome then 0 else 1
      s.cachedStore k x.pa x.n x.val ca (leafRegion x.leaf) (s.thrOf a).ctx
  | 4 =>
    let v := vaultOf x.ptr
    let off := bits x.ptr 26 0
    { s with vaults := Tab.set s.vaults v ((Tab.get [] s.vaults v : Memory).writeLE off x.n x.val) }.clearPoison 2 v off x.n
  | path =>
    let (c, j) := if path = 3 then (x.unit / 16, x.unit % 16) else (k, i)
    match (s.crewOf c j).phys (ptrOff x.ptr) with
    | some _ => s.spadWrite c (s.crewOf c j) (ptrOff x.ptr) x.n x.val
    | none => s.setThrOf a ((s.thrOf a).unitOor x.ptr)

/-- An access of the unit moved on: sent, or performed with `f` given its value (0 of a write), or with `bad` where it meets poison
(R190, R270, R411). Vector accesses have traffic class 2 (R276). -/
def State.unitMove (s : State) (who : EngineRef) (k i : Nat) (x : VTarget) (write : Bool) (bad : State → State)
    (f : State → Nat → State) : State :=
  s.engineAccess who (s.thrOf (.slot k i)).ctx 2 k x.n write (s.unitReach k x write) true (fun s =>
    if write then f (s.unitWrite k i x) 0
    else
      match s.unitRead k i x with
      | (some v, s) => f s v
      | (none, s) => bad s)

/-- The elements that values read make, by the format of a pointer (R191): a block-scaled element takes two. -/
def loadedElems (p : Word) (vtype : Word) (ts : List VTarget) (vs : List Nat) : List (Nat × Nat) :=
  let et := bits vtype 3 0
  let f := ptrFmt p
  if fmtBlock f then
    let rec pairs : List (VTarget × Nat) → List (Nat × Nat)
      | (t, b) :: (_, sc) :: rest =>
        let code := b / 2 ^ (blockPlace f (ptrL p) t.elem).2.1 % 2 ^ blockBits f
        (t.elem, ((etFmt et).convert (.mode 1) (decodeElem (blockSet f) code sc)).1) :: pairs rest
      | _ => []
    pairs (ts.zip vs)
  else (ts.zip vs).map (fun x => (x.1.elem, loadConvert f et x.2))

/-! ### Checks and confirmation (R180, R210 to R214) -/

/-- The bytes of a vector register that an instruction handles, as element groups of `g` bytes: of its present elements where it works
element by element, the one element of VMVS, none of VHWM's, and all where it may take elements from anywhere (R173, R194). -/
def VEntry.handles (e : VEntry) (c : VecCtx) (g group : Nat) : Bool :=
  let has := fun (i : Nat) => i * e.size / g == group
  match e.op.major, e.op.f5 with
  | 13, _ => (e.present c).any has
  | 14, _ => (e.present c).any has
  | 15, _ => (e.present c).any has
  | 16, 2 => (e.present c).any has
  | 16, 4 => has e.amount
  | 16, 21 => false
  | 17, _ => (List.range e.vl).any has
  | _, _ => true

/-- Whether an instruction finds its registers: every earlier load of a register it touches has landed, and of a VLDA's the element
groups it reads or writes (R190, R194); a later VLDA of the register waits for none. -/
def Thread.regsReady (t : Thread) (e : VEntry) : Bool :=
  let rs := e.op.reads
  let ws := e.op.writes.toList
  let ms := e.op.readsMask ++ e.op.writesMask.toList
  t.vq.all (fun l => !decide (l.seq < e.seq) || !l.confirmed || l.op.isStore ||
      (l.op.writes.toList.all (fun v => !(rs ++ ws).contains v) && l.op.writesMask.toList.all (fun m => !ms.contains m)))
    && t.vec.unlanded.all (fun u => !e.handles t.vec (64 * t.lanes.length) u.group ||
      (!rs.contains u.v && (e.op.major == 13 && e.op.f5 == 6 || !ws.contains u.v)))

/-- Whether an instruction reads a poisoned word of a vector register, or MRD or an accumulating MWR one of its tile (R411). -/
def Thread.readsBad (t : Thread) (e : VEntry) : Bool :=
  t.vec.bad.any (fun x => e.op.reads.contains x.1 && e.handles t.vec 8 x.2) ||
    (e.op.major == 17 && (e.op.f5 == 5 || bitOf e.scalar 6) &&
      ((Tab.get {} t.acc (if e.op.f5 = 5 then e.op.va else e.op.vd) : Tile).bad.any (fun w =>
        decide (64 * bits e.scalar 5 0 < 2 * w + 2 ∧ 2 * w < 64 * bits e.scalar 5 0 + e.vl))))

/-- A context whose register `v` has had elements of `s` bytes written: words they cover whole are not poisoned any more (R410). -/
def VecCtx.clean (c : VecCtx) (v s : Nat) (is : List Nat) : VecCtx :=
  { c with bad := c.bad.filter (fun x =>
      !(x.1 == v && (List.range (8 / s)).all (fun j => is.contains (x.2 * (8 / s) + j)))) }

/-- The first unconfirmed instruction of a slot, where the unit may work on it. -/
def State.vecHead (s : State) (k i : Nat) : Option VEntry :=
  let t := s.thrOf (.slot k i)
  match t.vq.find? (fun e => !e.confirmed) with
  | some e => if e.stage != .queued && !e.stalled && e.trap.isNone && t.regsReady e then some e else none
  | none => none

/-- A change to an entry of a slot's thread. -/
def State.setEntry (s : State) (k i : Nat) (e : VEntry) : State :=
  let t := s.thrOf (.slot k i)
  s.setThrOf (.slot k i) { t with vq := t.vq.map (fun x => if x.seq == e.seq then e else x) }

/-- The units a check of an instruction chooses among; none for an instruction that is not checked. -/
def Thread.unitsOf (t : Thread) (e : VEntry) : List Nat :=
  if e.op.checked && !e.formatFault then e.units t.vec t.lanes.length else []

/-- CHECK_COMPARE: one element is recomputed and compared; a disagreement leads to a replay (R211, R212). -/
def execCheckCompare (core slot : Nat) (agrees : Bool) (s : State) : Out :=
  match s.vecHead core slot with
  | some e =>
    if e.stage == .started && !((s.thrOf (.slot core slot)).unitsOf e).isEmpty then
      .next (s.setEntry core slot { e with stage := if agrees then .checked else .replay })
    else .next s
  | none => .next s

/-- CHECK_REPLAY: the replay of a disagreeing instruction is compared once more: the launch's verdict becomes corrected, or
the instruction raises CHECK_FAULT with the element's index and the verdict becomes tainted (R212, R213). -/
def execCheckReplay (core slot : Nat) (agrees : Bool) (s : State) : Out :=
  match s.vecHead core slot with
  | some e =>
    if e.stage == .replay then
      let t := s.thrOf (.slot core slot)
      if agrees then .next ((s.setEntry core slot { e with stage := .checked }).onLaunch core slot (fun l => l.taint 1))
      else
        let i := (chooseUnit (BitVec.ofNat 32 (bits t.csr.seed 31 0)) (t.unitsOf e)).2
        .next ((s.setEntry core slot { e with trap := some (.checkFault, wordOf i) }).onLaunch core slot (fun l => l.taint 2))
    else .next s
  | none => .next s

/-- A confirmed instruction's flags, its stochastic state and the chooser's step (R180, R204, R210, R218). -/
def Thread.confirmState (t : Thread) (e : VEntry) (flags : Nat) (seed : BitVec 32) : Thread :=
  let us := t.unitsOf e
  let t := if us.isEmpty then t
    else t.unitCsr 0x019 (fun w => wordOf (chooseUnit (BitVec.ofNat 32 (bits w 31 0)) us).1.toNat)
  let t := if e.stochastic then t.unitCsr 0x012 (fun w => withSeed w seed) else t
  if flags = 0 then t else t.unitCsr 0x012 (fun w => w ||| wordOf (flags * 8))

/-- An instruction of majors 14 to 17 confirmed: its results (R180). -/
def State.confirmCompute (s : State) (k i : Nat) (e : VEntry) : State :=
  let a := Actor.slot k i
  let t := s.thrOf a
  let tile : Tile := Tab.get {} t.acc (if e.op.f5 = 5 then e.op.va else e.op.vd)
  let r := vecOut e t.vec t.lanes.length tile t.srseed
  let c := if r.clear then { t.vec with w := Tab.set t.vec.w e.op.va 0 } else t.vec
  let c := (r.elems.foldl (fun c x => c.putElem e.op.vd e.size x) c).clean e.op.vd e.size (r.elems.map (fun x => x.1))
  let c := match r.mask with
    | some m => { c with m := Tab.set c.m e.op.vd m }
    | none => c
  let t := { t with vec := c, acc := match r.tile with
    | some x => Tab.set t.acc e.op.vd { x with bad := x.bad.filter (fun w =>
        !(decide (64 * bits e.scalar 5 0 ≤ 2 * w ∧ 2 * w + 2 ≤ 64 * bits e.scalar 5 0 + e.vl))) }
    | none => t.acc }
  let t := t.confirmState e r.flags r.seed
  let t := { t with vq := t.vq.filter (fun x => x.seq != e.seq) }
  let s := s.setThrOf a t.retireLog
  match r.scalar with
  | some v => s.land a e.dst v
  | none => s

/-- VGRANT confirmed: its share of the strip (R177). -/
def State.confirmGrant (s : State) (k i : Nat) (e : VEntry) : State :=
  let a := Actor.slot k i
  let t := s.thrOf a
  let n := Nat.min (bits t.csr.strip 31 0) (Nat.min (1024 / e.size) (bits t.csr.vlceil 10 0 / e.size))
  let t := (t.unitCsr 0x018 (fun w => wordOf (bits w 31 0 - n))).unitCsr 0x016 (fun _ => wordOf n)
  let t := { t with vq := t.vq.filter (fun x => x.seq != e.seq) }
  (s.setThrOf a t.retireLog).land a e.dst (wordOf n)

/-- The reads a confirmed VLDA has sent: the groups of its register with present elements are no longer landed, and reads
of an earlier VLDA of the register are of no effect (R194). -/
def Thread.sendVlda (t : Thread) (e : VEntry) (ts : List VTarget) : Thread :=
  let g := 64 * t.lanes.length
  let grp := fun (x : VTarget) => x.elem * e.size / g
  let gs := (List.range (1024 / g)).filter (fun j => ts.any (fun x => grp x == j))
  let us := gs.map (fun j => ({ v := e.op.vd, group := j, vtype := e.vtype, elems := ts.filter (fun x => grp x == j) } : VldaRead))
  let w := ts.foldl (fun w x => max w ((x.elem + 1) * e.size)) (Tab.get 0 t.vec.w e.op.vd)
  { t with vec := { t.vec with unlanded := t.vec.unlanded.filter (fun u => u.v != e.op.vd) ++ us,
                               w := Tab.set t.vec.w e.op.vd w } }

/-- A vector memory instruction confirmed: its checks have passed (R180, R190). Reads that an earlier VLDA of its register still has
out are of no effect (R194). -/
def State.confirmAccess (s : State) (k i : Nat) (e : VEntry) (ts : List VTarget) (flags : Nat) : State :=
  let a := Actor.slot k i
  let t := (s.thrOf a).confirmState e flags 1
  let t := ts.foldl (fun t x => t.noteTarget s k x e.op.isStore) t
  let s := if e.op.f5 = 6 then s.dropEngine (fun w => match w with
    | .vlda c x v _ _ => c == k && x == i && v == e.op.vd
    | _ => false) else s
  let t := if e.op.f5 = 6 then { t.sendVlda e ts with vq := t.vq.filter (fun x => x.seq != e.seq) }
    else if ts.isEmpty then { t with vq := t.vq.filter (fun x => x.seq != e.seq) }
    else { t with vq := t.vq.map (fun x => if x.seq == e.seq then { e with confirmed := true, outs := ts } else x) }
  s.setThrOf a t.retireLog

/-- VECTOR_CONFIRM: the oldest unconfirmed instruction of a thread is confirmed once its checks have passed; a data fault
stalls it and parks the thread (R180, R190). -/
def execVectorConfirm (core slot : Nat) (s : State) : Out :=
  match s.vecHead core slot with
  | none => .next s
  | some e =>
    let a := Actor.slot core slot
    if e.op.major = 13 then
      match s.vlsCheck core slot e with
      | .ok ts fl => if (s.thrOf a).readsBad e then .next (s.consumePoison a 0) else .next (s.confirmAccess core slot e ts fl)
      | .walk va => .next (s.needWalk a (s.thrOf a).ctx va (if e.op.isStore then 1 else 0))
      | .fault va kind level size =>
        .next ((s.setEntry core slot { e with stalled := true }).dataFault a (s.thrOf a).ctx va kind level size
          (accessBits (if e.op.isStore then 1 else 0)) (if e.op.f5 = 6 then 3 else 0))
      | _ => .next s
    else if e.formatFault || e.stage == .replay then .next s
    else if e.stage == .started && !((s.thrOf a).unitsOf e).isEmpty then .next s
    else if (s.thrOf a).readsBad e then .next (s.consumePoison a 0)
    else if e.op.major = 16 && e.op.f5 = 1 then .next (s.confirmGrant core slot e)
    else .next (s.confirmCompute core slot e)

/-! ### Accesses performed (R181, R190, R193, R194) -/

/-- Whether no earlier scalar access of the thread stands before a vector access (R181). -/
def State.unitClear (s : State) (k i : Nat) (e : VEntry) : Bool :=
  let a := Actor.slot k i
  !s.packets.any (fun q => q.owner == some a && decide (q.id < e.stamp) &&
    (e.outs.any (fun x => q.body.place.before x.place || (ptrPath x.ptr == 3 && (match q.body with
      | .spr .. => true
      | _ => false)))) &&
    (e.op.isStore || (match q.body with | .load .. => false | _ => true)))

/-- An access of a confirmed instruction noted as performed, with the value a load has read. -/
def State.gotAt (s : State) (k i seq j v : Nat) : State :=
  let t := s.thrOf (.slot k i)
  s.setThrOf (.slot k i) { t with vq := t.vq.map (fun e => if e.seq == seq then { e with got := Tab.set e.got j v } else e) }

/-- The accesses of a confirmed instruction moved on, in ascending index: the reads of a load all at once, the writes of a store one
after the other (R193). -/
def State.unitMoves (s : State) (k i seq : Nat) (store : Bool) : List (VTarget × Nat) → State
  | [] => s
  | (x, j) :: xs =>
    match (s.thrOf (.slot k i)).vq.find? (fun e => e.seq == seq) with
    | none => s
    | some e =>
      if (Tab.find? e.got j).isSome then State.unitMoves s k i seq store xs
      else
        let s := s.unitMove (.vec k i seq j) k i x store (fun s => s.consumePoison (.slot k i) x.ptr) (fun s v => s.gotAt k i seq j v)
        let done := (s.thrOf (.slot k i)).vq.any (fun e => e.seq == seq && (Tab.find? e.got j).isSome)
        if store && !done then s else State.unitMoves s k i seq store xs

/-- A confirmed instruction whose accesses are all performed leaves; a load writes what it has read. -/
def State.finishAccess (s : State) (k i seq : Nat) : State :=
  let a := Actor.slot k i
  let t := s.thrOf a
  match t.vq.find? (fun e => e.seq == seq) with
  | none => s
  | some e =>
    if e.got.length < e.outs.length then s
    else
      let vs := (List.range e.outs.length).map (fun j => Tab.get 0 e.got j)
      let m := BitVec.ofNat 2048 (vs.zipIdx.foldl (fun m x => m + x.1 * 2 ^ (64 * x.2)) 0)
      let c := if e.op.isStore then t.vec
        else if e.op.f5 = 7 then { t.vec with m := Tab.set t.vec.m e.op.vd m }
        else
          let xs := loadedElems e.scalar e.vtype e.outs vs
          (xs.foldl (fun c x => c.putElem e.op.vd e.size x) t.vec).clean e.op.vd e.size (xs.map (fun x => x.1))
      s.setThrOf a { t with vec := c, vq := t.vq.filter (fun x => x.seq != seq) }

/-- VECTOR_ACCESS_PERFORMED: the accesses of the oldest confirmed instruction move on; when the data of a load has returned, or the
writes of a store are performed, it is done (R190, R193). A poisoned word is consumed (R411). -/
def execVectorAccessPerformed (core slot : Nat) (s : State) : Out :=
  match (s.thrOf (.slot core slot)).vq.find? (fun e => e.confirmed) with
  | none => .next s
  | some e =>
    if !s.unitClear core slot e then .next s
    else .next ((s.unitMoves core slot e.seq e.op.isStore e.outs.zipIdx).finishAccess core slot e.seq)

/-- A read of a VLDA element group noted as performed, with its value. -/
def State.gotVlda (s : State) (k i v group j x : Nat) : State :=
  let t := s.thrOf (.slot k i)
  s.setThrOf (.slot k i) { t with vec := { t.vec with unlanded := t.vec.unlanded.map (fun u =>
    if u.v == v && u.group == group then { u with got := Tab.set u.got j x } else u) } }

/-- A VLDA element group taken off those still to land. -/
def Thread.landed (t : Thread) (v group : Nat) : Thread :=
  { t with vec := { t.vec with unlanded := t.vec.unlanded.filter (fun x => !(x.v == v && x.group == group)) } }

/-- Poison met by a VLDA read: consumed, or the drained fault of a thread that is being saved (R399, R411). -/
def State.vldaPoison (s : State) (k i v group : Nat) (p : Word) : State :=
  let a := Actor.slot k i
  let t := s.thrOf a
  if t.run = .swapping then s.setThrOf a { t.landed v group with drained := some { cause := .poison, tval := p } }
  else s.consumePoison a p

/-- The reads of an element group moved on, in no set order (R194). -/
def State.vldaMoves (s : State) (k i v group : Nat) : List (VTarget × Nat) → State
  | [] => s
  | (x, j) :: xs =>
    match (s.thrOf (.slot k i)).vec.unlanded.find? (fun u => u.v == v && u.group == group) with
    | none => s
    | some u =>
      if (Tab.find? u.got j).isSome then State.vldaMoves s k i v group xs
      else State.vldaMoves (s.unitMove (.vlda k i v group j) k i x false (fun s => s.vldaPoison k i v group x.ptr)
        (fun s y => s.gotVlda k i v group j y)) k i v group xs

/-- A group whose reads are all performed lands: its elements are written, and its landed bit is set (R194). -/
def State.finishVlda (s : State) (k i v group : Nat) : State :=
  let a := Actor.slot k i
  let t := s.thrOf a
  match t.vec.unlanded.find? (fun u => u.v == v && u.group == group) with
  | none => s
  | some u =>
    if u.got.length < u.elems.length then s
    else
      let vs := (List.range u.elems.length).map (fun j => Tab.get 0 u.got j)
      let xs := loadedElems ((u.elems.head?).elim 0 (fun x => x.ptr)) u.vtype u.elems vs
      let sz := etSize (bits u.vtype 3 0)
      let t := t.landed v group
      s.setThrOf a { t with vec := { t.vec with
        v := xs.foldl (fun m (x : Nat × Nat) => Tab.set m v ((Tab.get [] m v : Memory).writeLE (x.1 * sz) sz x.2)) t.vec.v : VecCtx }.clean v sz (xs.map (fun (x : Nat × Nat) => x.1)) }

/-- VLDA_READ_LAND: the reads of an element group move on, and land together (R194). -/
def execVldaReadLand (core slot v group : Nat) (s : State) : Out :=
  match (s.thrOf (.slot core slot)).vec.unlanded.find? (fun u => u.v == v && u.group == group) with
  | none => .next s
  | some u => .next ((s.vldaMoves core slot v group u.elems.zipIdx).finishVlda core slot v group)

/-! ### The unwind of a trap (R183) -/

/-- The trap of the oldest unconfirmed instruction of a slot, once the unit has found it. -/
def State.vecTrap (s : State) (k i : Nat) : Option (VEntry × Cause × Word) :=
  let t := s.thrOf (.slot k i)
  match t.vq.find? (fun e => !e.confirmed) with
  | none => none
  | some e =>
    match e.trap with
    | some (c, v) => some (e, c, v)
    | none =>
      if e.stage == .queued || e.stalled || !t.regsReady e then none
      else if e.formatFault then some (e, .formatFault, e.vtype)
      else if e.op.major = 13 then
        match s.vlsCheck k i e with
        | .trap c v => some (e, c, v)
        | _ => none
      else none

/-- What a thread has in flight of the instructions it issued after vector instruction `n` had been dispatched lands nothing and
raises nothing any more (R181, R183). -/
def State.dropLandings (s : State) (k i n : Nat) : State :=
  let a := Actor.slot k i
  let s := s.setCore k ((s.core k).quietDivs (fun d => d.slot == i && decide (n ≤ d.after)))
  { s with packets := s.packets.map (fun p =>
      match p.owner == some a && p.vseq.any (fun v => decide (n ≤ v)), p.body with
      | true, .load _ q m sg acc ro v => { p with body := .load .none q m sg acc ro v }
      | _, _ => p) }

/-- The failures of tasks that discarded MRDs and MWRs waited for: they reach the thread as deferred traps all the same (R246). -/
def VEntry.owedTrap (e : VEntry) : Option AsyncTrap :=
  match e.trap with
  | some (c, v) => if e.op.major = 17 ∧ c = .checkFault then some { cause := c, tval := v } else none
  | none => none

/-- THE UNWIND (R183): the trapping instruction and everything the thread did after it are taken back, and the thread takes
the trap at the instruction's address. Queue entries that a discarded dispatch took return to their queues, and those it reserved go.
The CHECK_FAULT of a task that an MRD or MWR waits for is a deferred one (R246). -/
def State.unwind (s : State) (k i : Nat) (e : VEntry) (c : Cause) (v : Word) : State :=
  let a := Actor.slot k i
  let t := s.thrOf a
  let gone := t.vq.filter (fun x => decide (e.seq ≤ x.seq))
  let tags := gone.filterMap (fun x => match x.dst with | .queue q g => some (q, g) | _ => none)
  let t := (t.log.filter (fun u => decide (e.seq ≤ u.after))).foldl (fun t u => t.undo u) t
  let t := { t with vq := t.vq.filter (fun x => decide (x.seq < e.seq)),
                    log := t.log.filter (fun u => !decide (e.seq ≤ u.after)),
                    async := t.async ++ (gone.filter (fun x => x.seq != e.seq)).filterMap VEntry.owedTrap,
                    popped := gone.flatMap VEntry.took, reserved := tags,
                    loops := e.loops, walking := none, faultSeq := none, parked := false }
  let s := (s.setThrOf a t).dropLandings k i e.seq
  let s := if t.inFlight then s else s.setQuad (k / 4) ((s.quad (k / 4)).release k i)
  s.takeTrap a c v e.pc (e.owedTrap.isSome)

/-- VECTOR_TRAP_UNWIND (R183). -/
def execVectorTrapUnwind (core slot : Nat) (s : State) : Out :=
  match s.vecTrap core slot with
  | some (e, c, v) => .next (s.unwind core slot e c v)
  | none => .next s

end Sys2Proof.Machine
end

