-- ==== Sys2Proof/Machine/Matrix.lean ====
section
/-! DEFINITION. Bit-plane matrix instructions (R229 to R250, R253): claims, tile-task records and their checks, the
scheduler, and what an engine computes. MRD and MWR are in Vector.lean. -/

namespace Sys2Proof.Machine

/-! ### Operand formats (R231) -/

/-- Whether a code is an operand format. -/
def opFormat (f : Nat) : Bool := f == 1 || f == 2 || (14 ≤ f && f ≤ 17)

/-- Whether a plane count is the one of a format. -/
def opPlanes (f p : Nat) : Bool :=
  match f with
  | 16 => p == 1
  | 15 => p == 3
  | 14 => p == 4
  | 1 | 2 => p == 8
  | _ => 1 ≤ p && p ≤ 16

/-- Whether an L is allowed for a format. -/
def opBlockLog (f l : Nat) : Bool :=
  match f with
  | 14 => l == 0
  | 15 | 16 => l ≤ 5
  | _ => l ≤ 7

/-- Whether an operand carries scale bytes. -/
def opScaled (f : Nat) : Bool := 14 ≤ f

/-! ### The tile-task record (R238, R239) -/

/-- OPC, CK and BAND of a record. -/
def recOpc (r : List Byte) : Nat := recField r 0 1 % 4
def recCk (r : List Byte) : Bool := recField r 0 1 / 4 % 2 == 1
def recBand (r : List Byte) : Nat := recField r 0 1 / 8 % 4

/-- Bytes of an operand's planes, of its scales (R239). -/
def planeExtent (k p : Nat) : Nat := k / 128 * (p + 1) * 1024
def scaleExtent (k l : Nat) : Nat := 64 * k / 2 ^ (3 + l)

/-- Whether a base fails: not a multiple of 16, or its extent passes 2^19. -/
def badBase (b extent : Nat) : Bool := b % 16 != 0 || decide (2 ^ 19 < b + extent)

/-- The first failing field of a record of operands, in ascending offset (R239); ACC and OP have been tested. -/
def recFields (r : List Byte) : List (Nat × Bool) :=
  let af := recField r 2 1
  let bf := recField r 3 1
  let ap := recField r 4 1
  let bp := recField r 5 1
  let l := recField r 6 1
  let k := recField r 8 4
  let band := recBand r != 0
  [(2, !opFormat af), (3, !opFormat bf), (4, !opPlanes af ap), (5, !opPlanes bf bp),
   (6, 8 ≤ l || !opBlockLog af l || !opBlockLog bf l), (7, 16 ≤ recField r 7 1),
   (8, k == 0 || 65536 < k || k % 128 != 0 || k % 2 ^ (3 + l) != 0),
   (16, badBase (recField r 16 4) (planeExtent k ap)), (20, badBase (recField r 20 4) (planeExtent k bp)),
   (24, opScaled af && badBase (recField r 24 4) (scaleExtent k l)),
   (28, opScaled bf && badBase (recField r 28 4) (scaleExtent k l)),
   (32, band && badBase (recField r 32 4) (2 * recField r 40 2 + 2)),
   (36, band && badBase (recField r 36 4) (2 * recField r 42 2 + 2)),
   (44, (r.drop 44).any (fun b => b != 0))]

/-- The check of R239: none where the record passes. -/
def State.recordFault (s : State) (k i : Nat) (p : Word) (r : List Byte) : Option (Cause × Word) :=
  let at_ := fun (o : Nat) => some (Cause.formatFault, p + wordOf o)
  let op := recField r 0 1
  let acc := recField r 1 1
  let c := acc % 8
  let ty := acc / 8 % 2 == 1
  let zero := recOpc r == 2
  let ints := fun (o : Nat) => recField r o 1 == 1 || recField r o 1 == 2
  if recOpc r = 3 ∨ recBand r = 3 ∨ 32 ≤ op ∨ (recBand r ≠ 0 ∧ ty) then at_ 0
  else if 16 ≤ acc then at_ 1
  else if (Tab.find? (s.thrOf (.slot k i)).acc c).isNone then some (.accumulatorFault, wordOf c)
  else if (ty && !zero && !(ints 2 && ints 3)) || (recOpc r == 1 && (s.projectedType k i c).any (fun x => x != ty)) then at_ 1
  else if zero then (if 16 ≤ recField r 7 1 then at_ 7 else none)
  else
    match (recFields r).find? (fun x => x.2) with
    | some (o, _) => at_ o
    | none => none

/-! ### The instructions (R247 to R250, R253) -/

/-- Whether some task of a slot targets an accumulator. -/
def State.tilePending (s : State) (k i c : Nat) : Bool :=
  (s.quad (k / 4)).tasks.any (fun x => x.core == k && x.slot == i && x.target == c)

/-- A claim instruction, once the thread is out of run-ahead. -/
def claimOp (f7 : Nat) (c : BitVec 3) (body : State → Thread → Nat → Res) : State → Out :=
  issue { word := wordK 17 f7 0 0 0 c.toNat, sub := 1, leaves := true } (fun s _ => body s s.thr c.toNat)

/-- MCLAIM (R248). -/
def execMclaim (c : BitVec 3) : State → Out :=
  claimOp 0 c (fun s t c =>
    if (Tab.find? t.acc c).isSome ∨ t.accQuota ≤ t.acc.length then .trap .accumulatorFault (wordOf c)
    else .done (s.setThr { t with acc := Tab.set t.acc c {} }) [])

/-- MRELS (R248). -/
def execMrels (c : BitVec 3) : State → Out :=
  claimOp 1 c (fun s t c =>
    if (Tab.find? t.acc c).isNone then .trap .accumulatorFault (wordOf c)
    else if s.tilePending s.curCore s.cur.slotNum c then .park
    else .done (s.setThr { t with acc := Tab.erase t.acc c }) [])

/-- MZERO (R248). -/
def execMzero (c : BitVec 3) : State → Out :=
  claimOp 2 c (fun s t c =>
    if (Tab.find? t.acc c).isNone then .trap .accumulatorFault (wordOf c)
    else if s.tilePending s.curCore s.cur.slotNum c then .park
    else .done (s.setThr { t with acc := Tab.set t.acc c {} }) [])

/-- The next number of a thread's tasks: modulo 2^32, skipping 0 (R241). -/
def nextTask (n : Nat) : Nat := if (n + 1) % 2 ^ 32 = 0 then 1 else (n + 1) % 2 ^ 32

/-- MTASK (R249). -/
def execMtask (a d : Reg) : State → Out :=
  issue { word := wordK 17 3 0 0 a.toNat d.toNat, srcs := [a], dsts := [d], sub := 1, leaves := true } (fun s xs =>
    let p := arg xs 0
    let k := s.curCore
    let i := s.cur.slotNum
    let q := s.quad (k / 4)
    match s.checkPtr false p with
    | some c => .trap c p
    | none =>
      if ptrPath p ≠ 2 ∨ bits p 18 0 % 64 ≠ 0 then .trap .pointerFault p
      else if 16 ≤ (q.tasks.filter (fun x => x.core == k)).length ∨ s.thr.vecStoresOut then .park
      else
        let off := bits p 18 0
        let crew := s.crewOf k i
        let r := (List.range 64).map (fun j => BitVec.ofNat 8 (s.spadRead k crew (off + j) 1))
        match (match crew.phys off with | some o => s.tested s.cur 1 k o 64 | none => some s) with
        | none => eatPoison p
        | some s =>
          match s.recordFault k i p r with
          | some (c, v) => .trap c v
          | none =>
            let n := nextTask s.thr.taskSeq
            let t := { s.thr with taskSeq := n }
            let t := if (crew.phys off).isNone then t.noteOor p else t
            .done ((s.setThr t).setQuad (k / 4) { q with tasks := q.tasks ++ [{ core := k, slot := i, seq := n, record := r, origin := k }] })
              [wordOf n])

/-- MWAIT of a task number (R250). -/
def execMwait (a : Reg) : State → Out :=
  issue { word := wordK 17 4 0 0 a.toNat 0, srcs := [a], sub := 1, leaves := true } (fun s xs =>
    let v := arg xs 0
    let k := s.curCore
    let open_ := (s.quad (k / 4)).tasks.any (fun x => x.core == k && x.slot == s.cur.slotNum &&
      decide ((bits v 31 0 + 2 ^ 32 - x.seq) % 2 ^ 32 < 2 ^ 31))
    if v = 0 ∨ !open_ then .done s [] else .park)

/-- MWAIT of an accumulator (R250). -/
def execMwaitAcc (c : BitVec 3) : State → Out :=
  issue { word := wordK 17 4 1 0 c.toNat 0, sub := 1, leaves := true } (fun s _ =>
    if (Tab.find? s.thr.acc c.toNat).isNone then .trap .accumulatorFault (wordOf c.toNat)
    else if s.tilePending s.curCore s.cur.slotNum c.toNat then .park
    else .done s [])

/-- The status word of a claimed accumulator (R253). -/
def tileStatus (t : Tile) (pend : Nat) : Word :=
  wordOf (1 + 2 * boolNat t.isInt + 4 * boolNat t.ty.isSome + 8 * boolNat t.sat + 16 * boolNat t.xerr
    + 32 * boolNat t.band.isSome + 64 * boolNat t.flt + 256 * pend + 2 ^ 32 * t.bandProduct)

/-- MSTAT (R253). -/
def execMstat (c : BitVec 3) (d : Reg) : State → Out :=
  issue { word := wordK 17 7 0 0 c.toNat d.toNat, dsts := [d], sub := 1, leaves := true } (fun s _ =>
    let k := s.curCore
    match Tab.find? s.thr.acc c.toNat with
    | none => .done s [0]
    | some t => .done s [tileStatus t ((s.quad (k / 4)).tasks.filter (fun x =>
        x.core == k && x.slot == s.cur.slotNum && x.target == c.toNat)).length])

/-! ### What an engine computes (R229 to R235) -/

/-- An operand: where its planes and scales begin, its format, planes and block log. -/
structure PlaneOp where
  base : Nat
  scale : Nat
  fmt : Nat
  planes : Nat
  blog : Nat

/-- Operand A or B of a record. -/
def operandA (r : List Byte) : PlaneOp :=
  { base := recField r 16 4, scale := recField r 24 4, fmt := recField r 2 1, planes := recField r 4 1, blog := recField r 6 1 }
def operandB (r : List Byte) : PlaneOp :=
  { base := recField r 20 4, scale := recField r 28 4, fmt := recField r 3 1, planes := recField r 5 1, blog := recField r 6 1 }

/-- Element `k` of a row (of a column for B): ±q, exactly (R229). -/
def PlaneOp.elem (o : PlaneOp) (rd : Nat → Byte) (row k : Nat) : Int :=
  let a := o.base + k / 128 * (o.planes + 1) * 1024 + 16 * row + k % 128 / 8
  let bit := fun (slice : Nat) => (rd (a + 1024 * slice)).getLsbD (k % 8)
  let q := (List.range o.planes).foldl (fun n j => n + (if bit (1 + j) then 2 ^ j else 0)) 0
  if bit 0 then -(q : Int) else q

/-- The weight of one unit of q for a row in a block, as m × 2^e (R230, R231). -/
def PlaneOp.weight (o : PlaneOp) (rd : Nat → Byte) (row block : Nat) : Nat × Int :=
  let b := (rd (o.scale + 64 * block + row)).toNat
  match o.fmt with
  | 14 => (scaleUnits b, -8)
  | 15 | 16 => (scaleUnits b, -7)
  | 17 => (1, (if 128 ≤ b then (b : Int) - 256 else b) - o.planes + 1)
  | _ => (1, 0)

/-- Elements of a segment: a block, or 128 elements of a longer one (R232). -/
def segmentLen (l : Nat) : Nat := Nat.min 128 (2 ^ (3 + l))

/-- The exact partial D of a segment that begins at element `k0` (R232). -/
def partialD (a b : PlaneOp) (rd : Nat → Byte) (r n k0 : Nat) : Int :=
  (List.range (segmentLen a.blog)).foldl (fun d j => d + a.elem rd r (k0 + j) * b.elem rd n (k0 + j)) 0

/-- The leaf of a segment (R233). -/
def leafOf (a b : PlaneOp) (rd : Nat → Byte) (r n k0 : Nat) : Nat :=
  let d := partialD a b rd r n k0
  let j := k0 / 2 ^ (3 + a.blog)
  let (ma, ea) := a.weight rd r j
  let (mb, eb) := b.weight rd n j
  let m := d.natAbs * ma * mb
  if m = 0 then 0 else (fp32.round (.mode 1) (decide (d < 0)) m (ea + eb) false).1

/-- The sum of a chunk for an FP32 accumulator: the tree of R125 over 32 leaf positions (R233). -/
def chunkSum (a b : PlaneOp) (rd : Nat → Byte) (r n c : Nat) : Nat :=
  let len := segmentLen a.blog
  let leaves := (List.range 32).map (fun p =>
    if 4 * p % len = 0 then some (leafOf a b rd r n (128 * c + 4 * p)) else none)
  ((redTree fp32 (.mode 1) 5 leaves 0).1).getD 0

/-- The sum of a chunk for an INT32 accumulator (R234). -/
def chunkInt (a b : PlaneOp) (rd : Nat → Byte) (r n c : Nat) : Int :=
  (List.range 128).foldl (fun d j => d + a.elem rd r (128 * c + j) * b.elem rd n (128 * c + j)) 0

/-- FP32 addition and multiplication rounding RNE, without flags (R236). -/
def add32 (x y : Nat) : Nat := (fAdd fp32 (.mode 1) (fp32.unpack x) (fp32.unpack y)).1
def mul32 (x y : Nat) : Nat := (fMul fp32 (.mode 1) (fp32.unpack x) (fp32.unpack y)).1

/-- A BF16 value of the scratchpad widened to FP32. -/
def bandValue (rd : Nat → Byte) (base idx : Nat) : Nat :=
  let x := (rd (base + 2 * idx)).toNat + 256 * (rd (base + 2 * idx + 1)).toNat
  (fp32.convert (.mode 1) (bf16.unpack x)).1

/-- bp of R235. -/
def bandProductOf (r : List Byte) (rd : Nat → Byte) : Nat :=
  mul32 (bandValue rd (recField r 32 4) (recField r 40 2)) (bandValue rd (recField r 36 4) (recField r 42 2))

/-- One element of the target after a task: its bits, and whether an INT32 add clamped (R234, R235). -/
def taskElem (rec : List Byte) (rd : Nat → Byte) (old r n : Nat) : Nat × Bool :=
  let a := operandA rec
  let b := operandB rec
  let chunks := List.range (recField rec 8 4 / 128)
  let start := if recOpc rec = 0 then 0 else old
  if recField rec 1 1 / 8 % 2 = 1 then
    chunks.foldl (fun (acc : Nat × Bool) c =>
      let z := readInt 32 acc.1 + chunkInt a b rd r n c
      let zc := min (max z (-2147483648)) 2147483647
      (cutInt 32 zc, acc.2 || z != zc)) (start, false)
  else
    let v := chunks.foldl (fun acc c => add32 acc (chunkSum a b rd r n c)) start
    (if recBand rec = 1 then mul32 v (bandProductOf rec rd) else v, false)

/-- The tile a task leaves (R234, R235, R238). -/
def taskTile (rec : List Byte) (rd : Nat → Byte) (t : Tile) : Tile :=
  let ty := recField rec 1 1 / 8 % 2 == 1
  if recOpc rec = 2 then { t with ty := some ty, sat := false, xerr := false, band := none, data := [] }
  else
    let rs := (List.range 4096).map (fun i => (i, taskElem rec rd (t.elem i) (i / 64) (i % 64)))
    let clamped := rs.any (fun x => x.2.2)
    { t with
      ty := some ty,
      sat := (if recOpc rec = 0 then false else t.sat) || clamped,
      band := if recBand rec = 2 then some (BitVec.ofNat 32 (bandProductOf rec rd))
              else if recOpc rec = 0 then none else t.band,
      data := rs.map (fun x => (x.1, BitVec.ofNat 32 x.2.1)) }

/-! ### The scheduler (R241 to R246) -/

/-- XW, XCH and XID of a record. -/
def Task.waits (t : Task) : Bool := recField t.record 7 1 / 8 % 2 == 1
def Task.channel (t : Task) : Nat := recField t.record 7 1 % 8
def Task.xid (t : Task) : BitVec 32 := BitVec.ofNat 32 (recField t.record 12 4)

/-- Whether a task may start: no earlier task of its thread on its tile, and its transfer completed (R241, R242). -/
def State.taskReady (s : State) (qn : Nat) (t : Task) : Bool :=
  t.engine.isNone && t.kept.isNone &&
    !((s.quad qn).tasks.takeWhile (fun x => x != t)).any (fun x => x.core == t.core && x.slot == t.slot && x.target == t.target) &&
    !(t.waits && (s.cluster (t.origin / 16)).copies.any (fun c => c.core == t.origin && c.ch == t.channel && c.xid == t.xid))

/-- The task an engine takes: of the first core from the pointer on that has a ready one, the earliest issued (R243). -/
def State.nextReady (s : State) (qn : Nat) : Option Task :=
  (List.range 4).findSome? (fun j =>
    (s.quad qn).tasks.find? (fun t => t.core % 4 == ((s.quad qn).engineNext + j) % 4 && s.taskReady qn t))

/-- A change to a tile of a slot's thread. -/
def State.onTile (s : State) (k i c : Nat) (f : Tile → Tile) : State :=
  let t := s.thrOf (.slot k i)
  match Tab.find? t.acc c with
  | some x => s.setThrOf (.slot k i) { t with acc := Tab.set t.acc c (f x) }
  | none => s

/-- TILE_TASK_START: a free engine takes a ready task; one whose transfer ended in error does not run, and sets XERR on its
tile (R242, R243). -/
def execTileTaskStart (quad engine : Nat) (s : State) : Out :=
  let q := s.quad quad
  if 2 ≤ engine ∨ q.tasks.any (fun t => t.engine == some engine) then .next s
  else
    match s.nextReady quad with
    | none => .next s
    | some t =>
      if t.waits && (s.core t.origin).xerrs.contains (t.channel, t.xid) then
        .next ((s.setQuad quad { q with tasks := q.tasks.filter (fun x => x != t) }).onTile t.core t.slot t.target
          (fun x => { x with xerr := true }))
      else
        .next (s.setQuad quad { q with
          tasks := q.tasks.map (fun x => if x == t then { x with engine := some engine } else x),
          engineNext := (t.core % 4 + 1) % 4 })

/-- The byte ranges of the scratchpad a task reads: offset and length (R230, R238). -/
def taskRanges (r : List Byte) : List (Nat × Nat) :=
  if recOpc r = 2 then []
  else
    let k := recField r 8 4
    let a := operandA r
    let b := operandB r
    [(a.base, planeExtent k a.planes), (b.base, planeExtent k b.planes)]
      ++ (if opScaled a.fmt then [(a.scale, scaleExtent k a.blog)] else [])
      ++ (if opScaled b.fmt then [(b.scale, scaleExtent k b.blog)] else [])
      ++ (if recBand r = 0 then [] else [(recField r 32 4 + 2 * recField r 40 2, 2), (recField r 36 4 + 2 * recField r 42 2, 2)])

/-- The pointer THR_OORADDR takes for a task that reads outside its crew's rows (R155, R239). DESIGN CHOICE (assumption 81): where
several of its ranges do, the first byte outside of the first of them in the order A planes, B planes, A scales, B scales, A band, B
band, as an SPL pointer with FMT and L 0; the spec names no order and no pointer. -/
def taskOor (c : Crew) (rs : List (Nat × Nat)) : Option Word :=
  (rs.find? (fun x => x.2 != 0 && decide (8192 * c.rows < x.1 + x.2))).map (fun x =>
    wordOf (2 ^ 62 + max x.1 (8192 * c.rows)))

/-- A task's reads outside its crew's rows recorded in its thread (R239). -/
def State.noteTaskOor (s : State) (k i : Nat) (rs : List (Nat × Nat)) : State :=
  match taskOor (s.crewOf k i) rs with
  | some p => s.setThrOf (.slot k i) ((s.thrOf (.slot k i)).unitOor p)
  | none => s

/-- The deferred CHECK_FAULT of a task: an MRD or MWR of the thread that waits for it traps at itself, else it becomes pending
(R246). -/
def Thread.taskFailed (t : Thread) (c seq : Nat) : Thread :=
  match t.vq.find? (fun e => e.stage == .queued && e.op.major == 17 && (if e.op.f5 = 5 then e.op.va else e.op.vd) == c) with
  | some e => { t with vq := t.vq.map (fun x => if x.seq == e.seq then { x with trap := some (.checkFault, wordOf seq) } else x) }
  | none => { t with async := t.async ++ [{ cause := .checkFault, tval := wordOf seq }] }

/-- The bytes a task reads tested for poison, range after range: the state with its single-bit errors corrected, or the first range
with a poisoned word (R410, R411). -/
def State.taskTested (s : State) (k i : Nat) : List (Nat × Nat) → Except Nat State
  | [] => .ok s
  | x :: xs =>
    let crew := s.crewOf k i
    let n := Nat.min x.2 (8192 * crew.rows - x.1)
    if n = 0 then State.taskTested s k i xs
    else
      match s.tested (.slot k i) 1 k (x.1 + 8192 * crew.base) n with
      | none => .error x.1
      | some s => State.taskTested s k i xs

/-- TILE_TASK_COMPLETE: a task ends on its engine. `badChunks` is how often in a row the checksum of some chunk disagreed,
where CK asks for it: once is corrected by the rerun, again stops the task with FLT (R237, R246). A poisoned operand is consumed, or
becomes the drained fault of a thread that is being saved (R399, R411). -/
def execTileTaskComplete (quad engine badChunks : Nat) (s : State) : Out :=
  let q := s.quad quad
  match q.tasks.find? (fun t => t.engine == some engine) with
  | none => .next s
  | some t =>
    let k := t.core
    let i := t.slot
    let a := Actor.slot k i
    let crew := s.crewOf k i
    let rs := taskRanges t.record
    let bad := if recCk t.record && recOpc t.record != 2 then badChunks else 0
    let done := s.setQuad quad { q with tasks := q.tasks.filter (fun x => x != t) }
    let eaten := fun (s : State) (p : Word) =>
      if (s.thrOf a).run = .swapping then s.setThrOf a { s.thrOf a with drained := some { cause := .poison, tval := p } }
      else s.consumePoison a p
    let old : Tile := Tab.get {} (s.thrOf a).acc t.target
    match done.taskTested k i rs with
    | .error o => .next (eaten done (wordOf (2 ^ 62 + o)))
    | .ok done =>
      if recOpc t.record = 1 ∧ old.bad ≠ [] then .next (eaten done 0)
      else if 2 ≤ bad then
        let q := done.quad quad
        let s1 := done.setQuad quad { q with tasks := q.tasks.filter (fun x => !(x.core == k && x.slot == i)) }
        let (n, s1) := s1.takeFree
        let s1 := s1.onTile k i t.target (fun x => { x with
          flt := true, data := (List.range 4096).map (fun j => (j, (Config.freeByte n (4 * j)
            ++ Config.freeByte n (4 * j + 1) ++ Config.freeByte n (4 * j + 2) ++ Config.freeByte n (4 * j + 3) : BitVec 32))) })
        let s1 := s1.setThrOf a ((s1.thrOf a).taskFailed t.target t.seq)
        .next ((s1.noteTaskOor k i rs).onLaunch k i (fun l => l.taint 2))
      else
        let rd := fun (off : Nat) => BitVec.ofNat 8 (done.spadRead k crew off 1)
        let s1 := done.onTile k i t.target (fun x => { taskTile t.record rd x with bad := [] })
        let s1 := s1.noteTaskOor k i rs
        .next (if bad = 1 then s1.onLaunch k i (fun l => l.taint 1) else s1)

end Sys2Proof.Machine
end

