-- ==== Sys2Proof/Machine/Sync.lean ====
section
/-! DEFINITION. Atomics (R317 to R319), XFENCE (R315, R316), queue locks and waits (R320 to R323), barriers (R324) and
the register hand-offs TAKE, EMPTY and WAITT (R325, R327, R328), with their events at the home piers. -/

namespace Sys2Proof.Machine

/-! ### Atomics (R317, R318) -/

/-- The word of an AMO instruction (R317). -/
def wordAmo (fn : Nat) (scope : BitVec 2) (b a : Reg) (ord : BitVec 2) (w : Bool) (d : Reg) : Nat :=
  fn * 2 ^ 27 + scope.toNat * 2 ^ 25 + b.toNat * 2 ^ 20 + a.toNat * 2 ^ 15 + ord.toNat * 2 ^ 13 + boolNat w * 2 ^ 12
    + d.toNat * 2 ^ 7 + majorBits 21

/-- The storage letter of a path, as a storage set: G, S or V. -/
def pathLetter (p : Word) : Nat := match ptrPath p with | 0 => 1 | 4 => 4 | _ => 2

/-- A sector of a cache level written back and made invalid (R318). -/
def State.retire (s : State) (level unit line sec : Nat) : State :=
  let s := s.pushSector level unit line sec
  s.setSectorAt level unit line sec { s.sectorAt level unit line sec with valid := false, owned := false }

/-- A sector written back and made invalid in each of a core's caches below the point of a scope (R318). -/
def State.retireBelow (s : State) (core scope line sec : Nat) : State :=
  let s := s.retire 0 core line sec
  let s := if scope < 1 then s else s.retire 1 (core / 16) line sec
  if scope < 2 then s else s.retire 2 (s.visitSlice core (256 * line)) line sec

/-- An atomic of the thread sent to its point on GEN (R318), and the banks its request reaches noted (R309). -/
def genAtomic (s : State) (e : Word) (sh : Nat) (fn n scope ord : Nat) (ptr : Word) (v cmp : Nat) : State → Dest → State :=
  fun s' d =>
  let k := s.curCore
  let pa := leafPa e sh (ptrAddr ptr)
  let acc : PAccess := { pa := pa, n := n, region := leafRegion e, sync := leafSync e, ca := leafCA e }
  let home := s.homeDie pa
  let direct := leafSync e || leafCA e == 2
  let net := if leafSync e then Net.syn else if direct then .req else if scope = 0 then .local else .req
  let die := if direct || 2 ≤ scope then home else k / 256
  let t := s'.thrOf s.cur
  let t := if direct then t.noteDirect s' k pa
           else if scope = 0 then t.noteMiss s' k pa (s'.sectorAt 1 (k / 16) (pa / 256) (pa / 128 % 2)).valid
           else t.noteHome s' k pa (decide (2 ≤ scope) || s'.visitorMiss k pa)
  (s'.setThrOf s.cur t).send
    { net := net, owner := some s.cur, ctx := s.curCtx, cls := if leafSync e then 0 else 1, src := k,
      dst := if net = .local then k else pierPort s k die pa, body := .atomic fn d ptr n v cmp (some acc) scope ord }

/-- An atomic of the thread on its own scratchpad: performed at issue, its reply lands at n + 8 (R318); outside the
allocation it reads zeros and writes nothing (R155). -/
def splAtomic (s : State) (fn n : Nat) (ptr : Word) (v cmp : Nat) : State → Dest → State := fun s' d =>
  let k := s.curCore
  let c := s.crewOf k s.cur.slotNum
  match c.phys (ptrOff ptr) with
  | some _ =>
    let old := s'.spadRead k c (ptrOff ptr) n
    sendLoad .local k ptr n true none false (some (extend true n old)) 8
      (s'.spadWrite k c (ptrOff ptr) n (atomicResult fn n old v cmp)) d
  | none =>
    sendLoad .local k ptr n true none false (some 0) 8 (s'.setThr (s'.thr.noteOor ptr)) d

/-- An atomic issued after its release: it completes with a result that lands later, or waits for the result where its
acquire or a possible refusal asks for it (R159, R317). -/
def amoGo (s : State) (waits : Bool) (k : State → Dest → State) : Res :=
  if waits then .sent s k else .later s k

/-- The release half of an ordered atomic, then the atomic (R317). -/
def amoOrdered (s : State) (ord scope : Nat) (ptr : Word) (k : State → Res) : Res :=
  if 2 ≤ ord && s.thr.stage < 2 then
    (s.relTurn s.regmask scope (1 ||| pathLetter ptr)).thenDo 1 (fun s => k (s.setStage 2))
  else k s

/-- An AMO instruction once its operands are read (R317): stages 1 its release, 2 its issue, 8 the wait for its
result. -/
def amoBody (fn : Nat) (scope ord : Nat) (w : Bool) (s : State) (xs : List Word) : Res :=
  let n := if w then 8 else 4
  let v := (arg xs 1).toNat % 2 ^ (8 * n)
  let cmp := (arg xs 2).toNat % 2 ^ (8 * n)
  match s.formPtr (arg xs 0) 0 n true with
  | .error (c, x) => .trap c x
  | .ok ptr =>
    if s.thr.stage = 8 then
      if s.owes s.cur Body.isLoad || s.thr.vecAccessesOut then .wait s false
      else .done (if ord % 2 = 1 then s.acquire s.curCore s.regmask scope (1 ||| pathLetter ptr) else s) []
    else
      let waits := ord % 2 = 1 || ptrPath ptr == 3
      match ptrPath ptr with
      | 0 => withLeaf s (ptrAddr ptr) 2 (fun e sh => amoOrdered s ord scope ptr (fun s =>
               amoGo s waits (genAtomic s e sh fn n scope ord ptr v cmp)))
      | 2 => amoOrdered s ord scope ptr (fun s =>
               match (s.crewOf s.curCore s.cur.slotNum).phys (ptrOff ptr) with
               | some o =>
                 match s.tested s.cur 1 s.curCore o n with
                 | none => eatPoison ptr
                 | some s => amoGo s waits (splAtomic s fn n ptr v cmp)
               | none => amoGo s waits (splAtomic s fn n ptr v cmp))
      | 3 => amoOrdered s ord scope ptr (fun s =>
               withRank s (ptrRank ptr) (fun w s => match w with
               | .nowhere => .trap .scratchpadRefusal ptr
               | .moving => .park
               | .away => .park
               | .here c _ => amoGo s waits (fun s dst =>
                   s.send { net := if c = s.curCore then Net.local else .req, owner := some s.cur, ctx := s.thr.ctx,
                            cls := 1, src := s.curCore, dst := c, body := .spr 1 ptr n v fn cmp dst })))
      | 4 => if !(s.vaultGrant s.thr.ctx ptr n false && s.vaultGrant s.thr.ctx ptr n true) then .trap .vaultFault ptr
             else amoOrdered s ord scope ptr (fun s =>
               let port := vaultPort s.curCore (vaultOf ptr)
               amoGo (s.setThr (s.thr.noteVault s.curCore (vaultOf ptr))) waits (fun s dst =>
                 s.send { net := port.1, owner := some s.cur, ctx := s.thr.ctx, cls := 1, src := s.curCore,
                          dst := port.2, body := .atomic fn dst ptr n v cmp none scope ord }))
      | _ => .trap .pointerFault ptr

/-- An AMO instruction (R317). AMOCAS reads its destination as the comparand. -/
def amoOp (fn : Nat) (scope : BitVec 2) (b a : Reg) (ord : BitVec 2) (w : Bool) (d : Reg) : State → Out :=
  issue { word := wordAmo fn scope b a ord w d, srcs := if fn = 2 then [a, b, d] else [a, b], dsts := [d],
          sub := 1, leaves := true } (amoBody fn scope.toNat ord.toNat w)

/-- AMOADD (R317). -/
def execAmoadd (scope : BitVec 2) (b a : Reg) (ord : BitVec 2) (w : Bool) (d : Reg) : State → Out :=
  amoOp 0 scope b a ord w d

/-- AMOSWP (R317). -/
def execAmoswp (scope : BitVec 2) (b a : Reg) (ord : BitVec 2) (w : Bool) (d : Reg) : State → Out :=
  amoOp 1 scope b a ord w d

/-- AMOCAS (R317). -/
def execAmocas (scope : BitVec 2) (b a : Reg) (ord : BitVec 2) (w : Bool) (d : Reg) : State → Out :=
  amoOp 2 scope b a ord w d

/-- AMOMIN (R317). -/
def execAmomin (scope : BitVec 2) (b a : Reg) (ord : BitVec 2) (w : Bool) (d : Reg) : State → Out :=
  amoOp 3 scope b a ord w d

/-- AMOMAX (R317). -/
def execAmomax (scope : BitVec 2) (b a : Reg) (ord : BitVec 2) (w : Bool) (d : Reg) : State → Out :=
  amoOp 4 scope b a ord w d

/-- AMOMINU (R317). -/
def execAmominu (scope : BitVec 2) (b a : Reg) (ord : BitVec 2) (w : Bool) (d : Reg) : State → Out :=
  amoOp 5 scope b a ord w d

/-- AMOMAXU (R317). -/
def execAmomaxu (scope : BitVec 2) (b a : Reg) (ord : BitVec 2) (w : Bool) (d : Reg) : State → Out :=
  amoOp 6 scope b a ord w d

/-- AMOAND (R317). -/
def execAmoand (scope : BitVec 2) (b a : Reg) (ord : BitVec 2) (w : Bool) (d : Reg) : State → Out :=
  amoOp 7 scope b a ord w d

/-- AMOOR (R317). -/
def execAmoor (scope : BitVec 2) (b a : Reg) (ord : BitVec 2) (w : Bool) (d : Reg) : State → Out :=
  amoOp 8 scope b a ord w d

/-- AMOXOR (R317). -/
def execAmoxor (scope : BitVec 2) (b a : Reg) (ord : BitVec 2) (w : Bool) (d : Reg) : State → Out :=
  amoOp 9 scope b a ord w d

/-- The level at which an atomic on a cached page is performed, and the unit its write registers there (R318): the cluster cache, the
pier slice of the issuing die, or the home pier. -/
def State.pointOf (s : State) (core scope : Nat) (x : PAccess) : Below × Nat :=
  let line := x.pa / 256
  let cl := core / 16
  if scope = 0 then (belowL1 s cl line, core)
  else if scope = 1 then (belowCC s cl line, cl)
  else (belowHome, if s.homeDie x.pa = core / 256 then cl else visitorUnit (s.visitSlice core x.pa))

/-- An atomic on a cached page performed at the point of its scope (R318): the sector is written back from the core's caches below
the point and made invalid there, the word is read at the point, and what is written registers as a release of it would. None where
the word is poisoned. -/
def State.pointAtomic (s : State) (p : Packet) (core scope : Nat) (x : PAccess) (fn v cmp : Nat) : Option (Nat × State) :=
  let line := x.pa / 256
  let sec := x.pa / 128 % 2
  let s := s.retireBelow core scope line sec
  let (b, unit) := s.pointOf core scope x
  let s := b.ensure s line x.region p.ctx false
  match s.tested (p.owner.getD (.slot core 0)) b.place.1 b.place.2 x.pa x.n with
  | none => none
  | some s =>
    let old := (b.bytes s line sec).readLE (x.pa % 128) x.n
    if atomicWrites fn old cmp then
      let data := Memory.writeLE [] (x.pa % 128) x.n (atomicNew fn x.n old v)
      let s := b.settle s unit line sec x.region p.ctx (wordMask (x.pa % 128) x.n) (Memory.over data (b.bytes s line sec))
      let s := s.clearPoison b.place.1 b.place.2 x.pa x.n
      some (old, if b.place.1 = 0 then s.retestWaits x.pa x.n else s)
    else some (old, s)

/-- An atomic performed at the home pier of a page with SYNC or CA 2, whatever its scope (R318); none where the word is poisoned. -/
def State.homeAtomic (s : State) (p : Packet) (x : PAccess) (fn v cmp : Nat) : Option (Nat × State) :=
  (s.tested (p.owner.getD (.slot p.src 0)) 0 0 x.pa x.n).map (fun s =>
    let old := s.mem.readLE x.pa x.n
    (old, if atomicWrites fn old cmp then s.homeStore x.pa x.n (atomicNew fn x.n old v) else s))

/-- The network an atomic's reply returns on: SYN's reverse path, RSP, or its core. -/
def Packet.backNet (p : Packet) : Net := if p.net = .req then .rsp else p.net

/-- The reply of an atomic sent back, with the value it read. What was combined into it receives its own values where the switches
split it (R280). -/
def State.replyAtomic (s : State) (p : Packet) (v : Nat) : State :=
  match p.body with
  | .atomic _ d ptr n _ _ _ _ _ => s.reply p p.backNet (.load d ptr n true none false (some (extend true n (v % 2 ^ (8 * n)))))
  | _ => s

/-- ATOMIC_AT_POINT: an atomic is performed indivisibly at its point and its reply sent (R318). An atomic that meets a poisoned word
is answered so, and its thread, with those whose requests were combined into it, consumes the word (R280, R410, R411). -/
def execAtomicAtPoint (id : Nat) (s : State) : Out :=
  match s.arrived? id with
  | some p =>
    match p.body with
    | .poison ptr => .next (s.poisonPacket p ptr)
    | .atomic fn _ ptr _ v cmp (some x) scope _ =>
      if !s.orderClear p then .next s
      else
        match if x.sync || x.ca == 2 then s.homeAtomic p x fn v cmp else s.pointAtomic p p.src scope x fn v cmp with
        | none => .next (s.reply p p.backNet (.poison ptr))
        | some (old, s1) => .next (s1.replyAtomic p old)
    | .atomic fn _ ptr n v cmp none _ _ =>
      let w := vaultOf ptr
      let off := bits ptr 26 0
      if !s.orderClear p then .next s
      else
        match s.tested (p.owner.getD (.slot p.src 0)) 2 w off n with
        | none => .next (s.reply p p.backNet (.poison ptr))
        | some s =>
          let m : Memory := Tab.get [] s.vaults w
          let old := m.readLE off n
          if atomicWrites fn old cmp then
            let s1 := { s with vaults := Tab.set s.vaults w (m.writeLE off n (atomicNew fn n old v)) }
            .next ((s1.clearPoison 2 w off n).replyAtomic p old)
          else .next (s.replyAtomic p old)
    | _ => .next s
  | none => .next s

/-! ### XFENCE (R315, R316) -/

/-- Whether every access of a class's earlier set of the thread is performed (R315). -/
def State.classDone (s : State) (e : Nat) : Bool :=
  let k := s.curCore
  let i := s.cur.slotNum
  let u := s.thr.uid
  match e with
  | 1 => !(s.cluster (k / 16)).copies.any (fun c => c.core == k && c.slot == i && c.uid == u)
  | 2 => !(s.quad (k / 4)).tasks.any (fun t => t.core == k && t.slot == i)
  | 3 => s.thr.vec.unlanded.isEmpty
  | 4 => !(s.cluster (k / 16)).copies.any (fun c => c.core == k && c.slot == i && c.uid == u && c.op == 5)
  | _ => true

/-- XFENCE (R316): stage 1 waits for the earlier set, 2 is the release of TH, 3 the load wait of the acquire. -/
def execXfence (b a : Reg) (scope : BitVec 2) : State → Out :=
  issue { word := wordSyn 3 b.toNat a.toNat scope.toNat 0, sub := 1, leaves := true } (fun s _ =>
    let acq := fun (s : State) =>
      if b.toNat = 0 then
        if s.owes s.cur Body.isLoad || s.thr.vecAccessesOut then Res.wait (s.setStage 3) false
        else .done (s.acquire s.curCore s.regmask scope.toNat 7) []
      else .done s []
    if s.thr.stage = 3 then acq s
    else if s.thr.stage < 2 && !s.classDone a.toNat then .wait (s.setStage 1) false
    else if a.toNat = 0 then (s.relTurn s.regmask scope.toNat 7).thenDo 2 acq
    else acq s)

/-! ### Queue locks (R320 to R322) -/

/-- The page of a lock or a waited word: a SYNC page with the rights the instruction needs, or a SYNC_FAULT (R320). -/
def syncWord (s : State) (a : Word) (kind : Nat) (k : Word → Nat → Res) : Res :=
  match s.formPtr a 0 8 (kind != 0) with
  | .error (c, v) => .trap c v
  | .ok ptr =>
    if ptrPath ptr ≠ 0 then .trap .pointerFault ptr
    else withLeaf s (ptrAddr ptr) kind (fun e sh =>
      if !leafSync e then .trap .syncFault ptr else k ptr (leafPa e sh (ptrAddr ptr)))

/-- A request of the thread sent to the home pier on SYN. -/
def State.sendSyn (s : State) (pa : Nat) (body : Body) : State :=
  let k := s.curCore
  let t := s.thr.noteDirect s k pa
  (s.setThr t).send { net := .syn, owner := some s.cur, ctx := t.ctx, cls := 0, src := k, dst := pierPort s k (s.homeDie pa) pa,
                      body := body }

/-- The lock replies of the thread that have reached its core. -/
def State.lockAnswer (s : State) : Option Packet :=
  s.packets.find? (fun p => p.owner == some s.cur && s.ready p && match p.body with
    | .lockReply .. => true
    | _ => false)

/-- A lock request of the thread's context for a word that a save left queued (R321). -/
def State.orphan (s : State) (pa : Nat) : Option Packet :=
  s.packets.find? (fun p => p.owner == none && p.ctx == s.thr.ctx && match p.body with
    | .lockReq a _ => a == pa
    | .lockReply a _ => a == pa
    | _ => false)

/-- The acquire a granted QLOCK performs, once the thread's loads have landed. -/
def lockAcquire (s : State) (scope : Nat) : Res :=
  if s.owes s.cur Body.isLoad || s.thr.vecAccessesOut then .wait (s.setStage 5) false
  else .done (s.acquire s.curCore s.regmask scope 1) []

/-- QLOCK (R321): stage 1 waits for the grant, 5 for the acquire. A request left queued by a save is taken up again. -/
def execQlock (a : Reg) (scope : BitVec 2) : State → Out :=
  issue { word := wordSyn 4 0 a.toNat scope.toNat 0, srcs := [a], sub := 1, leaves := true } (fun s xs =>
    if s.thr.stage = 5 then lockAcquire s scope.toNat
    else if s.thr.stage = 1 then
      match s.lockAnswer with
      | some p => lockAcquire (s.dropPacket p.id) scope.toNat
      | none => .wait s false
    else
      syncWord s (arg xs 0) 2 (fun _ pa =>
        match s.orphan pa with
        | some p => .wait ((s.setPacket { p with owner := some s.cur }).setStage 1) false
        | none => .wait ((s.sendSyn pa (.lockReq pa s.thr.ctx)).setStage 1) false))

/-- The masks of R309 as one number, and the masks put back. -/
def Thread.banks (t : Thread) : Nat := t.csr.tbmask.toNat + 2 ^ 64 * t.csr.tbmaskx.toNat
def Thread.setBanks (t : Thread) (n : Nat) : Thread :=
  { t with csr := { t.csr with tbmask := wordOf (n % 2 ^ 64), tbmaskx := wordOf (n / 2 ^ 64) } }

/-- QUNLK (R322): stage 1 is its release, 4 the wait for the home's answer. Where it traps, its release is all that it leaves: the
banks its request reached are not noted (R12). -/
def execQunlk (a : Reg) (scope : BitVec 2) : State → Out :=
  issue { word := wordSyn 5 0 a.toNat scope.toNat 0, srcs := [a], sub := 1, leaves := true } (fun s xs =>
    if s.thr.stage = 4 then
      match s.lockAnswer with
      | some p =>
        match p.body with
        | .lockReply _ true => .done (s.dropPacket p.id) []
        | _ =>
          let s := s.dropPacket p.id
          .keep ((s.setThr (s.thr.setBanks s.thr.arg)).trapTurn .syncFault (arg xs 0))
      | none => .wait s false
    else
      syncWord s (arg xs 0) 2 (fun _ pa =>
        (s.relTurn s.regmask scope.toNat 1).thenDo 1 (fun s =>
          .wait (((s.sendSyn pa (.lockRel pa s.thr.ctx)).setArg s.thr.banks).setStage 4) false)))

/-- The pier slice of the package a request has reached. -/
def sliceOf (p : Packet) : Nat := p.dst / 256 * 64 + sliceOfPort p.dst

/-- The word of a lock as the home writes it (R320). -/
def lockWord (holder waits : Nat) (ab held : Bool) : Word :=
  wordOf (holder % 4096 + Nat.min waits 65535 * 2 ^ 16 + boolNat ab * 2 ^ 62 + boolNat held * 2 ^ 63)

/-- A lock of the tables replaced. -/
def State.setLock (s : State) (l : Lock) : State :=
  { s with locks := s.locks.map (fun m => if m.pa == l.pa then l else m) }

/-- LOCK_REQUEST_HOME: the home grants a free lock at once, queues the request of a held one, or refuses it where its
table is full (R320, R321). -/
def execLockRequestHome (id : Nat) (s : State) : Out :=
  match s.arrived? id with
  | some p =>
    if !s.orderClear p then .next s else
    match p.body with
    | .lockReq pa ctx =>
      match s.locks.find? (fun l => l.pa == pa) with
      | none =>
        if 128 ≤ (s.locks.filter (fun l => l.slice == sliceOf p)).length then .next (s.refuse p)
        else
          let s1 : State := { s with locks := s.locks ++ [{ pa := pa, slice := sliceOf p, holder := ctx }] }
          .next ((s1.homeStore pa 8 (lockWord ctx 0 false true).toNat).reply p .syn (.lockReply pa true))
      | some l =>
        if 1024 ≤ ((s.locks.filter (fun x => x.slice == sliceOf p)).flatMap (fun x => x.waiters)).length then
          .next (s.refuse p)
        else .next ((s.setLock { l with waiters := l.waiters ++ [(id, ctx)] }).setPacket { p with held := true })
    | _ => .next s
  | none => .next s

/-- A lock passed on: to its longest-waiting request, or freed (R322). `ab` marks a lock taken from a killed holder. -/
def State.passLock (s : State) (l : Lock) (ab : Bool) : State :=
  match l.waiters with
  | (id, ctx) :: rest =>
    let s := s.setLock { l with holder := ctx, waiters := rest }
    let s := s.homeStore l.pa 8 (lockWord ctx rest.length ab true).toNat
    match s.packet? id with
    | some p => s.reply p .syn (.lockReply l.pa true)
    | none => s
  | [] =>
    let s1 : State := { s with locks := s.locks.filter (fun m => m.pa != l.pa) }
    s1.homeStore l.pa 8 0

/-- LOCK_RELEASE_HOME: the home passes the lock on; a lock that is not held, or held by another context, answers with
the failure that makes QUNLK trap (R322). -/
def execLockReleaseHome (id : Nat) (s : State) : Out :=
  match s.arrived? id with
  | some p =>
    if !s.orderClear p then .next s else
    match p.body with
    | .lockRel pa ctx =>
      match s.locks.find? (fun l => l.pa == pa) with
      | some l =>
        if l.holder = ctx then .next ((s.passLock l false).reply p .syn (.lockReply pa true))
        else .next (s.reply p .syn (.lockReply pa false))
      | none => .next (s.reply p .syn (.lockReply pa false))
    | _ => .next s
  | none => .next s

/-! ### QWAIT (R323) -/

/-- The value a QWAIT of the thread has been answered with. -/
def State.qwaitAnswer (s : State) : Option (Nat × Word) :=
  s.packets.findSome? (fun p => match p.body with
    | .qwaitReply v => if p.owner == some s.cur && s.ready p then some (p.id, v) else none
    | _ => none)

/-- QWAIT (R323): stage 1 waits for the reply; a park in it is withdrawn at the home by a landing or a trap. -/
def execQwait (b a : Reg) (cond : BitVec 3) (d : Reg) : State → Out :=
  issue { word := wordSyn 6 b.toNat a.toNat cond.toNat d.toNat, srcs := [a, b], dsts := [d], sub := 1, leaves := true }
    (fun s xs =>
      if s.thr.stage = 1 then
        match s.qwaitAnswer with
        | some (id, v) => .done (s.dropPacket id) [v]
        | none => .wait s true
      else
        syncWord s (arg xs 0) 0 (fun _ pa =>
          .wait ((s.sendSyn pa (.qwait pa cond.toNat (arg xs 1))).setStage 1) true))

/-- QWAIT_REQUEST_HOME: a word that meets its condition answers at once; otherwise the request enters the wait table,
or is refused where that is full (R320, R323). -/
def execQwaitRequestHome (id : Nat) (s : State) : Out :=
  match s.arrived? id with
  | some p =>
    if !s.orderClear p then .next s else
    match p.body with
    | .qwait pa cond v =>
      let w := wordOf (s.mem.readLE pa 8)
      if qwaitMet cond w v then .next (s.reply p .syn (.qwaitReply w))
      else if 256 ≤ (s.qwaits.filter (fun x => x.slice == sliceOf p)).length then .next (s.refuse p)
      else
        .next { (s.setPacket { p with held := true }) with
                qwaits := s.qwaits ++ [{ pkt := id, pa := pa, slice := sliceOf p, cond := cond, v := v }] }
    | _ => .next s
  | none => .next s

/-- What a parked thread waits for at a home given up: its QWAIT request with its table entry, and its fetch of a rank's entry (R299,
R323, R392). -/
def State.withdraw (s : State) (a : Actor) : State :=
  let mine := fun (p : Packet) => p.owner == some a && match p.body with
    | .qwait .. => true
    | .qwaitReply .. => true
    | .rankAsk _ => true
    | .rankTold .. => true
    | _ => false
  let ids := (s.packets.filter mine).map Packet.id
  { s with packets := s.packets.filter (fun p => !mine p), qwaits := s.qwaits.filter (fun w => !ids.contains w.pkt) }

/-- RESEND: a refused request or packet leaves its sender again once its time has come (R288, R300, R320). -/
def execResend (id : Nat) (s : State) : Out :=
  match s.packet? id with
  | some p =>
    if p.waiting && decide (p.after ≤ s.now) then .next (s.resend p p.net p.src p.dst p.body) else .next s
  | none => .next s

/-! ### Barriers (R324) -/

/-- The threads of a barrier group of a launch record: CREW, GANG or SPAN (R324). -/
def barSize (r : LaunchRec) (level : Nat) : Nat :=
  match level with
  | 0 => r.threads
  | 1 => r.threads * r.cores
  | _ => r.threads * r.cores * r.clusters

/-- The launch of the thread whose turn it is, with its partition. -/
def State.myLaunch (s : State) : Option (Nat × Launch) :=
  match s.partOfCore s.curCore with
  | some p => (s.launch? p s.thr.lid.toNat).map (fun l => (p, l))
  | none => none

/-- The number of the instance of a thread index. -/
def instOf (r : LaunchRec) (tidx : Nat) : Nat := tidx / (r.threads * r.cores * r.clusters)

/-- The record of a barrier group of an instance: its generation and who has arrived at it. -/
def Inst.bar (n : Inst) (level gid : Nat) : Nat × List Nat :=
  match n.bars.find? (fun b => b.1 == level && b.2.1 == gid) with
  | some b => (b.2.2.1, b.2.2.2)
  | none => (0, [])

/-- An instance with the record of a barrier group replaced. -/
def Inst.setBar (n : Inst) (level gid gen : Nat) (here : List Nat) : Inst :=
  { n with bars := (level, gid, gen, here) :: n.bars.filter (fun b => !(b.1 == level && b.2.1 == gid)) }

/-- Whether every member of a group has arrived at its generation, or has left for good (R324). -/
def Inst.barFull (n : Inst) (r : LaunchRec) (level gid : Nat) : Bool :=
  let size := barSize r level
  (List.range size).all (fun j => (n.bar level gid).2.contains (gid * size + j) || n.gone.contains (gid * size + j))

/-- A change to the instance of the thread whose turn it is. -/
def State.onInst (s : State) (f : LaunchRec → Inst → Inst) : State :=
  match s.myLaunch with
  | some (p, l) =>
    s.setLaunch p { l with insts := l.insts.map (fun n =>
      if n.num = instOf l.lrec s.thr.tidx.toNat then f l.lrec n else n) }
  | none => s

/-- The instance of the thread whose turn it is. -/
def State.myInst (s : State) : Option (LaunchRec × Inst) :=
  match s.myLaunch with
  | some (_, l) => (l.insts.find? (fun n => n.num == instOf l.lrec s.thr.tidx.toNat)).map (fun n => (l.lrec, n))
  | none => none

/-- The acquire at the departure of a barrier. -/
def barLeave (s : State) (mask : Word) (scope : Nat) : Res :=
  if s.owes s.cur Body.isLoad || s.thr.vecAccessesOut then .wait (s.setStage 5) false
  else .done (s.acquire s.curCore mask scope 7) []

/-- The wait of a barrier: it is over once the generation joined is complete (R324). -/
def barWait (s : State) (mask : Word) (level scope gen : Nat) : Res :=
  let leave := fun (s : State) => barLeave (s.setThr { s.thr with barWait := none }) mask scope
  match s.myInst with
  | none => leave s
  | some (r, n) =>
    let gid := s.thr.tidx.toNat / barSize r level
    if gen < (n.bar level gid).1 then leave s
    else if n.barFull r level gid then leave (s.onInst (fun _ n => n.setBar level gid (gen + 1) []))
    else .wait (s.setStage 2) false

/-- The arrival at a barrier: the thread joins its group's current generation. A thread of no launch is alone in its
group. -/
def barArrive (s : State) (mask : Word) (level scope : Nat) : Res :=
  match s.myInst with
  | none => barLeave s mask scope
  | some (r, n) =>
    let gid := s.thr.tidx.toNat / barSize r level
    let (gen, here) := n.bar level gid
    let s := s.onInst (fun _ n => n.setBar level gid gen (s.thr.tidx.toNat :: here))
    barWait (s.setThr { s.thr with barWait := some (level, gen) }) mask level scope gen

/-- BAR (R324): stage 1 is its release, 2 the wait for the generation, 5 the load wait of its acquire. A restored
thread that has arrived waits for the generation it joined. -/
def execBar (a : Reg) (level : BitVec 3) : State → Out :=
  issue { word := wordSyn 7 0 a.toNat level.toNat 0, srcs := [a], sub := 1, leaves := true } (fun s xs =>
    let scope := if level.toNat = 2 then 1 else 0
    let mask := arg xs 0
    if s.thr.stage = 5 then barLeave s mask scope
    else
      match s.thr.barWait with
      | some (_, gen) => barWait s mask level.toNat scope gen
      | none =>
        if level.toNat = 2 && (s.myLaunch.elim false (fun x => x.2.lrec.shape % 2 == 0)) then .trap .syncFault 2
        else (s.relTurn mask scope 7).thenDo 1 (fun s => barArrive s mask level.toNat scope))

/-! ### Register hand-offs (R325, R327, R328) -/

/-- TAKE (R325): the source is emptied unless it is g0 or mapped; rd is written afterwards. DESIGN CHOICE (assumption 76): TAKE g0, ga
empties ga, as R325's steps have it; R66 says of an instruction whose destination is g0 that it empties nothing. -/
def execTake (a d : Reg) : State → Out :=
  issue { word := wordSyn 8 0 a.toNat 0 d.toNat, srcs := [a], dsts := [d], sub := 1, leaves := true } (fun s xs =>
    let s := if a = 0 ∨ (s.thr.mapped a).isSome then s else s.setThr (s.thr.makeEmpty a)
    .done s [arg xs 0])

/-- EMPTY (R327): a mapped register raises ILLEGAL_INSTRUCTION; a pending one parks the instruction. -/
def execEmpty (d : Reg) (s : State) : Out :=
  let word := wordSyn 10 0 0 0 d.toNat
  issue { word := word, dsts := [d], sub := 1, leaves := true,
          pre := if (s.thr.mapped d).isSome then some (.illegalInstruction, wordOf word) else none }
    (fun s _ => .done (s.setThr (s.thr.makeEmpty d)) []) s

/-- WAITT (R328): parked until TB reaches the target. -/
def execWaitt (a : Reg) : State → Out :=
  issue { word := wordSyn 11 0 a.toNat 0 0, srcs := [a], sub := 1, leaves := true } (fun s xs =>
    if s.tb.ult (arg xs 0) then .park else .done s [])

end Sys2Proof.Machine
end

