-- ==== Sys2Proof/Machine/Messages.lean ====
section
/-! DEFINITION. Messages: SEND, SENDQ, RECV, RPOLL, MCLASS, RANK, RKSET and FILL, the way of a message to its rank
(R285 to R296), and the home's part in a migration (R301). -/

namespace Sys2Proof.Machine

/-! ### Leaving a core (R285, R289) -/

/-- The network between two cores: a packet for its own core loops back (R273). -/
def msgNet (k k' : Nat) : Net := if k = k' then .local else .msg

/-- The packet of a send-buffer entry as its core's interface sends it: directly where a pinned entry is cached,
otherwise to the home of its rank; none where the rank has no home (R285). -/
def State.entryPacket (s : State) (k : Nat) (e : SendEntry) (throughHome : Bool) : Option Packet :=
  let base := fun (dst : Nat) (b : Body) =>
    ({ net := msgNet k dst, owner := some (.slot k e.slot), ctx := e.ctx, cls := 2, src := k, dst := dst, body := b } : Packet)
  match s.rankHome e.ctx e.rank with
  | none => none
  | some (pkg, h) =>
    if pkg ≠ s.pkg then some { base h (.toHome k e) with held := true, dpkg := pkg }
    else if throughHome then some (base h (.toHome k e))
    else
      match Tab.find? (s.core k).rankCache (homeKey e.ctx e.rank) with
      | some w => some (base (coordCore w) (.msg k e (coordSlot w) false))
      | none => some (base h (.rankFetch k e))

/-- A MESSAGE_NACK made pending for a thread (R291). -/
def State.nack (s : State) (k : Nat) (e : SendEntry) (kind : Nat) : State :=
  let a := Actor.slot k e.slot
  let t := s.thrOf a
  if s.slotBound k e.slot then
    s.setThrOf a { t with async := t.async ++ [{ cause := .messageNack, tval := nackWord e.rank e.cls kind }] }
  else s

/-- A message of a send-buffer entry put on its way; a rank without a home is NACKed (R285, R291). Answers whether it
left. -/
def State.tryDepart (s : State) (k : Nat) (e : SendEntry) : State × Bool :=
  match s.entryPacket k e false with
  | some p =>
    let c := s.core k
    let s := s.setCore k { c with sendbuf := c.sendbuf.map (fun x => if x.id == e.id then { x with sent := true } else x) }
    (s.send p, true)
  | none =>
    let c := s.core k
    ((s.setCore k { c with sendbuf := c.sendbuf.filter (fun x => x.id != e.id) }).nack k e 1, false)

/-- The next waiting message of a thread to a rank leaves, once none of it is unanswered; `fuel` bounds the messages
that are NACKed on the spot (R289). -/
def State.departNext (s : State) (k slot rank : Nat) : Nat → State
  | 0 => s
  | fuel + 1 =>
    let mine := (s.core k).sendbuf.filter (fun e => e.slot == slot && e.rank == rank)
    if mine.any (fun e => e.sent) then s
    else
      match mine with
      | e :: _ =>
        let (s', left) := s.tryDepart k e
        if left then s' else State.departNext s' k slot rank fuel
      | [] => s

/-- A send-buffer entry freed, and the next message of its thread to its rank let go (R289). -/
def State.freeEntry (s : State) (k id : Nat) : State :=
  let c := s.core k
  match c.sendbuf.find? (fun e => e.id == id) with
  | some e =>
    (s.setCore k { c with sendbuf := c.sendbuf.filter (fun x => x.id != id) }).departNext k e.slot e.rank 9
  | none => s

/-- Whether a core's send buffer of eight entries has room (R289). -/
def State.sendRoom (s : State) : Bool := decide ((s.core s.curCore).sendbuf.length < 8)

/-- A send-buffer entry taken by the thread whose turn it is, and its message sent if nothing of it to that rank is
unanswered. -/
def State.enter (s : State) (rank cls : Nat) (words : List Word) (fill : Option Reg) (sq : Option (Word × Nat × Nat))
    (src : Word := 0) : State :=
  let k := s.curCore
  let c := s.core k
  let e : SendEntry := { id := s.nextId, slot := s.cur.slotNum, ctx := s.thr.ctx, sender := bits s.thr.csr.rank 19 0,
                         rank := rank, cls := cls, words := words, fillReg := fill, sendq := sq, src := src }
  let s := { (s.setCore k { c with sendbuf := c.sendbuf ++ [e] }) with nextId := s.nextId + 1 }
  s.departNext k e.slot rank 9

/-! ### The sending instructions -/

/-- The registers of a run of `n` from `r`. -/
def regRun (r : Reg) (n : Nat) : List Reg := (List.range n).map (fun i => r + BitVec.ofNat 5 i)

/-- SEND (R290): classes 0 and 15 need system privilege. -/
def execSend (b a : Reg) (n : BitVec 3) (cls : BitVec 4) : State → Out :=
  issue { word := wordK 19 0 n.toNat b.toNat a.toNat cls.toNat, srcs := a :: regRun b (n.toNat + 1), sub := 1,
          leaves := true, priv := if cls = 0 ∨ cls = 15 then 2 else 0 } (fun s xs =>
    if !s.sendRoom then .hold
    else .done (s.enter (bits (arg xs 0) 19 0) cls.toNat xs.tail none none) [])

/-- FILL (R326): a fill takes a send-buffer entry and its place in the per-rank order. -/
def execFill (b a d : Reg) : State → Out :=
  issue { word := wordSyn 9 b.toNat a.toNat 0 d.toNat, srcs := [a, b], sub := 1, leaves := true } (fun s xs =>
    if !s.sendRoom then .hold
    else .done (s.enter (bits (arg xs 0) 19 0) 0 [arg xs 1] (some d) none) [])

/-- The accepted SENDQ of the thread whose turn it is: its send-buffer entry, the answer's packet, and the slot and context that
accepted (R294, R295). -/
def State.sendqAnswer (s : State) : Option (SendEntry × Packet × Nat × Nat) :=
  (s.core s.curCore).sendbuf.findSome? (fun e =>
    if e.slot == s.cur.slotNum && e.sendq.isSome && e.sent then
      s.packets.findSome? (fun p => match p.body with
        | .sendqReply id _ 0 _ slot ctx => if id == e.id && p.held then some (e, p, slot, ctx) else none
        | _ => none)
    else none)

/-- The payload of a SENDQ in packets of at most nine flits, in ascending order (R274, R295). -/
def State.sendPayload (s : State) (e : SendEntry) (to_ slot ctx : Nat) (bytes : List Byte) : State :=
  let k := s.curCore
  let n := (bytes.length + 287) / 288
  (List.range n).foldl (fun s i =>
    s.send { net := msgNet k to_, owner := some s.cur, ctx := e.ctx, cls := 2, src := k, dst := to_,
             body := .sendqData k e slot ctx ((bytes.drop (288 * i)).take 288) (288 * i, i + 1 == n) }) s

/-- The checks of a SENDQ's descriptor: R101 on both pointers, then R294's. -/
def State.sendqCheck (s : State) (desc : List Byte) (ptr : Word) : Option (Cause × Word) :=
  let src := wordOf (recField desc 0 8)
  let dst := wordOf (recField desc 8 8)
  let len := recField desc 16 2
  match s.checkPtr false src, s.checkPtr true dst with
  | some c, _ => some (c, src)
  | none, some c => some (c, dst)
  | none, none =>
    if len = 0 ∨ 4096 < len ∨ ptrPath dst ≠ 0 ∨ 2 < ptrPath src ∨ recField desc 20 12 ≠ 0 then some (.formatFault, ptr) else none

/-- SENDQ (R294): the descriptor is read once, at the start; stage 3 waits for the target's answer, a landing point; then the payload is
read and sent. A rejection traps at the instruction when it lands. -/
def execSendq (b a : Reg) (cls : BitVec 4) : State → Out :=
  issue { word := wordK 19 1 0 b.toNat a.toNat cls.toNat, srcs := [a, b], sub := 1, leaves := true,
          priv := if cls = 0 ∨ cls = 15 then 2 else 0 } (fun s xs =>
    let k := s.curCore
    let i := s.cur.slotNum
    let ptr := arg xs 1
    if s.thr.stage = 3 then
      match s.sendqAnswer with
      | none => .wait s false
      | some (e, p, slot, ctx) =>
        let len := (e.sendq.getD (0, 0, 0)).2.1
        match s.threadRead k i e.src len with
        | .error f => parkFault f 0
        | .ok bytes => .done ((((s.noteSpan k i e.src len).dropPacket p.id).sendPayload e p.src slot ctx bytes)) []
    else
      match s.checkPtr false ptr with
      | some c => .trap c ptr
      | none =>
        if 2 < ptrPath ptr then .trap .pointerFault ptr
        else
          match s.threadRead k i ptr 32 with
          | .error f => parkFault f 0
          | .ok desc =>
            match s.sendqCheck desc ptr with
            | some (c, v) => .trap c v
            | none =>
              if !s.sendRoom then .hold
              else
                .wait (((s.noteSpan k i ptr 32).enter (bits (arg xs 0) 19 0) cls.toNat [] none
                  (some (wordOf (recField desc 8 8), recField desc 16 2, recField desc 18 2)) (wordOf (recField desc 0 8))).setStage 3)
                  false)

/-! ### Receiving (R286, R287, R292) -/

/-- The slot a class of a core is bound to: classes 0 and 15 to slot 0 (R286). -/
def Core.boundTo (c : Core) (cls : Nat) : Option Nat := if cls = 0 ∨ cls = 15 then some 0 else Tab.find? c.bind cls

/-- The messages queued in a class. -/
def Core.classQ (c : Core) (cls : Nat) : List Msg := Tab.get [] c.classq cls

/-- A core with a class queue replaced. -/
def Core.setClassQ (c : Core) (cls : Nat) (q : List Msg) : Core := { c with classq := Tab.set c.classq cls q }

/-- An exit notice as a message (R353). -/
def noticeMsg (w : Word) : Msg := { words := [w] }

/-- The head of what RECV of a class takes at F-cycle `now`, and the core without it: notices of class 0 come first (R353); a message
is seen from the F-cycle after its arrival (R62, R293). -/
def Core.takeMsg (c : Core) (cls now : Nat) : Option (Msg × Core) :=
  match decide (cls = 0), c.notices with
  | true, w :: rest => some (noticeMsg w, { c with notices := rest })
  | _, _ =>
    match c.classQ cls with
    | m :: rest => if m.came < now then some (m, c.setClassQ cls rest) else none
    | [] => none

/-- RECV (R292): parked until the class queue holds a message; words beyond n are discarded. -/
def execRecv (cls : BitVec 4) (n : BitVec 3) (d : Reg) : State → Out :=
  issue { word := wordK 19 2 n.toNat cls.toNat 0 d.toNat, dsts := regRun d (n.toNat + 1), sub := 1, leaves := true }
    (fun s _ =>
      let c := s.core s.curCore
      if c.boundTo cls.toNat ≠ some s.cur.slotNum then
        .trap .privilege (wordOf (wordK 19 2 n.toNat cls.toNat 0 d.toNat))
      else
        match c.takeMsg cls.toNat s.now with
        | none => .park
        | some (m, c) =>
          .done (s.setCore s.curCore c) ((List.range (n.toNat + 1)).map (fun i => m.words.getD i 0)))

/-- RPOLL (R292): it removes nothing. -/
def execRpoll (cls : BitVec 4) (d : Reg) : State → Out :=
  issue { word := wordK 19 3 0 cls.toNat 0 d.toNat, dsts := [d], sub := 1, leaves := true } (fun s _ =>
    let c := s.core s.curCore
    if c.boundTo cls.toNat ≠ some s.cur.slotNum then .trap .privilege (wordOf (wordK 19 3 0 cls.toNat 0 d.toNat))
    else
      match c.takeMsg cls.toNat s.now with
      | none => .done s [0]
      | some (m, _) =>
        let count := ((c.classQ cls.toNat).filter (fun m => decide (m.came < s.now))).length + (if cls = 0 then c.notices.length else 0)
        .done s [wordOf (2 ^ 63 + count * 2 ^ 32 + boolNat m.q * 2 ^ 24 + (m.words.length - 1) * 2 ^ 20 + m.sender)])

/-- A write to core-shared state, seen from the fourth F-cycle on (R73). -/
def State.pendWrite (s : State) (k : Nat) (w : Pend) : State :=
  s.setCore k { s.core k with pend := (s.core k).pend ++ [(s.now + 4, w)] }

/-- MCLASS (R287). -/
def execMclass (cls : BitVec 4) (a : Reg) : State → Out :=
  let word := wordK 19 4 0 cls.toNat a.toNat 0
  issue { word := word, srcs := [a], sub := 1, leaves := true } (fun s xs =>
    let c := s.core s.curCore
    let me := s.cur.slotNum
    let slot := if bitOf (arg xs 0) 5 then me else bits (arg xs 0) 3 0
    let user := me != 0
    let cur := c.boundTo cls.toNat
    let other := cur.elim false (fun x => x != me)
    if cls = 0 ∨ cls = 15 then .trap .privilege (wordOf word)
    else if bitOf (arg xs 0) 4 then
      if user && other then .trap .privilege (wordOf word)
      else .done (s.pendWrite s.curCore (.bind cls.toNat slot false)) []
    else if user && (slot != me || other) then .trap .privilege (wordOf word)
    else if cur = some slot then .done s []
    else .done (s.pendWrite s.curCore (.bind cls.toNat slot true)) [])

/-! ### Ranks (R302) -/

/-- RANK (R302). -/
def execRank (d : Reg) : State → Out :=
  issue { word := wordK 19 6 0 0 0 d.toNat, dsts := [d], sub := 1, leaves := true } (fun s _ =>
    .done s [if bitOf s.thr.csr.rank 21 then wordOf (bits s.thr.csr.rank 19 0) else -1])

/-- The write of a rank's authoritative entry sent to its home, if it has one; the write to another package's core stays
under way (the scope of NOTES.md). -/
def State.sendEntryWrite (s : State) (ctx rank : Nat) (w : Word) : State :=
  match s.rankHome ctx rank with
  | some (pkg, h) =>
    s.send { net := msgNet s.curCore h, owner := some s.cur, ctx := ctx, cls := 2, src := s.curCore, dst := h,
             held := pkg != s.pkg, dpkg := pkg, body := .entryWrite rank w }
  | none => s

/-- Whether an entry write of the thread is not done yet. -/
def State.owesEntry (s : State) : Bool :=
  s.owes s.cur (fun b => match b with
    | .entryWrite .. => true
    | _ => false)

/-- RKSET (R302): stage 1 waits until the home has written the entry. -/
def execRkset (b a : Reg) : State → Out :=
  issue { word := wordK 19 7 0 b.toNat a.toNat 0, srcs := [a, b], sub := 1, leaves := true, priv := 1 } (fun s xs =>
    let rank := bits (arg xs 0) 19 0
    let w := arg xs 1
    if s.thr.stage = 1 then (if s.owesEntry then .wait s false else .done s [])
    else if bits w 63 24 ≠ 0 ∨ (bitOf w 23 = true ∧ (191 < coordPkg w ∨ coordSlot w = 0)) then .trap .formatFault w
    else if (s.rankHome s.thr.ctx rank).isNone then .trap .messageNack (nackWord rank 0 1)
    else .wait ((s.sendEntryWrite s.thr.ctx rank w).setStage 1) false)

/-! ### At the home (R283, R285, R301) -/

/-- A packet bound for a rank sent on by its home to a coordinate word (R285). -/
def State.forward (s : State) (p : Packet) (k : Nat) (e : SendEntry) (w : Word) : State :=
  s.resend p (msgNet p.dst (coordCore w)) p.dst (coordCore w) (.msg k e (coordSlot w) true)

/-- A packet answered to the core its message came from. -/
def State.answer (s : State) (p : Packet) (k : Nat) (body : Body) : State := s.resend p (msgNet p.dst k) p.dst k body

/-- The answer that a rank names no thread: a NACK of KIND 1, or for a SENDQ request a rejection of KIND 1 (R285,
R291, R295). -/
def State.nobody (s : State) (p : Packet) (k : Nat) (e : SendEntry) : State :=
  match e.sendq with
  | some _ => s.answer p k (.sendqReply e.id k 1 (wordOf (e.rank + 2 ^ 56)) 0 0)
  | none => s.answer p k (.msgRefuse e k 1)

/-- A message at the home of its rank: held in transit, refused where 16 are held, NACKed where the entry is invalid,
or forwarded (R285, R288, R301). -/
def State.atHome (s : State) (p : Packet) (k : Nat) (e : SendEntry) : State :=
  let h := s.homeEntry p.dst p.ctx e.rank
  if h.transit then
    if 16 ≤ h.held.length then s.answer p k (.msgRefuse e k 3)
    else (s.setHomeEntry p.dst p.ctx e.rank { h with held := h.held ++ [p.id] }).setPacket { p with held := true }
  else if !coordV h.word then s.nobody p k e
  else if coordPkg h.word ≠ s.pkg then s.setPacket { p with held := true }
  else s.forward p k e h.word

/-- HOME_FORWARD: the home forwards a packet to the rank's coordinates, in the order received (R285). -/
def execHomeForward (id : Nat) (s : State) : Out :=
  match s.arrived? id with
  | some p =>
    match p.body with
    | .toHome k e => .next (s.atHome p k e)
    | _ => .next s
  | none => .next s

/-- RANK_ENTRY_FETCH: the sender's interface learns the entry: a pinned one is cached and the message goes directly; a
migratory rank's message stays with the home, which forwards it; a thread that fetches an entry is told it (R285, R299). -/
def execRankEntryFetch (id : Nat) (s : State) : Out :=
  match s.arrived? id with
  | some p =>
    match p.body with
    | .rankFetch k e =>
      let h := s.homeEntry p.dst p.ctx e.rank
      if coordV h.word && coordPin h.word && !h.transit && coordPkg h.word == s.pkg then
        let c := s.core k
        let s1 := s.setCore k { c with rankCache := Tab.set c.rankCache (homeKey p.ctx e.rank) h.word }
        .next (s1.resend p (msgNet k (coordCore h.word)) k (coordCore h.word) (.msg k e (coordSlot h.word) false))
      else .next (s.atHome p k e)
    | .rankAsk rank =>
      let h := s.homeEntry p.dst p.ctx rank
      .next (s.answer p p.src (.rankTold rank h.word h.transit))
    | _ => .next s
  | none => .next s

/-- A rank's entry written at its home; a word with V = 0 deletes it (R283, R302). -/
def State.writeEntry (s : State) (home ctx rank : Nat) (w : Word) : State :=
  let c := s.core home
  if coordV w then s.setHomeEntry home ctx rank { s.homeEntry home ctx rank with word := w }
  else s.setCore home { c with homes := Tab.erase c.homes (homeKey ctx rank) }

/-- A packet that a home kept through a transit, sent on or done (R301, R302). -/
def State.releaseKept (s : State) (home ctx : Nat) (w : Word) (id : Nat) : State :=
  match s.packet? id with
  | some p =>
    match p.body with
    | .toHome k e => s.forward { p with dst := home } k e w
    | .rankFetch k e => s.forward { p with dst := home } k e w
    | .msgReturn k e _ => s.forward { p with dst := home } k e w
    | .migrant m r _ => s.passMigrant { p with dst := home } m r (coordCore w) 1
    | .entryWrite r v => (s.dropPacket id).writeEntry home ctx r v
    | _ => s
  | none => s

/-- The end of a migration at the home: the new coordinates are written, then the returned packets go in their order
of return and the held ones in their order of arrival; RKSETs that waited are done after it (R301). -/
def State.finishTransit (s : State) (home ctx rank : Nat) : State :=
  let h := s.homeEntry home ctx rank
  match h.arrived with
  | some w =>
    if h.transit && h.tokens == 0 then
      (h.returned ++ h.held ++ h.writes).foldl (fun s id => s.releaseKept home ctx w id) (s.setHomeEntry home ctx rank { word := w })
    else s
  | none => s

/-- HOME_DEPART: the entry is in transit, and a drain token follows the earlier forwards to the source (R301). A thread that departs
again from where the transit under way has brought it prolongs that transit. -/
def execHomeDepart (id : Nat) (s : State) : Out :=
  match s.arrived? id with
  | some p =>
    match p.body with
    | .depart rank k =>
      let h := s.homeEntry p.dst p.ctx rank
      let s1 := s.setHomeEntry p.dst p.ctx rank
        { h with transit := true, tokens := h.tokens + 1, arrived := h.arrived.filter (fun w => coordCore w != k) }
      .next (s1.answer p k (.token rank p.dst))
    | _ => .next s
  | none => .next s

/-- DRAIN_TOKEN_AT_SOURCE: the source returns the token, behind the packets it has returned (R301). -/
def execDrainTokenAtSource (id : Nat) (s : State) : Out :=
  match s.arrived? id with
  | some p =>
    match p.body with
    | .token rank home => .next (s.answer p home (.tokenBack rank))
    | _ => .next s
  | none => .next s

/-- HOME_ARRIVE: ARRIVE brings the new coordinates; it may overtake the DEPART of the core the thread has left (R301). -/
def execHomeArrive (id : Nat) (s : State) : Out :=
  match s.arrived? id with
  | some p =>
    match p.body with
    | .arrive rank w =>
      let h := s.homeEntry p.dst p.ctx rank
      .next (((s.dropPacket id).setHomeEntry p.dst p.ctx rank { h with arrived := some w }).finishTransit p.dst p.ctx rank)
    | _ => .next s
  | none => .next s

/-- PACKET_RETURN: a packet its target did not know: at the home it is kept during a transit, sent on, or NACKed where
the entry has not moved; at its sender the cached entry is dropped and it goes through the home; and the drain token
returns (R285, R301). -/
def execPacketReturn (id : Nat) (s : State) : Out :=
  match s.arrived? id with
  | some p =>
    match p.body with
    | .tokenBack rank =>
      let h := s.homeEntry p.dst p.ctx rank
      .next (((s.dropPacket id).setHomeEntry p.dst p.ctx rank { h with tokens := h.tokens - 1 }).finishTransit p.dst p.ctx rank)
    | .msgReturn k e (some slot) =>
      let h := s.homeEntry p.dst p.ctx e.rank
      if h.transit then
        .next ((s.setHomeEntry p.dst p.ctx e.rank { h with returned := h.returned ++ [id] }).setPacket { p with held := true })
      else if !coordV h.word || (coordCore h.word == p.src && coordSlot h.word == slot) then .next (s.nobody p k e)
      else .next (s.forward p k e h.word)
    | .msgReturn k e none =>
      let c := s.core k
      let s1 := s.setCore k { c with rankCache := Tab.erase c.rankCache (homeKey e.ctx e.rank) }
      match s1.entryPacket k e true with
      | some q => .next (s1.resend p q.net q.src q.dst q.body)
      | none => .next (s1.nobody p k e)
    | _ => .next s
  | none => .next s

/-- HOME_ENTRY_WRITE: the home writes a rank's entry; it keeps the write of one in transit until the transit is over (R283, R301,
R302). -/
def execHomeEntryWrite (id : Nat) (s : State) : Out :=
  match s.arrived? id with
  | some p =>
    match p.body with
    | .entryWrite rank w =>
      let h := s.homeEntry p.dst p.ctx rank
      if h.transit then
        .next ((s.setHomeEntry p.dst p.ctx rank { h with writes := h.writes ++ [id] }).setPacket { p with held := true })
      else .next ((s.writeEntry p.dst p.ctx rank w).dropPacket id)
    | _ => .next s
  | none => .next s

/-! ### At the target (R285, R288, R295, R296) -/

/-- A packet its target core does not know returned: to the home that forwarded it, or to its sender (R285). -/
def State.sendBack (s : State) (p : Packet) (k : Nat) (e : SendEntry) (slot : Nat) (viaHome : Bool) : State :=
  s.answer p (if viaHome then p.src else k) (.msgReturn k e (if viaHome then some slot else none))

/-- Why a core refuses a message of a class for a slot, if it does: KIND 2 or 3 (R288, R291). -/
def Core.refuses (c : Core) (cls slot : Nat) : Option Nat :=
  if c.boundTo cls ≠ some slot then some 2
  else if 4 ≤ (c.classQ cls).length + Tab.get 0 c.resv cls then some 3
  else none

/-- MESSAGE_ARRIVAL: the message is returned, refused, or enqueued and acknowledged (R285, R286, R288). A start record that
finds its queue full is sent again (R353). -/
def execMessageArrival (id : Nat) (s : State) : Out :=
  match s.arrived? id with
  | some p =>
    match p.body with
    | .hubMsg cls words =>
      let c := s.core p.dst
      if 4 ≤ (c.classQ cls).length + Tab.get 0 c.resv cls then .next (s.refuse p)
      else .next ((s.setCore p.dst (c.setClassQ cls (c.classQ cls ++ [{ words := words, came := s.now }]))).dropPacket id)
    | .msg k e slot viaHome =>
      if e.fillReg.isSome || e.sendq.isSome then .next s
      else if !s.slotHasRank p.dst slot p.ctx e.rank then .next (s.sendBack p k e slot viaHome)
      else
        let c := s.core p.dst
        match c.refuses e.cls slot with
        | some kind => .next (s.answer p k (.msgRefuse e k kind))
        | none =>
          let m : Msg := { sender := e.sender, words := e.words, came := s.now }
          .next ((s.setCore p.dst (c.setClassQ e.cls (c.classQ e.cls ++ [m]))).answer p k (.msgAck e.id k))
    | _ => .next s
  | none => .next s

/-- MESSAGE_ACK: the send-buffer entry comes free, and the next message of the thread to that rank leaves (R289). -/
def execMessageAck (id : Nat) (s : State) : Out :=
  match s.arrived? id with
  | some p =>
    match p.body with
    | .msgAck entry k => .next ((s.dropPacket id).freeEntry k entry)
    | _ => .next s
  | none => .next s

/-- MESSAGE_REFUSAL: the message waits to be sent again, and after the eighth refusal it is dropped with a
MESSAGE_NACK; a SENDQ request is then rejected, and a fill is sent again without limit (R288, R291, R295, R296). -/
def execMessageRefusal (id : Nat) (s : State) : Out :=
  match s.arrived? id with
  | some p =>
    match p.body with
    | .msgRefuse e k kind =>
      let last := decide (7 ≤ p.tries) && e.fillReg.isNone
      if kind = 1 then .next (((s.dropPacket id).freeEntry k e.id).nack k e 1)
      else if last && e.sendq.isSome then
        .next (s.setPacket { p with body := .sendqReply e.id k kind (wordOf (e.rank + kind * 2 ^ 56)) 0 0 })
      else if last then .next (((s.dropPacket id).freeEntry k e.id).nack k e kind)
      else
        match s.entryPacket k e false with
        | some q => .next (s.refuse { q with id := id, tries := p.tries, spkg := p.spkg, dpkg := p.dpkg })
        | none => .next (((s.dropPacket id).freeEntry k e.id).nack k e 1)
    | _ => .next s
  | none => .next s

/-- SENDQ_REQUEST: the target checks the class and the pages, and accepts with a queue entry reserved, or rejects
(R295). -/
def execSendqRequest (id : Nat) (s : State) : Out :=
  match s.arrived? id with
  | some p =>
    match p.body with
    | .msg k e slot viaHome =>
      match e.sendq with
      | none => .next s
      | some (dst, len, _) =>
        if !s.slotHasRank p.dst slot p.ctx e.rank then .next (s.sendBack p k e slot viaHome)
        else
          let c := s.core p.dst
          match c.refuses e.cls slot with
          | some kind => .next (s.answer p k (.msgRefuse e k kind))
          | none =>
            let tctx := (s.thrOf (.slot p.dst slot)).ctx
            match s.rangeFault tctx (ptrAddr dst) len 1 with
            | some (a, kd, _, _) =>
              let kind := match kd with | 1 => 4 | 2 => 5 | 3 => 6 | _ => 7
              let second := decide (a ≠ ptrAddr dst)
              .next (s.answer p k (.sendqReply e.id k kind
                (wordOf (a % 2 ^ 53 + kind * 2 ^ 56 + boolNat second * 2 ^ 60)) 0 0))
            | none =>
              let c := { c with resv := Tab.set c.resv e.cls (Tab.get 0 c.resv e.cls + 1) }
              .next ((s.setCore p.dst c).answer p k (.sendqReply e.id k 0 0 slot tctx))
    | _ => .next s
  | none => .next s

/-- A SENDQ whose thread has been killed, or has landed in its wait and begins it again, given up at its answer: its entry comes free,
and an acceptance frees what the target has reserved for it (R294, R295, R407). -/
def State.cancelSendq (s : State) (p : Packet) : State :=
  match p.body with
  | .sendqReply entry k kind _ _ _ =>
    match (s.core k).sendbuf.find? (fun e => e.id == entry) with
    | none => s.dropPacket p.id
    | some e =>
      let s := if kind = 0 then
          s.setCore p.src { s.core p.src with resv := Tab.set (s.core p.src).resv e.cls (Tab.get 0 (s.core p.src).resv e.cls - 1) }
        else s
      (s.dropPacket p.id).freeEntry k entry
  | _ => s

/-- The accepted SENDQ of a slot, if it has one, given up. -/
def State.cancelAccepted (s : State) (k i : Nat) : State :=
  (s.packets.filter (fun p => p.held && match p.body with
    | .sendqReply id j _ _ _ _ => j == k && (s.core k).sendbuf.any (fun e => e.id == id && e.slot == i)
    | _ => false)).foldl State.cancelSendq s

/-- SENDQ_REPLY: an accepted request lets SENDQ go on; a rejection traps it (R294, R295). -/
def execSendqReply (id : Nat) (s : State) : Out :=
  match s.arrived? id with
  | some p =>
    match p.body with
    | .sendqReply entry k kind tval _ _ =>
      let slot := ((s.core k).sendbuf.find? (fun e => e.id == entry)).elim 0 (fun e => e.slot)
      let a := Actor.slot k slot
      if !(s.slotBound k slot && (s.thrOf a).run == .issuing) then .next (s.cancelSendq p)
      else if kind = 0 then .next (s.setPacket { p with held := true })
      else
        let s1 := (s.dropPacket id).freeEntry k entry
        let t := s1.thrOf a
        .next ((s1.setThrOf a { t with stage := 0, vals := [], arg := 0 }).takeTrap a .sendqReject tval t.pc false)
    | _ => .next s
  | none => .next s

/-- SENDQ_DELIVERY: payload bytes are written at the home piers, in ascending order, with the registration of a package-scope
release, for the context whose pages were checked; only with the last of them is the descriptor enqueued and the sender acknowledged
(R295). -/
def execSendqDelivery (id : Nat) (s : State) : Out :=
  match s.arrived? id with
  | some p =>
    match p.body with
    | .sendqData k e slot ctx bytes (off, last) =>
      match e.sendq with
      | none => .next s
      | some (dst, len, tag) =>
        let s1 := s.genWrite ctx (ptrAddr dst + off) bytes
        if !last then .next (s1.dropPacket id)
        else
          let c := s1.core p.dst
          let c := { c with resv := Tab.set c.resv e.cls (Tab.get 0 c.resv e.cls - 1) }
          let m : Msg := { sender := e.sender, q := true, words := [dst, wordOf (len + tag * 2 ^ 32), wordOf e.sender, 0], came := s.now }
          let c := if c.boundTo e.cls = some slot then c.setClassQ e.cls (c.classQ e.cls ++ [m]) else c
          .next ((s1.setCore p.dst c).answer p k (.msgAck e.id k))
    | _ => .next s
  | none => .next s

/-- Whether a slot holds the owner of a copy's completion fill: the crew, or the thread of a steward's copy (R265). -/
def State.fillOwner (s : State) (k : Nat) (f : FillWait) : Bool :=
  s.slotBound k f.slot && (match f.uid, f.crew with
    | some u, _ => (s.thrOf (.slot k f.slot)).uid == u
    | none, some cr => s.crewIdx k f.slot == cr && cr != 0
    | none, none => false)

/-- A fill written to a register of a slot, if it can be now: an empty register is written and set full, a mapped one
pushes (R296). -/
def State.fillReg (s : State) (k : Nat) (f : FillWait) : Option State :=
  let a := Actor.slot k f.slot
  let t := s.thrOf a
  let c := s.core k
  match t.mapped f.reg with
  | some i =>
    if 0 < (c.queue i).free s.now then
      some { (s.setCore k (c.setQueue i ((c.queue i).reserve s.nextId s.now (some (f.val, s.now))))) with
             nextId := s.nextId + 1 }
    else none
  | none =>
    if t.empty.getLsbD f.reg.toNat && !t.pending.getLsbD f.reg.toNat then some (s.setThrOf a (t.landG s.now f.reg f.val)) else none

/-- A fill applied now, if it can be. A copy's fill goes to its owner only, after the acquire of R266 for THR_REGMASK as it stands;
otherwise it is discarded (R265). -/
def State.fillNow (s : State) (k : Nat) (f : FillWait) : Option State :=
  if !f.copy then s.fillReg k f
  else if !s.fillOwner k f then some s
  else (s.fillReg k f).map (fun s => s.acquire k (s.thrOf (.slot k f.slot)).csr.regmask 0 7)

/-- A fill at its core: applied, buffered behind those waiting for its register, or none where the buffer of eight is
full (R296). -/
def State.takeFill (s : State) (k : Nat) (f : FillWait) : Option State :=
  let c := s.core k
  let waiting := c.fillbuf.any (fun x => x.slot == f.slot && x.reg == f.reg)
  match if waiting then none else s.fillNow k f with
  | some s' => some s'
  | none => if c.fillbuf.length < 8 then some (s.setCore k { c with fillbuf := c.fillbuf ++ [f] }) else none

/-- FILL_ARRIVAL: a fill is applied, buffered, refused, or returned; a completion fill names its slot itself (R265,
R285, R296). -/
def execFillArrival (id : Nat) (s : State) : Out :=
  match s.arrived? id with
  | some p =>
    match p.body with
    | .msg k e slot viaHome =>
      match e.fillReg with
      | none => .next s
      | some r =>
        if !s.slotHasRank p.dst slot p.ctx e.rank then .next (s.sendBack p k e slot viaHome)
        else
          match s.takeFill p.dst { slot := slot, reg := r, val := e.words.headD 0 } with
          | some s1 => .next (s1.answer p k (.msgAck e.id k))
          | none => .next (s.answer p k (.msgRefuse e k 3))
    | .compFill k f =>
      match s.takeFill k f with
      | some s1 => .next (s1.dropPacket id)
      | none => .next (s.refuse p)
    | _ => .next s
  | none => .next s

/-- The first buffered fill of a core that can be applied now, among those first for their register. -/
def State.nextFill (s : State) (k : Nat) : Option (FillWait × State) :=
  let fb := (s.core k).fillbuf
  fb.zipIdx.findSome? (fun x =>
    if (fb.take x.2).any (fun f => f.slot == x.1.slot && f.reg == x.1.reg) then none
    else (s.fillNow k x.1).map (fun s' => (x.1, s'.setCore k { s'.core k with fillbuf := fb.eraseIdx x.2 })))

/-- FILL_BUFFER_APPLY: a buffered fill is applied when its register empties or its queue has room (R296). -/
def execFillBufferApply (core : Nat) (s : State) : Out :=
  match s.nextFill core with
  | some (_, s') => .next s'
  | none => .next s

/-- SWITCH_GRANT: a free switch output grants a head packet by ageing, toggle and calendar, or combines two AMOADDs
(R276 to R280). -/
def execSwitchGrant (out : Nat) (s : State) : Out := .next (s.grant out)

end Sys2Proof.Machine
end

