-- ==== Sys2Proof/Machine/Copy.lean ====
section
/-! DEFINITION. Mailboxes, asynchronous copies and the copy engine (R254 to R269, R424): issue and its checks, pieces, the
collective engine, completion, promises and XWAIT. -/

namespace Sys2Proof.Machine

/-! ### Mailboxes (R255) -/

/-- A mailbox of a core. -/
def Core.box (c : Core) (b : Nat) : Mailbox := Tab.get {} c.mbox b

/-- Whether an MBPUT, or an MBTAKE, may use a mailbox at F-cycle `now`: the last change counts for the other side from the
fourth F-cycle on. -/
def Mailbox.canPut (m : Mailbox) (now : Nat) : Bool := !m.full && m.since.all (fun f => decide (f + 4 ≤ now))
def Mailbox.canTake (m : Mailbox) (now : Nat) : Bool := m.full && m.since.all (fun f => decide (f + 4 ≤ now))

/-- MBPUT (R255). -/
def execMbput (mb : BitVec 2) (a : Reg) : State → Out :=
  issue { word := wordK 18 7 0 mb.toNat a.toNat 0, srcs := [a, a + 1, a + 2, a + 3], sub := 1, leaves := true } (fun s xs =>
    let c := s.core s.curCore
    let m : Mailbox := { words := xs, full := true, crew := s.crewIdx s.curCore s.cur.slotNum, since := some s.now }
    if (c.box mb.toNat).canPut s.now then
      .done (s.setCore s.curCore { c with mbox := Tab.set c.mbox mb.toNat m }) []
    else .park)

/-- MBTAKE (R255). -/
def execMbtake (mb : BitVec 2) (d : Reg) : State → Out :=
  issue { word := wordK 18 8 0 mb.toNat 0 d.toNat, dsts := [d, d + 1, d + 2, d + 3], sub := 1, leaves := true } (fun s _ =>
    let c := s.core s.curCore
    let m := c.box mb.toNat
    if m.canTake s.now then
      .done (s.setCore s.curCore { c with mbox := Tab.set c.mbox mb.toNat { m with full := false, since := some s.now } }) m.words
    else .park)

/-! ### Issue checks (R258 to R263) -/

/-- The CTL word's check (R259). -/
def ctlOk (w : Word) : Bool :=
  bits w 63 18 == 0 && bits w 2 0 ≤ 4 && bits w 5 3 ≤ 4 && !(bitOf w 6 && bits w 15 11 == 0)

/-- R101 on a pointer of a copy. XCOPY, XCOPY2, XFILL and XRED may not use IOR at all (R260, `strict`). DESIGN CHOICE (assumption 83):
XPLN and XCOLL through IOR from a slot that R101 lets pass raise POINTER_FAULT too; R262 and R263 name no such path. -/
def State.copyPtr (s : State) (strict writes : Bool) (p : Word) : Option (Cause × Word) :=
  match s.checkPtr writes p with
  | some c => some (if strict && ptrPath p == 7 then .pointerFault else c, p)
  | none => if ptrPath p = 7 then some (.pointerFault, p) else none

/-- Whether bytes `lo` to `hi - 1` from a pointer pass an end of its path's space (R108). -/
def badExtent (p : Word) (lo hi : Int) : Bool :=
  decide (lo < hi) && (decide ((ptrOff p : Int) + lo < 0) || decide ((spaceEnd p : Int) < ptrOff p + hi))

/-- The first failing check of a list. -/
def firstFault (xs : List (Option (Cause × Word))) : Option (Cause × Word) := xs.findSome? id

/-- A check with its cause and THR_TVAL. -/
def failIf (b : Bool) (c : Cause) (v : Word) : Option (Cause × Word) := if b then some (c, v) else none

/-- The element formats of XRED (R261). -/
def xredFmt (f : Nat) : Bool := f == 5 || (7 ≤ f && f ≤ 11)

/-- The fields of XCOPY2's shape word (R260). -/
def shapeBytes (w : Word) : Nat := bits w 15 0
def shapeRows (w : Word) : Nat := bits w 27 16 + 1
def shapeDS (w : Word) : Int := readInt 18 (bits w 45 28)
def shapeSS (w : Word) : Int := readInt 18 (bits w 63 46)

/-- XPLN's plane word (R262). -/
def plnK (w : Word) : Nat := bits w 16 0
def plnRows (w : Word) : Nat := bits w 22 17 + 1
def plnP (w : Word) : Nat := bits w 27 23
def plnL (w : Word) : Nat := bits w 30 28
def plnTR (w : Word) : Bool := bitOf w 31
def plnStride (w : Word) : Nat := bits w 63 32

/-- Whether a source format of XPLN is floating. -/
def plnFloat (f : Nat) : Bool := 8 ≤ f && f ≤ 13

/-- Planes written from a source format (R231, R262). -/
def plnPlanes (f p : Nat) : Nat := match f with | 14 => 4 | 15 => 3 | 16 => 1 | 1 => 8 | 2 => 8 | _ => p

/-- The element index of a source for plane row `r` and element `k`. -/
def plnIndex (w : Word) (r k : Nat) : Nat := if plnTR w then k * plnStride w + r else r * plnStride w + k

/-- The bytes an XPLN reads from its source pointer. -/
def plnSource (f : Nat) (w : Word) : Nat :=
  let last := plnIndex w (plnRows w - 1) (plnK w - 1)
  if fmtBlock f then 160 * (last / 256 + 1) else (last + 1) * fmtSize f 0

/-- The bytes of planes and scales it writes. -/
def plnExtent (f : Nat) (w : Word) : Nat :=
  planeExtent (plnK w) (plnPlanes f (plnP w)) + (if fmtBlock f || plnFloat f then scaleExtent (plnK w) (plnL w) else 0)

/-- The fields of XCOLL's word (R263). -/
def collBytes (w : Word) : Nat := bits w 8 0
def collOp (w : Word) : Nat := bits w 11 9
def collFmt (w : Word) : Nat := bits w 16 12
def collGroup (w : Word) : Nat := bits w 47 32
def collRoot (w : Word) : Nat := bits w 63 48

/-- The operand checks of a copy function: R101, its limits, its extents. -/
def State.copyFault (s : State) (op : Nat) (d x w : Word) : Option (Cause × Word) :=
  let n := w.toNat
  match op with
  | 0 => firstFault [s.copyPtr true true d, s.copyPtr true false x, failIf (2 ^ 32 ≤ n) .formatFault w,
      failIf (badExtent d 0 n) .pointerFault d, failIf (badExtent x 0 n) .pointerFault x]
  | 1 =>
    let b : Int := shapeBytes w
    let r : Int := shapeRows w - 1
    let ext := fun (p : Word) (st : Int) => failIf (badExtent p (min 0 (r * st)) (max 0 (r * st) + b)) .pointerFault p
    firstFault [s.copyPtr true true d, s.copyPtr true false x, failIf (shapeBytes w == 0) .formatFault w,
      ext d (shapeDS w), ext x (shapeSS w)]
  | 2 =>
    let f := ptrFmt x
    let l := plnL w
    let k := plnK w
    firstFault [failIf (ptrPath d != 2 || bits d 18 0 % 16 != 0) .pointerFault d, s.copyPtr false true d, s.copyPtr false false x,
      failIf (19 ≤ f || (f == 14 && ptrL x != 0) || ((f == 15 || f == 16) && 6 ≤ ptrL x)) .formatFault x,
      failIf (!(fmtBlock f || plnFloat f || f == 1 || f == 2)) .formatFault x,
      failIf (decide (k < 128) || decide (65536 < k) || k % 128 != 0 || k % 2 ^ (3 + l) != 0
        || (if plnFloat f then plnP w == 0 || 16 < plnP w else plnP w != 0)
        || (fmtBlock f && (plnTR w || plnStride w % 256 != 0 || l != ptrL x))) .formatFault w,
      failIf (fmtBlock f && ptrOff x % 32 != 0) .pointerFault x, failIf (badExtent d 0 (plnExtent f w)) .pointerFault d, failIf (badExtent x 0 (plnSource f w)) .pointerFault x]
  | 3 => firstFault [s.copyPtr true true d, failIf (2 ^ 32 ≤ n) .formatFault w, failIf (badExtent d 0 n) .pointerFault d]
  | 4 =>
    let m := fmtSize (ptrFmt d) 0
    firstFault [s.copyPtr true true d, s.copyPtr true false x, failIf (!xredFmt (ptrFmt d)) .formatFault d,
      failIf (2 ^ 32 ≤ n || n % m != 0) .formatFault w, failIf (ptrOff d % m != 0) .pointerFault d,
      failIf (ptrOff x % m != 0) .pointerFault x, failIf (badExtent d 0 n) .pointerFault d,
      failIf (badExtent x 0 n) .pointerFault x]
  | _ =>
    let b := collBytes w
    let f := collFmt w
    firstFault [s.copyPtr false true d, s.copyPtr false false x,
      failIf (b < 8 || 256 < b || b % 8 != 0 || 4 ≤ collOp w || bits w 31 17 != 0
        || !(f == 5 || f == 7 || f == 8 || f == 9 || f == 11)) .formatFault w,
      failIf (badExtent d 0 b) .pointerFault d, failIf (badExtent x 0 b) .pointerFault x]

/-! ### Rows and pieces (R264) -/

/-- Rows of a copy and bytes of a row. -/
def Copy.rowBytes (c : Copy) : Nat := match c.op with | 1 => shapeBytes c.y0 | 5 => collBytes c.y0 | _ => c.y0.toNat
def Copy.rowCount (c : Copy) : Nat := if c.op = 1 then shapeRows c.y0 else 1

/-- The pointers of byte `i` of row `j`. -/
def Copy.dstAt (c : Copy) (j i : Nat) : Word :=
  ptrAt c.x0 (((ptrOff c.x0 : Int) + (if c.op = 1 then j * shapeDS c.y0 else 0) + i).toNat)
def Copy.srcAt (c : Copy) (j i : Nat) : Word :=
  ptrAt c.x1 (((ptrOff c.x1 : Int) + (if c.op = 1 then j * shapeSS c.y0 else 0) + i).toNat)

/-- The offsets at which windows of the thread that an SPR pointer names begin or end. -/
def State.windowEdges (s : State) (c : Copy) (p : Word) : List Nat :=
  match s.resolveRank c.ctx (ptrRank p) with
  | .here k i => (List.range 8).flatMap (fun n =>
      let w := Tab.get 0 (s.core k).win n
      if bitOf w 35 && bits w 39 36 == s.crewIdx k i then [16 * bits w 14 0, 16 * bits w 30 16 + 16] else [])
  | _ => []

/-- The bytes from a pointer to the next place where a copy is cut into pieces: a 64 KiB page of GEN or RO, a boundary of a window
(R264). SPL and a vault have none inside. -/
def State.toEdge (s : State) (c : Copy) (p : Word) : Nat :=
  match ptrPath p with
  | 0 | 1 => 65536 - ptrOff p % 65536
  | 3 => (s.windowEdges c p).foldl (fun n e => if ptrOff p < e then min n (e - ptrOff p) else n) (2 ^ 19)
  | _ => 2 ^ 32

/-- Whether a copy reads its source pointer, or writes its destination pointer, now: an XCOLL reads before it contributes, and writes
when the result has come (R263). -/
def Copy.reads (c : Copy) : Bool := c.op != 3 && !(c.op == 5 && c.coll != 0)
def Copy.writes (c : Copy) : Bool := c.op != 5 || c.coll == 2

/-- The bytes of a copy's rows. -/
def Copy.total (c : Copy) : Nat := c.rowBytes * c.rowCount

/-- The length of the piece that begins at a byte of its rows. -/
def State.pieceLen (s : State) (c : Copy) (t : Nat) : Nat :=
  let j := t / c.rowBytes
  let i := t % c.rowBytes
  let n := c.rowBytes - i
  let n := if c.writes then Nat.min n (s.toEdge c (c.dstAt j i)) else n
  if c.reads then Nat.min n (s.toEdge c (c.srcAt j i)) else n

/-- What a piece's check finds: passed, an error kind, a page whose walk it waits for, or an answer not there yet. -/
inductive PCheck where
  | ok
  | err (kind : Nat)
  | walk (va : Nat)
  | wait
  deriving DecidableEq, Repr

/-- The leaf of a page in the cluster TLB, by which a copy's pieces are translated (R264). -/
def State.pieceLeaf (s : State) (c : Copy) (va : Nat) : Option (Word × Nat) :=
  (tlbFind (s.cluster (c.core / 16)).tlb c.ctx va).map (fun e => (e.leaf, e.shift))

/-- What stands between a copy and the place of a pointer: a page that the cluster TLB does not hold, a rank in transit. -/
def State.pieceReach (s : State) (c : Copy) (p : Word) : PCheck :=
  match ptrPath p with
  | 0 | 1 =>
    if (s.pieceLeaf c (ptrAddr p)).isSome then .ok
    else
      match s.walk c.ctx (ptrAddr p) with
      | .bad kind _ => .err kind
      | .leaf .. => .walk (ptrAddr p)
  | 3 =>
    match s.resolveRank c.ctx (ptrRank p) with
    | .here _ _ => .ok
    | .nowhere => .err 5
    | _ => .wait
  | _ => .ok

/-- The check of a piece: its page, its windows or its grant. `mode` is 0 for a source, 1 for a destination, 2 for the
destination of an XRED, 3 for the source of one. -/
def State.pieceCheck (s : State) (c : Copy) (p : Word) (n mode : Nat) : PCheck :=
  let dst := mode == 1 || mode == 2
  match s.pieceReach c p, ptrPath p with
  | .ok, 0 | .ok, 1 =>
    let (e, sh) := (s.pieceLeaf c (ptrAddr p)).getD (0, 16)
    if s.allows e sh (ptrAddr p) (if mode = 1 then 1 else if mode = 2 then 2 else 0) then .ok else .err 2
  | .ok, 2 => if 2 ≤ mode && decide (8192 * c.rows < ptrOff p + n) then .err 8 else .ok
  | .ok, 3 =>
    match s.resolveRank c.ctx (ptrRank p) with
    | .here k i =>
      if !s.windowAdmits k i (ptrOff p) n (if dst then 1 else 0) (.slot c.core c.slot) then .err 5
      else if 2 ≤ mode && decide (8192 * (s.crewOf k i).rows < ptrOff p + n) then .err 8
      else .ok
    | _ => .err 5
  | .ok, _ => if !s.vaultGrant c.ctx p n dst || (mode == 2 && !s.vaultGrant c.ctx p n false) then .err 6 else .ok
  | r, _ => r

/-- The checks of a piece in order, with the pointer of the first that does not pass. -/
def checkPieces (s : State) (c : Copy) : List (Word × Nat × Nat) → PCheck × Word
  | [] => (.ok, 0)
  | (p, n, mode) :: rest =>
    match s.pieceCheck c p n mode with
    | .ok => checkPieces s c rest
    | r => (r, p)

/-- An access outside the crew's allocation recorded with the thread that issued the copy, if it is still there (R156). -/
def State.copyOor (s : State) (c : Copy) (p : Word) : State :=
  let a := Actor.slot c.core c.slot
  if (s.thrOf a).uid = c.uid ∧ s.slotBound c.core c.slot then s.setThrOf a ((s.thrOf a).unitOor p) else s

/-- The lines of a cluster cache that hold `n` bytes at a physical address, fetched. -/
def State.fetchCC (s : State) (cl pa n ctx region : Nat) (ro : Bool) : State :=
  (List.range ((pa + n - 1) / 256 - pa / 256 + 1)).foldl (fun s i => s.fillCC cl (pa / 256 + i) ctx region ro) s

/-- The scratchpad rows an SPL or SPR pointer of a copy reaches: the core, its first row and their number. -/
def State.copyRows (s : State) (c : Copy) (p : Word) : Nat × Nat × Nat :=
  if ptrPath p = 2 then (c.core, c.base, c.rows)
  else
    match s.resolveRank c.ctx (ptrRank p) with
    | .here k i => (k, (s.crewOf k i).base, (s.crewOf k i).rows)
    | _ => (c.core, 0, 0)

/-- The access of `n` bytes to rows, with an access outside them noted (R155, R156, R158). -/
def State.noteRows (s : State) (c : Copy) (p : Word) (n rows : Nat) : State :=
  if 8192 * rows < ptrOff p + n then s.copyOor c (ptrAt p (max (ptrOff p) (8192 * rows))) else s

/-- Bytes read for a copy, inside one sector (R147, R150, R151, R155, R158, R264): none where one is poisoned. -/
def State.pieceRead (s : State) (c : Copy) (p : Word) (n : Nat) : Option (List Byte × State) :=
  let a := Actor.slot c.core c.slot
  match ptrPath p with
  | 0 | 1 =>
    let (e, sh) := (s.pieceLeaf c (ptrAddr p)).getD (0, 16)
    let pa := leafPa e sh (ptrAddr p)
    if leafSync e || leafCA e == 2 then (s.tested a 0 0 pa n).map (fun s => (s.homeRead pa n, s))
    else
      let cl := c.core / 16
      let s := s.fetchCC cl pa n c.ctx (leafRegion e) (ptrPath p == 1)
      (s.tested a 4 cl pa n).map (fun s => (((s.sectorAt 1 cl (pa / 256) (pa / 128 % 2)).data.readBytes (pa % 128) n), s))
  | 4 =>
    (s.tested a 2 (vaultOf p) (bits p 26 0) n).map (fun s =>
      ((Tab.get [] s.vaults (vaultOf p) : Memory).readBytes (bits p 26 0) n, s))
  | _ =>
    let (k, base, rows) := s.copyRows c p
    let m := Nat.min n (8192 * rows - ptrOff p)
    let at_ := ptrOff p + 8192 * base
    match if m = 0 then some s else s.tested a 1 k at_ m with
    | none => none
    | some s =>
      some ((List.range n).map (fun i => if i < m then (s.core k).spad.byte (at_ + i) else 0), s.noteRows c p n rows)

/-- Bytes of a list written to a memory from an address on; those that are none are left as they are. -/
def Memory.writeSome (m : Memory) (a : Nat) (bs : List (Option Byte)) : Memory :=
  bs.zipIdx.foldl (fun m x => match x.1 with | some b => m.setByte (a + x.2) b | none => m) m

/-- The words of a sector that bytes of a list fall into, from an offset on. -/
def someMask (off : Nat) (bs : List (Option Byte)) : BitVec 32 :=
  bs.zipIdx.foldl (fun m x => if x.1.isSome then m ||| wordMask (off + x.2) 1 else m) 0

/-- Poison cleared from the words of a storage that written bytes cover whole (R410): only a run without gaps clears any. -/
def State.clearSome (s : State) (place unit a : Nat) (bs : List (Option Byte)) : State :=
  if bs.all Option.isSome then s.clearPoison place unit a bs.length else s

/-- Bytes of one sector written to a cluster cache and registered to its copy engine (R259, R304, R305). -/
def State.engineWrite (s : State) (cl pa ctx region : Nat) (bs : List (Option Byte)) : State :=
  let line := pa / 256
  let sec := pa / 128 % 2
  let s := s.fillCC cl line ctx region false
  let data := (s.sectorAt 1 cl line sec).data.writeSome (pa % 128) bs
  ((belowL1 s cl line).settle s copyUnit line sec region ctx (someMask (pa % 128) bs) data).clearSome 4 cl pa bs

/-- The registrant of a sector at its home pier that stands for a cluster's copy engine, whose XRED has been performed there
(R259, R261, R304). -/
def homeEngine (cl : Nat) : Nat := 1024 + cl

/-- Bytes written at the home pier for a copy: waiters are tested again (R150, R323); an XRED registers its engine there (R259). -/
def State.homePut (s : State) (cl pa : Nat) (bs : List (Option Byte)) (registers : Bool) : State :=
  let s := if registers then s.takeSectors (homeEngine cl) pa bs.length else s
  (({ s with mem := s.mem.writeSome pa bs }).clearSome 0 0 pa bs).retestWaits pa bs.length

/-- Bytes written by a copy, inside one sector; `home` adds at the home pier, as XRED does (R259, R261). -/
def State.pieceWrite (s : State) (c : Copy) (p : Word) (bs : List (Option Byte)) (home : Bool) : State :=
  match ptrPath p with
  | 0 | 1 =>
    let (e, sh) := (s.pieceLeaf c (ptrAddr p)).getD (0, 16)
    let pa := leafPa e sh (ptrAddr p)
    if leafSync e || leafCA e == 2 then s.homePut (c.core / 16) pa bs false
    else if home then s.homePut (c.core / 16) pa bs true
    else s.engineWrite (c.core / 16) pa c.ctx (leafRegion e) bs
  | 4 =>
    let v := vaultOf p
    let off := bits p 26 0
    ({ s with vaults := Tab.set s.vaults v ((Tab.get [] s.vaults v : Memory).writeSome off bs) }).clearSome 2 v off bs
  | _ =>
    let (k, base, rows) := s.copyRows c p
    let s := s.noteRows c p bs.length rows
    let bs := bs.take (8192 * rows - ptrOff p)
    let at_ := ptrOff p + 8192 * base
    if bs.isEmpty then s
    else (s.setCore k { s.core k with spad := (s.core k).spad.writeSome at_ bs }).clearSome 1 k at_ bs

/-- The port a copy's access of `n` bytes has to reach, none inside its cluster (R150, R261, R264, R270). -/
def State.copyReach (s : State) (c : Copy) (p : Word) (n : Nat) (write : Bool) : Option Nat :=
  match ptrPath p with
  | 0 | 1 =>
    let (e, sh) := (s.pieceLeaf c (ptrAddr p)).getD (0, 16)
    let pa := leafPa e sh (ptrAddr p)
    if leafSync e || leafCA e == 2 || (write && c.op == 4) then some (pierPort s c.core (s.homeDie pa) pa)
    else if s.hitAt 1 (c.core / 16) pa n (ptrPath p == 1) then none
    else some (pierPort s c.core (c.core / 256) pa)
  | 3 => match s.resolveRank c.ctx (ptrRank p) with
    | .here k _ => if k = c.core then none else some k
    | _ => none
  | 4 => if vaultOf p = c.core / 16 then none else some (vaultEnd (vaultOf p))
  | _ => none

/-- The accesses a cluster's copy engine has under way: it has 64 tags (R32). -/
def State.engineTags (s : State) (cl : Nat) : Nat :=
  (s.packets.filter (fun p => match p.body with
    | .engine (.copy c _) _ _ => c == cl
    | _ => false)).length

/-- An access of a copy, sent where it leaves the cluster, through the port of the core that issued the copy, in the copy's traffic
class (R259, R271, R276). -/
def State.copyAccess (s : State) (cl : Nat) (c : Copy) (p : Word) (n : Nat) (write : Bool) (k : State → State) : State :=
  s.engineAccess (.copy cl c.id) c.ctx c.cls c.core n write (s.copyReach c p n write) (decide (s.engineTags cl < 64)) k

/-- One XRED or collective element: integers wrap, floating sums round RNE with the canonical NaN and no flag (R261). -/
def sumElem (f x y : Nat) : Nat :=
  if f = 5 ∨ f = 7 then (x + y) % 2 ^ (8 * fmtSize f 0)
  else (fAdd (fmtFloat f) (.mode 1) ((fmtFloat f).unpack x) ((fmtFloat f).unpack y)).1

/-- Two byte strings combined element by element. -/
def combineBytes (g : Nat → Nat → Nat) (m : Nat) (xs ys : List Byte) : List Byte :=
  (List.range (xs.length / m)).flatMap (fun i => bytesLE m (g (recField xs (i * m) m) (recField ys (i * m) m)))

/-! ### XPLN (R262, R264) -/

/-- The bytes of the source, as offsets from its pointer, that element index `ix` takes: its element, and its scale. -/
def plnBytes (f l ix : Nat) : List Nat :=
  if fmtBlock f then [(blockPlace f l ix).1, (blockPlace f l ix).2.2]
  else (List.range (fmtSize f 0)).map (fun b => ix * fmtSize f 0 + b)

/-- A source byte of a copy as a one-byte piece. -/
def Copy.srcByte (c : Copy) (o : Nat) : Word := ptrAt c.x1 (ptrOff c.x1 + o)

/-- A sign and magnitude of an element that carries no exponent of its own (R118, R262). -/
def plnValue (f raw : Nat) : Bool × Nat :=
  match f with
  | 14 => (elemValue 0 raw)
  | 15 => ((elemValue 1 raw).1, raw % 8)
  | 16 => ((elemValue 2 raw).1, (elemValue 2 raw).2 / 2)
  | 1 => (decide (readInt 8 raw < 0), (readInt 8 raw).natAbs)
  | _ => (false, raw)

/-- The planes, scales and non-finite count of one unit of an XPLN, from its source bytes: writes as offset and byte. -/
def plnUnit (c : Copy) (u : Nat) (rd : Nat → Byte) : List (Nat × Byte) × Nat :=
  let w := c.y0
  let f := ptrFmt c.x1
  let l := plnL w
  let blk := 2 ^ (3 + l)
  let len := max 128 blk
  let p := plnPlanes f (plnP w)
  let sbase := planeExtent (plnK w) p
  let raw := fun (ix : Nat) =>
    if fmtBlock f then
      let (b, sh, _) := blockPlace f l ix
      (rd b).toNat / 2 ^ sh % 2 ^ blockBits f
    else leNat ((plnBytes f l ix).map rd)
  let rows := List.range (plnRows w)
  let blocks := (List.range (len / blk)).map (fun j => u * (len / blk) + j)
  -- per row and block: the scale byte, signs and magnitudes, and the non-finite count
  let one := fun (r j : Nat) =>
    let ixs := (List.range blk).map (fun i => plnIndex w r (j * blk + i))
    if plnFloat f then
      let (x, qs, _, nf) := alignBlock p (ixs.map (fun ix => (fmtFloat f).unpack (raw ix)))
      (some (BitVec.ofInt 8 x), qs, nf)
    else ((if fmtBlock f then some (rd (blockPlace f l (ixs.headD 0)).2.2) else none), ixs.map (fun ix => plnValue f (raw ix)), 0)
  let table := rows.map (fun r => blocks.map (fun j => one r j))
  let qs := table.map (fun row => row.flatMap (fun b => b.2.1))
  let chunk0 := u * len / 128
  let planes := (List.range (len / 128)).flatMap (fun ch =>
    (List.range (p + 1)).flatMap (fun sl =>
      (List.range 64).flatMap (fun r =>
        (List.range 16).map (fun b =>
          let byte := (List.range 8).foldl (fun v x =>
            let (sg, q) := (qs.getD r []).getD (128 * ch + 8 * b + x) (false, 0)
            v + (if (if sl = 0 then sg else q / 2 ^ (sl - 1) % 2 == 1) then 2 ^ x else 0)) 0
          ((chunk0 + ch) * (p + 1) * 1024 + sl * 1024 + 16 * r + b, BitVec.ofNat 8 byte)))))
  let scales := if fmtBlock f || plnFloat f then
      blocks.zipIdx.flatMap (fun j => (List.range 64).map (fun r =>
        (sbase + 64 * j.1 + r, (((table.getD r []).getD j.2 (none, [], 0)).1).getD 0)))
    else []
  (planes ++ scales, table.foldl (fun n row => row.foldl (fun n b => n + b.2.2) n) 0)

/-- A sorted list without repetitions. -/
def dedup : List Nat → List Nat
  | a :: b :: l => if a = b then dedup (b :: l) else a :: dedup (b :: l)
  | l => l

/-- The source bytes of a unit, row by row in ascending address. -/
def plnRowBytes (c : Copy) (u r : Nat) : List Nat :=
  let w := c.y0
  let f := ptrFmt c.x1
  let len := max 128 (2 ^ (3 + plnL w))
  dedup (((List.range len).flatMap (fun i => plnBytes f (plnL w) (plnIndex w r (u * len + i)))).mergeSort (fun a b => decide (a ≤ b)))

/-- Consecutive offsets of a list together, as long as their keys agree: the key and the offsets. -/
def groupBy (key : Nat → Nat) : List Nat → List (Nat × List Nat)
  | [] => []
  | o :: l =>
    match groupBy key l with
    | (k, os) :: rest => if k = key o then (k, o :: os) :: rest else (key o, [o]) :: (k, os) :: rest
    | [] => [(key o, [o])]

/-- The number of the piece of its row that a source byte of an XPLN lies in: its page, or how many boundaries of windows stand before
it (R264). -/
def State.pieceKey (s : State) (c : Copy) (o : Nat) : Nat :=
  let p := c.srcByte o
  match ptrPath p with
  | 0 | 1 => ptrOff p / 65536
  | 3 => ((s.windowEdges c p).filter (fun e => decide (e ≤ ptrOff p))).length
  | _ => 0

/-- The accesses of a unit of an XPLN in order, each inside one sector: the first and last byte of its piece, whether it is the first
of its piece, and its bytes (R264). -/
def State.plnAccesses (s : State) (c : Copy) (u : Nat) : List (Nat × Nat × Bool × List Nat) :=
  (List.range (plnRows c.y0)).flatMap (fun r =>
    (groupBy (s.pieceKey c) (plnRowBytes c u r)).flatMap (fun g =>
      ((groupBy (fun o => ptrOff (c.srcByte o) / 128) g.2).zipIdx).map (fun x =>
        (g.2.headD 0, g.2.getLastD 0, x.2 == 0, x.1.2))))

/-! ### Steps of the engine (R264 to R267) -/

/-- A copy of a cluster. -/
def State.copy? (s : State) (cl id : Nat) : Option Copy := (s.cluster cl).copies.find? (fun c => c.id == id)

/-- A copy replaced. -/
def State.setCopy (s : State) (cl : Nat) (c : Copy) : State :=
  let x := s.cluster cl
  s.setCluster cl { x with copies := x.copies.map (fun y => if y.id == c.id then c else y) }

/-- A copy that stops with an error at the piece it is at: what earlier pieces have read is still written (R264). An XPLN has written
its earlier units. -/
def State.stopCopy (s : State) (cl : Nat) (c : Copy) (kind : Nat) (p : Word) : State :=
  let keep := c.first - c.next
  s.setCopy cl { c with err := some (kind, p), upto := c.first, rd := c.first, buf := c.buf.take keep, landed := c.op == 2 || !c.writes }

/-- The storage set of a copy's own paths (R259). -/
def Copy.storage (c : Copy) : Nat :=
  let one := fun (p : Word) => match ptrPath p with | 0 => 1 | 1 => 9 | 4 => 4 | _ => 2
  if c.op = 3 then one c.x0 else one c.x0 ||| one c.x1

/-- The release of a copy: where its paths name GEN, dirty words of the named regions pushed to the scope's coherence point (R259,
R312). Its own writes to the other storages have been performed. -/
def State.copyRelease (s : State) (c : Copy) (scope : Nat) : State :=
  if !stG c.storage then s
  else
    let push := fun (s : State) (level unit : Nat) =>
      (dirtyNamed (s.linesAt level unit) c.regmask).foldl (fun s x => s.pushSector level unit x.1 x.2.1) s
    let s := push s 0 c.core
    let s := if scope < 1 then s else push s 1 (c.core / 16)
    if scope < 2 then s else ((s.piers.map (·.1)).filter (s.ownSlice c.core)).foldl (fun s x => push s 2 x) s

/-- The acquire of a copy before its first read (R259). -/
def State.startCopy (s : State) (cl : Nat) (c : Copy) : Copy × State :=
  let asc := bits c.ctl 2 0
  let c' := { c with started := true }
  if c.started then (c, s)
  else
    let s := if asc = 0 then s else s.acquire c.core c.regmask (asc - 1) c.storage
    (c', s.setCopy cl c')

/-- The index among a group's members of a core of this package (R424); none where the group is invalid or the core is no
member. -/
def State.memberOf (s : State) (g core : Nat) : Option Nat :=
  let e := Tab.get 0 s.groups g
  if 256 ≤ g ∨ !bitOf e 20 then none
  else (List.range (bits e 19 10)).find? (fun m =>
    let x := Tab.get 0 s.members (bits e 9 0 + m)
    bits x 7 0 == s.pkg % 256 && bits x 17 8 == core)

/-- What a copy does next, after a look at what stands before it. -/
def State.whenClear (s : State) (cl : Nat) (c : Copy) (r : PCheck) (p : Word) (k : State) : State :=
  match r with
  | .ok => k
  | .err kind => s.stopCopy cl c kind p
  | .walk va => s.needWalk (.slot c.core c.slot) c.ctx va 0
  | .wait => s

/-- Whether two pointers name places of one space: cached memory, the crew's scratchpad, that of one rank, or one vault. -/
def sameSpace (p q : Word) : Bool :=
  match ptrPath p, ptrPath q with
  | 2, 2 => true
  | 3, 3 => ptrRank p == ptrRank q
  | 4, 4 => vaultOf p == vaultOf q
  | a, b => decide (a ≤ 1 ∧ b ≤ 1)

/-- Whether a destination byte of an XCOPY or XCOPY2 is one of its source bytes too, by its pointer (R260). -/
def Copy.overlaps (c : Copy) (p : Word) : Bool :=
  c.op ≤ 1 && sameSpace c.x0 c.x1 && (List.range c.rowCount).any (fun j =>
    decide (ptrOff (c.srcAt j 0) ≤ ptrOff p ∧ ptrOff p < ptrOff (c.srcAt j 0) + c.rowBytes))

/-- Whether some byte may be: its rows' ends meet. -/
def Copy.mayOverlap (c : Copy) : Bool :=
  c.op ≤ 1 && sameSpace c.x0 c.x1 &&
    (let j := c.rowCount - 1
     let lo := fun (f : Nat → Nat → Word) => min (ptrOff (f 0 0)) (ptrOff (f j 0))
     let hi := fun (f : Nat → Nat → Word) => max (ptrOff (f 0 0)) (ptrOff (f j 0)) + c.rowBytes
     decide (lo c.srcAt < hi c.dstAt ∧ lo c.dstAt < hi c.srcAt))

/-- How far a copy may write: all that its pieces have passed at a row's end or when it has stopped, else whole aligned 8-byte units of
the destination, so that no unit is written in two acts (R264, R269). -/
def Copy.limit (c : Copy) : Nat :=
  if !c.writes then c.next
  else if c.err.isSome || c.pass == 1 || c.upto % c.rowBytes == 0 then c.upto
  else max c.next (c.upto - (ptrOff (c.dstAt (c.next / c.rowBytes) (c.next % c.rowBytes)) + (c.upto - c.next)) % 8)

/-- The pointer and length of the access of a copy that begins at a byte of its rows and ends before another: inside one sector and
row. -/
def Copy.beat (c : Copy) (f : Nat → Nat → Word) (t limit : Nat) : Word × Nat :=
  let i := t % c.rowBytes
  let p := f (t / c.rowBytes) i
  (p, Nat.min (limit - t) (Nat.min (c.rowBytes - i) (128 - ptrOff p % 128)))

/-- The check of a copy's next piece (R264). -/
def State.checkStep (s : State) (cl : Nat) (c : Copy) : State :=
  let n := s.pieceLen c c.upto
  let d := c.dstAt (c.upto / c.rowBytes) (c.upto % c.rowBytes)
  let x := c.srcAt (c.upto / c.rowBytes) (c.upto % c.rowBytes)
  let tests := if c.op = 4 then [(x, n, 3), (d, n, 2)]
    else (if c.reads then [(x, n, 0)] else []) ++ (if c.writes then [(d, n, 1)] else [])
  let (r, p) := checkPieces s c tests
  let c := { c with first := c.upto }
  s.whenClear cl c r p (s.setCopy cl { c with upto := c.upto + n, rd := if c.reads then c.rd else c.upto + n })

/-- A read of a copy's piece; poison ends it with kind 7 (R264). -/
def State.readStep (s : State) (cl : Nat) (c : Copy) : State :=
  let (p, n) := c.beat c.srcAt c.rd c.upto
  let fail := c.srcAt (c.first / c.rowBytes) (c.first % c.rowBytes)
  s.whenClear cl c (s.pieceReach c p) fail (s.copyAccess cl c p n false (fun s =>
    match s.pieceRead c p n with
    | none => s.stopCopy cl c 7 fail
    | some (bs, s) => s.setCopy cl { c with rd := c.rd + n, buf := c.buf ++ bs }))

/-- The bytes a copy writes with `n` bytes of its rows: the pattern of XFILL, the sums of XRED, or what it has read; bytes that overlap
the source stay until all others are written, and are then undefined (R9, R260, R261). None where an XRED meets poison at its
destination. -/
def State.beatBytes (s : State) (c : Copy) (p : Word) (n : Nat) : Option (List (Option Byte) × State) :=
  let at_ := fun (b : Nat) => ptrAt p (ptrOff p + b)
  match c.op with
  | 3 => some ((List.range n).map (fun b => some (BitVec.ofNat 8 (c.x1.toNat / 2 ^ (8 * ((c.next + b) % 8))))), s)
  | 4 =>
    let f := ptrFmt c.x0
    let old := if ptrPath p = 0 then
        let (e, sh) := (s.pieceLeaf c (ptrAddr p)).getD (0, 16)
        let pa := leafPa e sh (ptrAddr p)
        (s.tested (.slot c.core c.slot) 0 0 pa n).map (fun s => (s.homeRead pa n, s))
      else s.pieceRead c p n
    old.map (fun x => ((combineBytes (sumElem f) (fmtSize f 0) x.1 (c.buf.take n)).map some, x.2))
  | _ =>
    if c.pass = 1 then
      let (k, s) := s.takeFree
      some ((List.range n).map (fun b => if c.overlaps (at_ b) then some (Config.freeByte k b) else none), s)
    else if c.mayOverlap then some ((c.buf.take n).zipIdx.map (fun x => if c.overlaps (at_ x.2) then none else some x.1), s)
    else some ((c.buf.take n).map some, s)

/-- A write of a copy. -/
def State.writeStep (s : State) (cl : Nat) (c : Copy) : State :=
  let (p, n) := c.beat c.dstAt c.next c.limit
  let fail := c.dstAt (c.first / c.rowBytes) (c.first % c.rowBytes)
  s.whenClear cl c (s.pieceReach c p) fail (s.copyAccess cl c p n true (fun s =>
    match s.beatBytes c p n with
    | none => s.stopCopy cl c 7 fail
    | some (bs, s) => (s.pieceWrite c p bs (c.op == 4)).setCopy cl { c with next := c.next + n, buf := c.buf.drop n }))

/-- The contribution of an XCOLL: its bytes sent to the collective engine of the hub, or error kind 10 where the issuer is no member
(R263). -/
def State.contribute (s : State) (cl : Nat) (c : Copy) : State :=
  match s.memberOf (collGroup c.y0) c.core with
  | none => s.setCopy cl { c with err := some (10, c.x0), landed := true }
  | some m =>
    s.engineAccess (.copy cl c.id) c.ctx c.cls c.core c.total true (some hubPort) (decide (s.engineTags cl < 64)) (fun s =>
      let s := s.setCopy cl { c with coll := 1 }
      { s with contribs := s.contribs ++ [{ group := collGroup c.y0, member := m, cluster := cl, copy := c.id, bytes := c.buf }] })

/-- The result of a collective at a member: its bytes are delivered as a copy's are; none mean that the members disagree, error kind 9
(R263). -/
def State.takeResult (s : State) (cl : Nat) (c : Copy) : State :=
  match s.packets.find? (fun p => match p.body with | .collResult x id _ => x == cl && id == c.id | _ => false) with
  | none => s
  | some p =>
    if !s.ready p then s
    else
      match p.body with
      | .collResult _ _ [] => (s.dropPacket p.id).setCopy cl { c with err := some (9, c.x0), landed := true }
      | .collResult _ _ bs =>
        (s.dropPacket p.id).setCopy cl { c with coll := 2, buf := bs, next := 0, upto := 0, rd := 0, first := 0 }
      | _ => s

/-- A copy that has written all it may: it is performed, once overlapping bytes are undefined (R260); an XCOLL that has read its bytes
contributes them. -/
def State.endStep (s : State) (cl : Nat) (c : Copy) : State :=
  if c.op = 5 ∧ c.coll = 0 then s.contribute cl c
  else if c.pass = 0 && c.mayOverlap && c.upto != 0 then s.setCopy cl { c with pass := 1, next := 0, buf := [] }
  else s.setCopy cl { c with landed := true }

/-- One step of an XCOPY, XCOPY2, XFILL, XRED or XCOLL: what its piece still has to read, else what it may write, else the check of the
next piece (R264). -/
def State.byteStep (s : State) (cl : Nat) (c : Copy) : State :=
  if c.coll = 1 then s.takeResult cl c
  else if c.rd < c.upto then s.readStep cl c
  else if c.next < c.limit then s.writeStep cl c
  else if c.err.isSome || c.upto == c.total then s.endStep cl c
  else s.checkStep cl c

/-- One step of an XPLN: the next access of its unit, after the check of its piece; then the planes and scales of the unit (R262,
R264). -/
def State.plnStep (s : State) (cl : Nat) (c : Copy) : State :=
  let w := c.y0
  let len := max 128 (2 ^ (3 + plnL w))
  let acc := s.plnAccesses c c.next
  match acc[c.rd]? with
  | some (lo, hi, head, os) =>
    let fail := c.srcByte lo
    let r := if head then s.pieceCheck c fail (hi + 1 - lo) 0 else s.pieceReach c fail
    let p := c.srcByte (os.headD 0)
    let n := os.getLastD 0 + 1 - os.headD 0
    s.whenClear cl c r fail (s.copyAccess cl c p n false (fun s =>
      match s.pieceRead c p n with
      | none => s.stopCopy cl c 7 fail
      | some (bs, s) => s.setCopy cl { c with rd := c.rd + 1, buf := c.buf ++ os.map (fun o => bs.getD (o - os.headD 0) 0) }))
  | none =>
    let src : Tab Byte := (acc.flatMap (fun x => x.2.2.2)).zip c.buf
    let (ws, nf) := plnUnit c c.next (fun o => Tab.get 0 src o)
    let s := ws.foldl (fun s x => s.pieceWrite c (ptrAt c.x0 (ptrOff c.x0 + x.1)) [some x.2] false) s
    s.setCopy cl { c with next := c.next + 1, rd := 0, buf := [], nfin := c.nfin + nf, landed := decide (plnK w ≤ (c.next + 1) * len) }

/-- Whether a packet is of a copy that is no more. -/
def Packet.ofCopy (p : Packet) (cl id : Nat) : Bool :=
  match p.body with
  | .engine (.copy c x) _ _ => c == cl && x == id
  | .collResult c x _ => c == cl && x == id
  | _ => false

/-- COPY_PIECE: a step of a copy: a piece checked, or part of it read or written, or the copy stopped with an error (R264). -/
def execCopyPiece (cluster id : Nat) (s : State) : Out :=
  match s.copy? cluster id with
  | none => .next { s with packets := s.packets.filter (fun p => !p.ofCopy cluster id) }
  | some c =>
    if c.landed then .next s
    else
      let (c, s) := s.startCopy cluster c
      .next (if c.op = 2 then s.plnStep cluster c else s.byteStep cluster c)

/-- The identifier issued before another on its channel (R256). -/
def prevXid (x : BitVec 32) : BitVec 32 := if x = 1 then BitVec.allOnes 32 else x - 1

/-- A copy completes: XC_DONE advances, an error is recorded, and its fill is on its way (R256, R257, R265). -/
def State.completeCopy (s : State) (cl : Nat) (c : Copy) : State :=
  let rsc := bits c.ctl 5 3
  let s := if rsc = 0 then s else s.copyRelease c (rsc - 1)
  let x := s.cluster cl
  let s := s.setCluster cl { x with copies := x.copies.filter (fun y => y.id != c.id) }
  let k := s.core c.core
  let mine := fun (y : Copy) => y.core == c.core && y.ch == c.ch
  let older := (x.copies.takeWhile (fun y => y.id != c.id)).any mine
  let done := match ((x.copies.filter (fun y => y.id != c.id)).find? mine), older with
    | _, true => Tab.get 0 k.done c.ch
    | none, false => Tab.get 0 k.issued c.ch
    | some y, false => prevXid y.xid
  let st := Tab.get 0 k.stat c.ch
  let nf := Nat.min (2 ^ 24 - 1) (bits st 63 40 + c.nfin)
  let st := setBits st 63 40 nf
  let (st, fa) := match c.err with
    | none => (st, Tab.get 0 k.faddr c.ch)
    | some (kind, p) =>
      if bitOf st 37 then (setBit st 36 true, Tab.get 0 k.faddr c.ch)
      else (setBits (setBits (setBit st 37 true) 35 32 kind) 31 0 c.xid.toNat, p)
  let k := { k with done := Tab.set k.done c.ch done, stat := Tab.set k.stat c.ch st, faddr := Tab.set k.faddr c.ch fa,
                    xerrs := if c.err.isSome then (c.ch, c.xid) :: k.xerrs else k.xerrs }
  let s := s.setCore c.core k
  if !bitOf c.ctl 6 then s
  else
    let f : FillWait := { slot := bits c.ctl 10 7, reg := BitVec.ofNat 5 (bits c.ctl 15 11),
                          val := wordOf (c.xid.toNat + 2 ^ 63 * boolNat c.err.isSome), copy := true, crew := c.fillCrew, uid := c.fillUid }
    match s.takeFill c.core f with
    | some s => s
    | none => s.send { net := .local, ctx := c.ctx, src := c.core, dst := c.core, body := .compFill c.core f }

/-- COPY_COMPLETE: a copy whose pieces are performed, or that has stopped, completes (R265). One of no bytes is seen to be complete from
the fourth F-cycle after its issue on (R73, R260). -/
def execCopyComplete (cluster id : Nat) (s : State) : Out :=
  match s.copy? cluster id with
  | none => .next s
  | some c => if c.landed && decide (c.after ≤ s.now) then .next (s.completeCopy cluster c) else .next s

/-- A promise: no smaller than a TB value; the rest is the engine's (R267). -/
def promiseFrom (tb : Word) (free : Word) : Word := wordOf (Nat.min (tb.toNat + free.toNat) (2 ^ 64 - 1))

/-- Incomplete copies of a core's channel, in issue order. -/
def State.channel (s : State) (k ch : Nat) : List Copy :=
  (s.cluster (k / 16)).copies.filter (fun c => c.core == k && c.ch == ch)

/-- What the engine promises now for a copy of a channel, from a TB value on (R267). -/
def State.promise (s : State) (k ch : Nat) (tb : Word) : Word × State :=
  let (n, s) := s.takeFree
  (promiseFrom tb (Config.promise n (s.channel k ch).length (s.cluster (k / 16)).budget), s)

/-- The promise of an incomplete copy renewed, where TB has reached it; XC_PROM follows for the newest copy of its channel (R257,
R267). -/
def State.renew (s : State) (cl : Nat) (c : Copy) : State :=
  if s.tb.toNat < c.prom.toNat then s
  else
    let (p, s) := s.promise c.core c.ch (s.tb + 1)
    let s := s.setCopy cl { c with prom := p }
    if Tab.get 0 (s.core c.core).issued c.ch = c.xid then s.pendWrite c.core (.csr (0x218 + c.ch) 0 p) else s

/-- PROMISE_RENEWAL: TB has reached the promise of an incomplete copy, which gets a later one (R267). -/
def execPromiseRenewal (cluster id : Nat) (s : State) : Out :=
  match s.copy? cluster id with
  | none => .next s
  | some c => .next (s.renew cluster c)

/-- One element of a collective (R263). -/
def collElem (op f x y : Nat) : Nat :=
  if op = 0 then sumElem f x y
  else if f = 5 ∨ f = 7 then vintOp (if op = 1 then 6 else 7) (8 * fmtSize f 0) x y 0
  else (fMinMax (fmtFloat f) (op == 2) x y).1

/-- What the collective engine sends a member: the result, or nothing where the members' words disagree (R263). -/
def State.sendResult (s : State) (c : Contribution) (y : Copy) (bs : List Byte) : State :=
  s.send { net := .rsp, ctx := y.ctx, cls := y.cls, src := hubPort, dst := y.core, body := .collResult c.cluster c.copy bs }

/-- COLLECTIVE_RESULT: with every member's contribution there, the engine combines them in ascending member index and
sends the result to each; members whose words disagree all end in error 9 (R263, R424). -/
def execCollectiveResult (group : Nat) (s : State) : Out :=
  let e := Tab.get 0 s.groups group
  let n := bits e 19 10
  let cs := (List.range n).filterMap (fun m => s.contribs.find? (fun c => c.group == group && c.member == m))
  if n = 0 ∨ cs.length < n then .next s
  else
    let ps := cs.filterMap (fun c => (s.copy? c.cluster c.copy).map (fun y => (c, y)))
    let s := { s with contribs := s.contribs.filter (fun c => !cs.contains c) }
    let key := fun (y : Copy) => (collBytes y.y0, collOp y.y0, collFmt y.y0, collRoot y.y0)
    match ps with
    | [] => .next s
    | (_, y0) :: _ =>
      if ps.any (fun p => key p.2 != key y0) then
        .next (ps.foldl (fun s p => s.sendResult p.1 p.2 []) s)
      else
        let m := fmtSize (collFmt y0.y0) 0
        let all := ps.map (fun p => p.1.bytes)
        let (fresh, s) := s.takeFree
        let r := if collOp y0.y0 = 3 then
            all.getD (collRoot y0.y0) ((List.range (collBytes y0.y0)).map (fun i => Config.freeByte fresh i))
          else (all.drop 1).foldl (fun a b => combineBytes (collElem (collOp y0.y0) (collFmt y0.y0)) m a b) (all.headD [])
        .next (ps.foldl (fun s p => s.sendResult p.1 p.2 r) s)

/-! ### The instructions (R258, R260, R268) -/

/-- The next identifier of a channel: modulo 2^32, skipping 0 (R256). -/
def nextXid (x : BitVec 32) : BitVec 32 := if x + 1 = 0 then 1 else x + 1

/-- A copy handed to the cluster's engine (R258, R265), in traffic class 3 or that of CLS (R259). A copy of no bytes performs no access
(R260). -/
def State.startXfer (s : State) (op ch : Nat) (x0 x1 y0 ctl : Word) : BitVec 32 × State :=
  let k := s.curCore
  let i := s.cur.slotNum
  let t := s.thr
  let c := s.core k
  let xid := nextXid (Tab.get 0 c.issued ch)
  let (prom, s) := s.promise k ch s.tb
  let none_ := (op == 0 || op == 3 || op == 4) && y0 == 0
  let cls := bits ctl 17 16
  let crew := s.crewOf k i
  let fs := bits ctl 10 7
  let cp : Copy := {
    id := s.nextId, core := k, slot := i, uid := t.uid, ctx := t.ctx, base := crew.base, rows := crew.rows, ch := ch, xid := xid,
    op := op, x0 := x0, x1 := x1, y0 := y0, ctl := ctl, regmask := t.csr.regmask, prom := prom,
    cls := if cls = 0 then 3 else cls, landed := none_, after := if none_ then s.now + 4 else 0,
    fillCrew := if i = 0 then none else some (bits c.xctl 4 1),
    fillUid := if i = 0 && s.slotBound k fs then some (s.thrOf (.slot k fs)).uid else none }
  let s := s.setCore k { c with issued := Tab.set c.issued ch xid,
                                xerrs := c.xerrs.filter (fun e => !(e.1 == ch && e.2 == xid)) }
  let s := (s.pendWrite k (.csr (0x218 + ch) 0 prom)).pendWrite k (.csr (0x210 + ch) 0 (wordOf xid.toNat))
  let x := s.cluster (k / 16)
  (xid, { (s.setCluster (k / 16) { x with copies := x.copies ++ [cp] }) with nextId := s.nextId + 1 })

/-- Whether the thread may issue copies: the transfer slot, or the steward (R254). -/
def State.mayCopy (s : State) : Bool :=
  decide (1 ≤ s.privilege s.cur) || (s.cur.slotNum == 15 && bitOf (s.core s.curCore).xctl 0)

/-- A copy instruction (R258). -/
def copyOp (op : Nat) (b a : Reg) (ch : BitVec 3) (d : Reg) : State → Out := fun s =>
  let word := wordK 18 op ch.toNat b.toNat a.toNat d.toNat
  issue { word := word, srcs := [a, a + 1, b, b + 1], dsts := [d], sub := 1, leaves := true,
          pre := if s.mayCopy then none else some (.privilege, wordOf word) } (fun s xs =>
    let ctl := arg xs 3
    if !ctlOk ctl then .trap .formatFault ctl
    else
      match s.copyFault op (arg xs 0) (arg xs 1) (arg xs 2) with
      | some (c, v) => .trap c v
      | none =>
        if 8 ≤ (s.channel s.curCore ch.toNat).length then .park
        else
          let (xid, s) := s.startXfer op ch.toNat (arg xs 0) (arg xs 1) (arg xs 2) ctl
          .done s [wordOf xid.toNat]) s

/-- XCOPY (R260). -/
def execXcopy (b a : Reg) (ch : BitVec 3) (d : Reg) : State → Out := copyOp 0 b a ch d

/-- XCOPY2 (R260). -/
def execXcopy2 (b a : Reg) (ch : BitVec 3) (d : Reg) : State → Out := copyOp 1 b a ch d

/-- XPLN (R262). -/
def execXpln (b a : Reg) (ch : BitVec 3) (d : Reg) : State → Out := copyOp 2 b a ch d

/-- XFILL (R260). -/
def execXfill (b a : Reg) (ch : BitVec 3) (d : Reg) : State → Out := copyOp 3 b a ch d

/-- XRED (R261). -/
def execXred (b a : Reg) (ch : BitVec 3) (d : Reg) : State → Out := copyOp 4 b a ch d

/-- XCOLL (R263). -/
def execXcoll (b a : Reg) (ch : BitVec 3) (d : Reg) : State → Out := copyOp 5 b a ch d

/-- Whether an identifier is covered by XC_DONE, or names no incomplete copy (R256). -/
def State.covered (s : State) (k ch : Nat) (t : BitVec 32) : Bool :=
  decide ((Tab.get 0 (s.core k).done ch - t).toNat < 2 ^ 31) || !(s.channel k ch).any (fun c => c.xid == t)

/-- The incomplete copies of a channel numbered up to an identifier, in issue order. -/
def State.upTo (s : State) (k ch : Nat) (t : BitVec 32) : List Copy :=
  let l := s.channel k ch
  l.takeWhile (fun c => c.xid != t) ++ l.filter (fun c => c.xid == t)

/-- The latest promise of a list of copies. -/
def lastPromise (l : List Copy) : Nat := l.foldl (fun n c => max n c.prom.toNat) 0

/-- Promises that TB has reached renewed (R267). -/
def State.renewAll (s : State) (cl : Nat) (l : List Copy) : State := l.foldl (fun s c => s.renew cl c) s

/-- XWAIT (R268): coverage wins over the promise, and completes with the acquire of R266. While it waits for the copy it keeps D of its
first turn, and has no effect (R62); once covered it waits for what the acquire waits for. -/
def execXwait (a : Reg) (ch : BitVec 3) : State → Out :=
  issue { word := wordK 18 6 ch.toNat 0 a.toNat 0, srcs := [a], sub := 1, leaves := true } (fun s xs =>
    let k := s.curCore
    let t := (arg xs 0).setWidth 32
    if s.thr.stage = 2 || s.covered k ch.toNat t then
      if s.owes s.cur Body.isLoad || s.thr.vecAccessesOut then .wait (s.setStage 2) false
      else .done (s.acquire k s.regmask 0 7) []
    else
      let l := s.upTo k ch.toNat t
      let due := if s.thr.vals = [wordOf t.toNat] then s.thr.arg else lastPromise l
      if s.tb.toNat < due then .parkWith (fun s => s.setThr { s.thr with vals := [wordOf t.toNat], arg := due })
      else
        .instead (fun s =>
          let s := s.renewAll (k / 16) l
          s.trapTurn .lateCopy (wordOf (lastPromise (s.upTo k ch.toNat t)))))

end Sys2Proof.Machine
end

