-- ==== Sys2Proof/Machine/Launch.lean ====
section
/-! DEFINITION. The launch unit on the hub (R337 to R350, R420, R430): launch records and their checks, images, the task
graph, admission, placement and start records, and completion records. -/

namespace Sys2Proof.Machine

/-! ### The launch record (R335, R337) -/

/-- The fields of a launch record. -/
def launchRec (b : List Byte) : LaunchRec :=
  { image := recField b 0 8, entry := recField b 8 4, shape := recField b 12 1, threads := recField b 13 1,
    cores := recField b 14 1, clusters := recField b 15 1, count := recField b 16 4, vlc := recField b 20 1,
    lanes := recField b 21 1, accs := recField b 22 1, sprows := recField b 23 1, prio := recField b 24 1,
    sflags := recField b 25 1, rsv := recField b 26 2, energy := recField b 28 4,
    deps := (List.range 4).map (fun i => recField b (32 + 4 * i) 4), arg := wordOf (recField b 48 8),
    cplt := wordOf (recField b 56 8) }

/-- SHAPE's bits: SPAN, XFER and STRIP. -/
def LaunchRec.span (r : LaunchRec) : Bool := r.shape % 2 == 1
def LaunchRec.xfer (r : LaunchRec) : Bool := r.shape / 2 % 2 == 1
def LaunchRec.isStrip (r : LaunchRec) : Bool := r.shape / 4 % 2 == 1

/-- Threads of one instance, and of the whole launch (R335). -/
def LaunchRec.perInst (r : LaunchRec) : Nat := r.threads * r.cores * r.clusters
def LaunchRec.total (r : LaunchRec) : Nat := r.count * r.perInst

/-- A number of lane groups a thread may ask for. -/
def laneCount (n : Nat) : Bool := n == 0 || n == 1 || n == 2 || n == 4

/-- The first strip element of a thread, and how many it has (R338). -/
def stripFirst (n total t : Nat) : Nat := t * n / total
def stripCount (n total t : Nat) : Nat := stripFirst n total (t + 1) - stripFirst n total t

/-- A strip base advanced to an element (R338): RAW counts 1 byte. -/
def stripBase (b : Word) (first : Nat) : Word :=
  ptrWith b (ptrAddr b + first * fmtSize (ptrFmt b) 1)

/-- The account capacity of a partition in µJ (R430). -/
def Partition.capacity (p : Partition) : Nat := p.capw.toNat * 100000

/-- The LID after `n` have been given (R342): they rise modulo 2^32 and skip 0. -/
def lidOf (n : Nat) : Nat := (n - 1) % (2 ^ 32 - 1) + 1

/-- Whether a partition has issued a LID (R339). -/
def Partition.issuedLid (p : Partition) (d : Nat) : Bool := decide (2 ^ 32 - 1 ≤ p.lastLid ∨ d ≤ p.lastLid)

/-- The checks of R339 on the record's own fields: the offset each reports and whether it fails. A check on two fields reports the
higher offset. -/
def LaunchRec.tests (r : LaunchRec) (p : Partition) : List (Nat × Bool) :=
  [(8, r.entry % 4 != 0), (12, 8 ≤ r.shape),
   (13, !(1 ≤ r.threads && r.threads ≤ 15) || (r.xfer && r.threads == 1)),
   (14, !(1 ≤ r.cores && r.cores ≤ 16)),
   (15, !(1 ≤ r.clusters && r.clusters ≤ 16) || (!r.span && r.clusters != 1)),
   (16, r.count == 0 || decide (2 ^ 32 < r.total)),
   (20, decide (16 < r.vlc)),
   (21, !laneCount r.lanes || decide (4 < r.threads * r.lanes) || (r.lanes == 0) != (r.vlc == 0)), (22, decide (8 < r.accs) || decide (8 < r.threads * r.accs)),
   (23, !(1 ≤ r.sprows && r.sprows ≤ 64)), (24, 4 ≤ r.prio), (25, 2 ≤ r.sflags), (26, r.rsv != 0),
   (28, decide (p.capacity < r.energy))]
  ++ r.deps.zipIdx.map (fun d => (32 + 4 * d.2, d.1 != 0 && !p.issuedLid d.1))
  ++ [(48, r.isStrip && (ptrPath r.arg != 0 || ptrAddr r.arg % 8 != 0)),
      (56, r.cplt != 0 && (ptrPath r.cplt != 0 || ptrAddr r.cplt % 32 != 0))]

/-- Whether a strip base is refused: its format, or an advanced address past the address field (R106, R339). -/
def badStripBase (b : Word) (last : Nat) : Bool :=
  let f := ptrFmt b
  fmtBlock f || f == 17 || decide (19 ≤ f) || decide (2 ^ 53 ≤ ptrAddr b + last * fmtSize f 1)

/-- A doubleword of a context's GEN space read at its home pier, none where its walk does not allow a read. -/
def State.hubRead (s : State) (ctx va n : Nat) : Option (List Byte) :=
  if (s.rangeFault ctx va n 0).isSome then none else some (s.genRead ctx va n)

/-- The checks of R339 on the argument block of a STRIP launch, and the count and bases it holds. Neither is read through a bad ARG,
and no base past the four of M. -/
def State.readStrip (s : State) (ctx : Nat) (r : LaunchRec) : List (Nat × Bool) × Option (Nat × List Word) :=
  let at_ := ptrAddr r.arg
  if !r.isStrip || ptrPath r.arg != 0 || at_ % 8 != 0 then ([], none)
  else
    match s.hubRead ctx at_ 16 with
    | none => ([(48, true)], none)
    | some h =>
      let n := recField h 0 8
      let m := recField h 8 8
      let own := [(64, decide (2 ^ 32 ≤ n)), (72, decide (4 < m))]
      match if m = 0 ∨ 4 < m then some [] else s.hubRead ctx (at_ + 16) (8 * m) with
      | none => ((48, true) :: own, none)
      | some b =>
        let bases := (List.range (min m 4)).map (fun k => wordOf (recField b (8 * k) 8))
        (own ++ bases.zipIdx.map (fun x => (80 + 8 * x.2, badStripBase x.1 (stripFirst n r.total (r.total - 1)))), some (n, bases))

/-- What the launch unit finds in a record it reads in: the strip, or the lowest offset that a failing check reports (R339). -/
def State.checkLaunch (s : State) (p ctx : Nat) (r : LaunchRec) : Except Nat (Option (Nat × List Word)) :=
  let strip := s.readStrip ctx r
  match ((r.tests (s.part p) ++ strip.1).filter (fun x => x.2)).map (·.1) with
  | [] => .ok strip.2
  | o :: os => .error (os.foldl min o)

/-! ### Images (R349, R350) -/

/-- An entry of a KXO object's image directory. -/
structure ImageEntry where
  gen : Nat
  version : Nat
  features : Word
  textOff : Nat
  textLen : Nat
  dataOff : Nat
  dataLen : Nat
  deriving DecidableEq, Repr

/-- The image directory of a KXO object; empty where its header is not one. -/
def kxoImages (b : List Byte) : List ImageEntry :=
  if recField b 0 4 ≠ 0x314F584B ∨ recField b 6 2 ≠ 1 then []
  else
    (List.range (recField b 4 2)).map (fun e =>
      let o := 16 + 32 * e
      { gen := recField b o 1, version := recField b (o + 2) 2, features := wordOf (recField b (o + 8) 8),
        textOff := recField b (o + 16) 4, textLen := recField b (o + 20) 4, dataOff := recField b (o + 24) 4,
        dataLen := recField b (o + 28) 4 })

/-- The feature bits of a D9 a partition may use (R349, R350). -/
def Partition.features (p : Partition) : Word := 0x7F &&& ~~~ setBit p.featmask 0 false

/-- Whether an entry goes before another: highest GEN, then highest VERSION (R350). -/
def ImageEntry.above (x y : ImageEntry) : Bool := decide (y.gen < x.gen) || (x.gen == y.gen && decide (y.version < x.version))

/-- The image the launch unit selects, of those that pass `ok` (R350). -/
def selectImage (b : List Byte) (ok : ImageEntry → Bool) : Option ImageEntry :=
  ((kxoImages b).filter ok).foldl (fun best x => match best with
    | some y => if x.above y then some x else best
    | none => some x) none

/-- An object resident in a partition, by its handle. -/
def State.object (s : State) (p handle : Nat) : Option Obj :=
  match Tab.find? s.objs handle with
  | some o => if o.part = p then some o else none
  | none => none

/-- The entry point of a launch: in the selected image of its object (R350). -/
def State.launchEntry (s : State) (p : Nat) (r : LaunchRec) : Option Word :=
  match s.object p r.image with
  | none => none
  | some o => (selectImage o.bytes (fun e => e.features &&& ~~~ (s.part p).features == 0)).map (fun e =>
      wordOf ((o.va.toNat + e.textOff + r.entry) % 2 ^ 53))

/-! ### Completion records (R347, R348, R416, R430) -/

/-- The 32 bytes of a completion record. -/
def Launch.record (l : Launch) (energy : Nat) (tb : Nat) : List Byte :=
  bytesLE 4 l.lid ++ bytesLE 1 l.status ++ bytesLE 1 l.verdict ++ bytesLE 2 (Nat.min l.killed 0xFFFF)
    ++ bytesLE 4 l.succid ++ bytesLE 4 energy ++ bytesLE 8 (if l.status ≤ 1 then tb - l.admitTb else 0)
    ++ bytesLE 8 ((l.err.getD 0).toNat)

/-- Whether every thread of a placed instance has been reaped, killed or handed on (R348). -/
def Inst.finished (n : Inst) : Bool := n.plan.isEmpty && n.started.all (fun x => n.reaped.contains x.2.2)

/-- Whether a launch's completion record is due (R347, R348). -/
def Launch.due (l : Launch) : Bool :=
  match l.phase with
  | .ended => true
  | .refused => true
  | .admitted => l.next == l.lrec.count && l.insts.all Inst.finished
  | _ => false

/-- Whether CPLT names a place for the record itself. -/
def Launch.hasPlace (l : Launch) : Bool := l.lrec.cplt != 0 && ptrPath l.lrec.cplt == 0 && ptrAddr l.lrec.cplt % 32 == 0

/-- A ring's size, and the address of its record (R416). -/
def ringSize (base : Word) : Nat := 2 ^ bits base 3 0
def ringAt (base : Word) (size i : Nat) : Nat := bits base 52 6 * 64 + size * (i % ringSize base)

/-- Where a completion record goes, once it can be written: its address, and the interface's queue if it is one. -/
def State.recordPlace (s : State) (l : Launch) : Option (Nat × Bool) :=
  let v := s.vi l.vi
  if l.hasPlace then (if (s.rangeFault l.ctx (ptrAddr l.lrec.cplt) 32 1).isSome then none else some (ptrAddr l.lrec.cplt, false))
  else if (v.cqtail - v.cqhead).toNat = ringSize v.cqbase then none
  else
    let a := ringAt v.cqbase 32 v.cqtail.toNat
    if (s.rangeFault v.ctx a 32 1).isSome then none else some (a, true)

/-- An energy account credited with an amount, never above its capacity (R430). -/
def Partition.credit (p : Partition) (e : Int) : Partition := { p with bal := min (p.capacity : Int) (p.bal + e) }

/-- The completion record of a launch written, the account settled, and the graph told (R342, R347, R348, R430). A refused
launch leaves nothing in the table. -/
def State.writeRecord (s : State) (p : Nat) (l : Launch) (energy : Nat) : State :=
  match s.recordPlace l with
  | none => s
  | some (a, queue) =>
    let ran := decide (l.status ≤ 1)
    let e := if ran then energy else 0
    let s := s.genWrite (if queue then (s.vi l.vi).ctx else l.ctx) a (l.record e s.tb.toNat)
    let s := if queue then s.setVi l.vi { s.vi l.vi with cqtail := (s.vi l.vi).cqtail + 1 } else s
    let x := s.part p
    let x := if ran then x.credit ((l.lrec.energy : Int) - e) else x
    s.setPart p { x with
      graph := if l.phase = .refused then x.graph.filter (fun m => m.lid != l.lid)
               else x.graph.map (fun m => if m.lid == l.lid then { m with phase := .recorded } else m) }

/-- COMPLETION_RECORD_WRITE: once every thread of every instance is gone, or the launch has ended without any, its record
is written (R348); `energy` is the counted energy (R430). -/
def execCompletionRecordWrite (part lid : Nat) (energy : BitVec 32) (s : State) : Out :=
  match s.launch? part lid with
  | some l => if l.due then .next (s.writeRecord part l energy.toNat) else .next s
  | none => .next s

/-! ### The task graph (R342, R343) -/

/-- Entries that the shares of partitions 0 to `n` − 1 take together, and the share of partition `q`: Config deals them out, at least one
to each of the 16, and no more than the table's 4,096 in all (R19, R342). -/
def Partition.sharesTo : Nat → Nat
  | 0 => 0
  | n + 1 => Partition.sharesTo n + (Config.graphShare n % (4096 - Partition.sharesTo n - (15 - n)) + 1)
def Partition.share (q : Nat) : Nat := Config.graphShare q % (4096 - Partition.sharesTo q - (15 - q)) + 1

/-- Whether a launch holds an entry of the table. -/
def Launch.holdsEntry (l : Launch) : Bool := l.phase != .refused

/-- Whether a completed entry may leave the table (R342). -/
def Launch.mayLeave (l : Launch) : Bool := l.phase == .recorded && (decide (l.verdict < 2) || l.ruled)

/-- The table with room for one more entry, if it has or can make it: the oldest completed entry leaves (R342). -/
def State.graphRoom (s : State) (p : Nat) : Option State :=
  let x := s.part p
  if (x.graph.filter Launch.holdsEntry).length < Partition.share p then some s
  else
    match x.graph.find? Launch.mayLeave with
    | some l => some (s.setPart p { x with graph := x.graph.filter (fun m => m.lid != l.lid) })
    | none => none

/-- Whether a dependence is satisfied (R342). -/
def Partition.depMet (x : Partition) (d : Nat) : Bool :=
  d == 0 || (match x.graph.find? (fun l => l.lid == d) with
    | some l => l.phase == .refused || l.released || (l.phase == .recorded && decide (l.verdict < 2))
    | none => true)

/-- Whether every dependence of a launch is satisfied. -/
def Partition.ready (x : Partition) (l : Launch) : Bool := l.lrec.deps.all x.depMet

/-- A launch record read in: it takes the next LID, and is refused, without an image, or queued (R339, R342, R350). Room in
the table has been made. -/
def State.submit (s : State) (p ctx vi : Nat) (r : LaunchRec) : Nat × State :=
  let x := s.part p
  let v := s.vi vi
  let lid := lidOf (x.lastLid + 1)
  let found := s.checkLaunch p ctx r
  let s := s.setPart p { x with lastLid := x.lastLid + 1 }
  let add := fun (l : Launch) => s.setPart p { s.part p with graph := (s.part p).graph ++ [l] }
  let l : Launch := { lid := lid, ctx := ctx, vi := vi, lrec := r, prio := max (r.prio % 4) v.viprio }
  match found with
  | .error o =>
    let l := { l with phase := .refused, status := 3, err := some (wordOf o) }
    (lid, (add l).writeRecord p l 0)
  | .ok strip =>
    match s.launchEntry p r with
    | none =>
      let l := { l with phase := .ended, status := 4 }
      (lid, (add l).writeRecord p l 0)
    | some e => (lid, add { l with entry := e, strip := strip })

/-- The launches that a discard of one ends: its dependents still queued, and theirs, transitively (R342). -/
def discardSet (g : List Launch) : Nat → List Nat → List Nat
  | 0, ds => ds
  | fuel + 1, ds =>
    let more := (g.filter (fun l => l.phase == .queued && !ds.contains l.lid && l.lrec.deps.any ds.contains)).map Launch.lid
    if more.isEmpty then ds else discardSet g fuel (ds ++ more)

/-- The held dependents of a tainted launch discarded (R342). -/
def State.discardDependents (s : State) (p lid : Nat) : State :=
  let x := s.part p
  let ds := (discardSet x.graph x.graph.length [lid]).filter (fun d => d != lid)
  s.setPart p { x with graph := x.graph.map (fun l =>
    if ds.contains l.lid then { l with phase := .ended, status := 2 }
    else if l.lid == lid then { l with ruled := true } else l) }

/-! ### Admission (R340, R341, R420) -/

/-- The admissible launch of a priority: the oldest whose dependences are satisfied, if the account covers it. -/
def Partition.admissible (x : Partition) (prio : Nat) : Option Launch :=
  match x.graph.find? (fun l => l.phase == .queued && l.prio == prio && x.ready l) with
  | some l => if (l.lrec.energy : Int) ≤ x.bal then some l else none
  | none => none

/-- LAUNCH_ADMIT: the calendar names a priority, and its oldest admissible launch is admitted, with its energy debited
(R340) and the rank numbering of its interface (R420). -/
def execLaunchAdmit (part : Nat) (s : State) : Out :=
  let x := s.part part
  let p := (slotsOf x.lwgt).getD x.lwptr 0
  let pick := ([p] ++ [0, 1, 2, 3]).findSome? (fun q => x.admissible q)
  match pick with
  | none => .next s
  | some l =>
    let v := s.vi l.vi
    let l := { l with phase := .admitted, admitTb := s.tb.toNat, rkbase := v.rkbase, rken := v.rken, rkpin := v.rkpin }
    .next (s.setPart part { x with
      bal := x.bal - l.lrec.energy, lwptr := (x.lwptr + 1) % 16,
      -- admission order is the order the placer keeps (R344)
      graph := x.graph.filter (fun m => m.lid != l.lid) ++ [l] })

/-- The copy-engine budgets that the energy planner gives the clusters of a partition: its method is no part of the spec, so each is a
free value (R19, R267, assumption 2). -/
def State.planBudgets (s : State) (q : BitVec 16) : State :=
  (List.range 64).foldl (fun (s : State) c =>
    if inQuarters q (16 * c) then
      { (s.setCluster c { s.cluster c with budget := Config.freeValue s.fresh }) with fresh := s.fresh + 1 }
    else s) s

/-- ENERGY_ACCRUAL: a microsecond of TB credits the account with CAPW µJ (R430), and the energy planner sets the budgets of the
partition's copy engines (R19, R267). -/
def execEnergyAccrual (part : Nat) (s : State) : Out :=
  match Tab.find? s.parts part with
  | some x =>
    if x.accrued < s.tb.toNat / 1100 then
      .next ((s.setPart part { x.credit x.capw.toNat with accrued := x.accrued + 1 }).planBudgets x.quarters)
    else .next s
  | none => .next s

/-! ### Placement and start records (R344, R345) -/

/-- The threads of a partition's launches whose start records are out, with their launches. -/
def Partition.planned (x : Partition) : List (Launch × Inst × Nat × Nat × Nat) :=
  x.graph.flatMap (fun l => l.insts.flatMap (fun n => n.plan.map (fun t => (l, n, t))))

/-- Whether user slot `i` of a core is free: no thread in it, and none on its way. -/
def State.slotFree (s : State) (x : Partition) (k i : Nat) : Bool :=
  i != 0 && !s.slotBound k i && !x.planned.any (fun t => t.2.2.1 == k && t.2.2.2.1 == i)

/-- The free user slots of a core, ascending. -/
def State.freeSlots (s : State) (x : Partition) (k : Nat) : List Nat := (List.range 16).filter (s.slotFree x k)

/-- The slots a crew takes: with XFER its last thread takes slot 15 (R344). -/
def State.crewSlots (s : State) (x : Partition) (k : Nat) (r : LaunchRec) : Option (List Nat) :=
  let free := s.freeSlots x k
  if r.xfer then
    let low := (free.filter (fun i => i != 15)).take (r.threads - 1)
    if free.contains 15 && low.length + 1 == r.threads then some (low ++ [15]) else none
  else
    let low := free.take r.threads
    if low.length = r.threads then some low else none

/-- Whether scratchpad rows of a core are free. -/
def State.rowsFree (s : State) (x : Partition) (k base n : Nat) : Bool :=
  let meets := fun (b m : Nat) => decide (b < base + n ∧ base < b + m)
  decide (base + n ≤ 64) && !(s.core k).crews.any (fun c => meets c.2.base c.2.rows)
    && !x.graph.any (fun l => l.insts.any (fun m => !m.plan.isEmpty && m.cores.any (fun c => c.1 == k && meets c.2 l.lrec.sprows)))

/-- Tiles of a core's pool that are reserved, by threads there and on their way. -/
def State.tilesUsed (s : State) (x : Partition) (k : Nat) : Nat :=
  (s.core k).slots.foldl (fun n t => n + t.2.accQuota) 0
    + (x.planned.filter (fun t => t.2.2.1 == k)).foldl (fun n t => n + t.1.lrec.accs) 0

/-- Vector contexts and lane groups of a quad that are reserved. -/
def State.lanesUsed (s : State) (x : Partition) (q : Nat) : Nat × Nat :=
  let res := (List.range 4).flatMap (fun j => (s.core (4 * q + j)).slots.map (fun t => t.2.laneReq))
    ++ (x.planned.filter (fun t => t.2.2.1 / 4 == q)).map (fun t => t.1.lrec.lanes)
  ((res.filter (fun n => n != 0)).length, res.foldl (· + ·) 0)

/-- Whether a core has room for one crew of a launch, rows apart; `before` crews of it go to the core's quad too. -/
def State.coreRoom (s : State) (x : Partition) (r : LaunchRec) (k before : Nat) : Bool :=
  let (ctxs, groups) := s.lanesUsed x (k / 4)
  (s.crewSlots x k r).isSome && decide (s.tilesUsed x k + r.threads * r.accs ≤ 8)
    && (r.lanes == 0 || (decide (ctxs + (before + 1) * r.threads ≤ 4)
      && decide (groups + (before + 1) * r.threads * r.lanes ≤ 4)))

/-- Whether a core has room for a crew, rows included. -/
def State.crewRoom (s : State) (x : Partition) (r : LaunchRec) (k before : Nat) : Bool :=
  s.coreRoom x r k before && (List.range 64).any (fun b => s.rowsFree x k b r.sprows)

/-- How many crews of a launch a cluster has room for. -/
def State.gangRoom (s : State) (x : Partition) (r : LaunchRec) (cl : Nat) : Nat :=
  (List.range 4).foldl (fun n q =>
    n + (List.range 4).foldl (fun m j => if s.crewRoom x r (16 * cl + 4 * q + j) m then m + 1 else m) 0) 0

/-- Whether the next instance of a launch fits somewhere in its partition (R24, R344). -/
def State.fits (s : State) (x : Partition) (r : LaunchRec) : Bool :=
  (List.range 4).any (fun d =>
    decide (r.clusters ≤ ((List.range 16).filter (fun c =>
      x.quarters.getLsbD (4 * d + c / 4) && decide (r.cores ≤ s.gangRoom x r (16 * d + c)))).length))

/-- Whether a list of cores and first rows is a place for an instance (R335, R344): each gang in one cluster, every
cluster on one die, every core of the partition and with room. -/
def State.placeOk (s : State) (x : Partition) (r : LaunchRec) (cores : List (Nat × Nat)) : Bool :=
  let ks := cores.map (·.1)
  cores.length == r.cores * r.clusters && ks.eraseDups.length == ks.length
    && cores.zipIdx.all (fun y =>
      let k := y.1.1
      let lead := (cores.getD (y.2 / r.cores * r.cores) (0, 0)).1
      decide (k < Config.cores) && x.quarters.getLsbD (quarterOfCore k) && k / 16 == lead / 16
        && k / 256 == (cores.getD 0 (0, 0)).1 / 256
        && s.coreRoom x r k ((cores.take y.2).filter (fun z => z.1 / 4 == k / 4)).length
        && s.rowsFree x k y.1.2 r.sprows)
    && ((List.range r.clusters).map (fun u => (cores.getD (u * r.cores) (0, 0)).1 / 16)).eraseDups.length == r.clusters

/-- The launch whose next instance the placer may place before `lid`'s: an earlier admitted one that fits (R344). -/
def State.placeBefore (s : State) (x : Partition) (lid : Nat) : Bool :=
  (x.graph.takeWhile (fun l => l.lid != lid)).any (fun l => l.phase == .admitted && decide (l.next < l.lrec.count) && s.fits x l.lrec)

/-- RANKW of a thread (R345, R420). -/
def Launch.rankw (l : Launch) (tidx : Nat) : Nat :=
  (l.rkbase + tidx) % 2 ^ 20 + boolNat l.rkpin * 2 ^ 20 + boolNat l.rken * 2 ^ 21 + (l.lrec.sprows - 1) * 2 ^ 22

/-- The four words of a thread's start record (R345). -/
def Launch.startRecord (l : Launch) (tidx slot row : Nat) (lead xfer : Bool) : List Word :=
  let (first, count) := match l.strip with
    | some (n, _) => (stripFirst n l.lrec.total tidx, stripCount n l.lrec.total tidx)
    | none => (0, 0)
  [l.entry, wordOf (l.lid + tidx * 2 ^ 32), wordOf (first + count * 2 ^ 32),
   wordOf (slot + boolNat lead * 16 + boolNat xfer * 32 + (l.lrec.lanes + 16 * l.lrec.accs) * 2 ^ 8 + l.lrec.vlc * 2 ^ 16
     + row * 2 ^ 24 + l.rankw tidx * 2 ^ 32)]

/-- The threads of an instance at a place: core, slot and TIDX, with the first row of their crew. -/
def State.instPlan (s : State) (x : Partition) (l : Launch) (cores : List (Nat × Nat)) : List ((Nat × Nat × Nat) × Nat) :=
  let r := l.lrec
  cores.zipIdx.flatMap (fun y =>
    ((s.crewSlots x y.1.1 r).getD []).zipIdx.map (fun z =>
      ((y.1.1, z.1, (l.next * r.clusters * r.cores + y.2) * r.threads + z.2), y.1.2)))

/-- INSTANCE_PLACE: the next instance of a launch is placed whole, on cores and first rows that the placer chooses, and each
of its threads gets a start record (R344, R345). -/
def execInstancePlace (part lid : Nat) (cores : List (Nat × Nat)) (s : State) : Out :=
  let x := s.part part
  match s.launch? part lid with
  | none => .next s
  | some l =>
    if l.phase ≠ .admitted ∨ l.lrec.count ≤ l.next ∨ !s.placeOk x l.lrec cores ∨ s.placeBefore x lid then .next s
    else
      let plan := s.instPlan x l cores
      let n : Inst := { num := l.next, cores := cores, plan := plan.map (·.1) }
      let s := s.setLaunch part { l with next := l.next + 1, insts := l.insts ++ [n] }
      .next (plan.foldl (fun s t =>
        let (k, i, tidx) := t.1
        let w := l.startRecord tidx i t.2 (tidx % l.lrec.perInst == 0) (l.lrec.xfer && tidx % l.lrec.threads == l.lrec.threads - 1)
        s.send { net := .msg, ctx := l.ctx, cls := 2, src := hubPort, dst := k, body := .hubMsg 0 w }) s)

end Sys2Proof.Machine
end

