-- ==== Sys2Proof/Machine/Threads.lean ====
section
/-! DEFINITION. The THR class and succession (R351 to R364): TSTART, TREAP, TKILL, TSTAT, TSELF, EXIT, RETIRE, SUCC and
LAUNCH, the lane allocator (R172), and what frees a slot and a crew. -/

namespace Sys2Proof.Machine

/-- The word of a THR instruction (R351). -/
def wordThr (f7 b a d : Nat) : Nat := wordK 23 f7 0 b a d

/-- A slot operand, or its FORMAT_FAULT (R351). -/
def withSlot (v : Word) (k : Nat → Res) : Res := if v.toNat / 16 ≠ 0 then .trap .formatFault v else k v.toNat

/-! ### Instances and their members -/

/-- The TIDX of every member of an instance. -/
def Inst.members (n : Inst) (r : LaunchRec) : List Nat := (List.range r.perInst).map (fun j => n.num * r.perInst + j)

/-- Whether every member has exited, retired or been killed (R362). -/
def Inst.allGone (n : Inst) (r : LaunchRec) : Bool := (n.members r).all n.gone.contains

/-- Where a started member is: core and slot. -/
def Inst.placeOf (n : Inst) (tidx : Nat) : Option (Nat × Nat) :=
  (n.started.find? (fun x => x.2.2 == tidx)).map (fun x => (x.1, x.2.1))

/-- Whether a crew still has a member that is not reaped, started or on its way. -/
def Inst.crewLive (n : Inst) (r : LaunchRec) (ord : Nat) : Bool :=
  (n.plan ++ n.started).any (fun x => x.2.2 / r.threads == ord && !n.reaped.contains x.2.2)

/-- The core of a crew of an instance. -/
def Inst.crewCore (n : Inst) (r : LaunchRec) (ord : Nat) : Option Nat :=
  ((n.cores[ord % (r.cores * r.clusters)]?).map (·.1))

/-- The launch and instance of a thread on a core of a partition. -/
def State.instAt (s : State) (k : Nat) (t : Thread) : Option (Nat × Launch × Inst) :=
  match s.partOfCore k with
  | none => none
  | some p =>
    match s.launch? p t.lid.toNat with
    | none => none
    | some l => (l.insts.find? (fun n => n.num == instOf l.lrec t.tidx.toNat)).map (fun n => (p, l, n))

/-- A launch with an instance replaced. -/
def Launch.setInst (l : Launch) (n : Inst) : Launch :=
  { l with insts := l.insts.map (fun m => if m.num = n.num then n else m) }

/-- A change to the instance of the thread of a slot. -/
def State.onInstOf (s : State) (k i : Nat) (f : Nat → Inst → Inst) : State :=
  let x := (s.thrOf (.slot k i)).tidx.toNat
  s.onLaunch k i (fun l => { l with insts := l.insts.map (fun n => if n.num = instOf l.lrec x then f x n else n) })

/-! ### Freeing a slot and a crew (R303, R354) -/

/-- A write to core-shared state by a steward's instruction, or by what ends a thread: seen from the fourth F-cycle on (R73). -/
def State.pendAll (s : State) (k : Nat) (ws : List Pend) : State := ws.foldl (fun s w => s.pendWrite k w) s

/-- What leaves with a thread, however it goes: its slot, its lane groups and waiting request, its pipes, TEN where it was
the transfer slot's, and the pins of a context no longer on the core (R142, R172, R254). -/
def State.vacate (s : State) (k i : Nat) : State :=
  let t := s.thrOf (.slot k i)
  let c := s.core k
  let s := (s.setCore k { c with slots := Tab.erase c.slots i }).pendAll k (if i = 15 then [.ten none] else [])
  let q := s.quad (k / 4)
  let s := s.setQuad (k / 4) { q.release k i with laneWait := q.laneWait.filter (fun w => !(w.1 == k && w.2.1 == i)) }
  s.unpin k t.ctx

/-- The bindings of classes 1 to 14 to a slot cleared with their queued messages (R73), and its fill-buffer entries (R303); its
tile tasks go too. -/
def State.clearSlot (s : State) (k i : Nat) : State :=
  let c := s.core k
  let s := (s.setCore k { c with
    fillbuf := c.fillbuf.filter (fun f => f.slot != i)
    divs := c.divs.filter (fun d => d.slot != i) }).pendWrite k (.slotGone i)
  let q := s.quad (k / 4)
  s.setQuad (k / 4) { q with tasks := q.tasks.filter (fun x => !(x.core == k && x.slot == i)) }

/-- A crew gone from its core: its rows are scrubbed and freed, and its windows, its mailboxes, its queues, and COR_XCTL if it held
it, are cleared (R73, R255, R354). -/
def State.dropCrew (s : State) (k idx : Nat) : State :=
  let c := s.core k
  match Tab.find? c.crews idx with
  | none => s
  | some x =>
    ((s.setCore k { c with
      spad := c.spad.clear (8192 * x.base) (8192 * x.rows)
      crews := Tab.erase c.crews idx }).pendWrite k (.crewGone idx x.qmask)).clearPoison 1 k (8192 * x.base) (8192 * x.rows)

/-- The crew of a thread that has left, dropped if it was its last (R354). -/
def State.leaveCrew (s : State) (k : Nat) (t : Thread) : State :=
  match s.instAt k t with
  | some (_, l, n) =>
    if n.crewLive l.lrec t.ord then s else s.dropCrew ((n.crewCore l.lrec t.ord).getD k) t.crew
  | none =>
    if (s.core k).slots.any (fun x => x.2.crew == t.crew && x.2.lid == t.lid && x.2.ord == t.ord) then s
    else s.dropCrew k t.crew

/-- A slot freed with all its thread held (R354): reaped, killed, or handed nothing on by succession. -/
def State.freeSlot (s : State) (k i : Nat) : State :=
  let t := s.thrOf (.slot k i)
  let s := s.onInstOf k i (fun x n => { n with reaped := x :: n.reaped })
  ((s.clearSlot k i).vacate k i).leaveCrew k t

/-! ### The lane allocator (R172) -/

/-- The lane groups a request gets from the free ones. -/
def laneGrant (free : List Nat) (n : Nat) : Option (List Nat) :=
  let have_ := fun (l : List Nat) => l.all free.contains
  match n with
  | 1 => ([0, 1, 2, 3].find? free.contains).map (fun g => [g])
  | 2 => if have_ [0, 1] then some [0, 1] else if have_ [2, 3] then some [2, 3] else none
  | 4 => if have_ [0, 1, 2, 3] then some [0, 1, 2, 3] else none
  | _ => some []

/-- The lane groups of a quad that no thread holds. -/
def State.freeLanes (s : State) (q : Nat) : List Nat :=
  let used := (List.range 4).flatMap (fun j => (s.core (4 * q + j)).slots.flatMap (fun t => t.2.lanes))
  [0, 1, 2, 3].filter (fun g => !used.contains g)

/-- LANE_GRANT: the first waiting request of a quad is granted once its pattern is free (R172). -/
def execLaneGrant (quad : Nat) (s : State) : Out :=
  let q := s.quad quad
  match q.laneWait with
  | [] => .next s
  | (k, i, n) :: rest =>
    match laneGrant (s.freeLanes quad) n with
    | none => .next s
    | some gs =>
      let s := s.setQuad quad { q with laneWait := rest }
      let t := s.thrOf (.slot k i)
      .next (s.setThrOf (.slot k i) { t with lanes := gs })

/-- A lane request of a slot that enters the allocator. -/
def State.askLanes (s : State) (k i n : Nat) : State :=
  let q := s.quad (k / 4)
  s.setQuad (k / 4) { q with laneWait := q.laneWait ++ [(k, i, n)] }

/-! ### TSTART (R345, R346, R352) -/

/-- The fields of a start record (R345). -/
structure StartRec where
  entry : Word
  lid : Nat
  tidx : Nat
  sfirst : Nat
  scount : Nat
  slot : Nat
  lead : Bool
  xfer : Bool
  lanes : Nat
  accs : Nat
  vlc : Nat
  base : Nat
  rankw : Nat
  bad : Bool
  deriving DecidableEq, Repr

/-- The rows of a start record's crew. -/
def StartRec.rows (r : StartRec) : Nat := r.rankw / 2 ^ 22 % 64 + 1

/-- RANKW.V of a start record. -/
def StartRec.ranked (r : StartRec) : Bool := r.rankw / 2 ^ 21 % 2 == 1

/-- A start record read: `bad` where a reserved bit is set or a count is outside its range. -/
def startRec (b : List Byte) : StartRec :=
  let sl := recField b 24 1
  let res := recField b 25 1
  let w := recField b 28 4
  { entry := wordOf (recField b 0 8), lid := recField b 8 4, tidx := recField b 12 4, sfirst := recField b 16 4,
    scount := recField b 20 4, slot := sl % 16, lead := sl / 16 % 2 == 1, xfer := sl / 32 % 2 == 1, lanes := res % 8,
    accs := res / 16, vlc := recField b 26 1, base := recField b 27 1, rankw := w,
    bad := decide (64 ≤ sl) || res / 8 % 2 == 1 || decide (64 ≤ recField b 27 1) || decide (2 ^ 28 ≤ w)
      || !laneCount (res % 8) || decide (16 < recField b 26 1) }

/-- THR_VL at a thread's start: min(256, CEIL / 4) (R175). -/
def startVl (vlc : Nat) : Word := wordOf (Nat.min 256 (64 * vlc / 4))

/-- The launch and instance that a start record names, where its crew is placed on a core (R352). -/
def State.startInst (s : State) (k : Nat) (r : StartRec) : Option (Nat × Launch × Inst) :=
  match s.partOfCore k with
  | none => none
  | some p =>
    match s.launch? p r.lid with
    | none => none
    | some l =>
      let ord := r.tidx / l.lrec.threads
      match l.insts.find? (fun n => n.num == instOf l.lrec r.tidx) with
      | some n => if l.phase == .admitted && n.crewCore l.lrec ord == some k && n.crewLive l.lrec ord then some (p, l, n) else none
      | none => none

/-- The crew of a core that a launch and a crew ordinal name, with its index. -/
def crewNamed (cs : Tab Crew) (lid ord : Nat) : Option (Nat × Crew) :=
  List.find? (fun c => c.2.lid.toNat == lid && c.2.ord == ord) cs

/-- The crew a start record joins on a core: its index, with the core's crews; none where its rows are not free (R352). -/
def State.joinCrew (s : State) (k : Nat) (r : StartRec) (l : Launch) : Option (Nat × Tab Crew) :=
  let ord := r.tidx / l.lrec.threads
  let cs := (s.core k).crews
  match crewNamed cs r.lid ord with
  | some c => some (c.1, cs)
  | none =>
    let meets := fun (c : Crew) => decide (c.base < r.base + r.rows ∧ r.base < c.base + c.rows)
    match ((List.range 16).drop 1).find? (fun i => (Tab.find? cs i).isNone) with
    | some i =>
      if 64 < r.base + r.rows ∨ cs.any (fun c => meets c.2) then none
      else some (i, Tab.set cs i { lid := BitVec.ofNat 32 r.lid, ord := ord, base := r.base, rows := r.rows, ctx := l.ctx })
    | none => none

/-- The registers a thread starts with (R346). -/
def startRegs (r : StartRec) (l : Launch) : Tab Word :=
  let bases := match l.strip with
    | some (_, bs) => bs.map (fun b => stripBase b r.sfirst)
    | none => []
  [(1, l.lrec.arg), (2, wordOf r.tidx), (3, wordOf r.lid), (4, wordOf r.sfirst)] ++ bases.zipIdx.map (fun b => (5 + b.2, b.1))

/-- The thread of a start record (R346). -/
def startThread (uid crew : Nat) (r : StartRec) (l : Launch) : Thread :=
  { uid := uid, ctx := l.ctx, crew := crew, ord := r.tidx / l.lrec.threads, lid := BitVec.ofNat 32 r.lid,
    tidx := BitVec.ofNat 32 r.tidx, lead := r.lead, xfer := r.xfer, pc := BitVec.ofNat 53 (ptrAddr r.entry),
    g := startRegs r l, laneReq := r.lanes, accQuota := r.accs, arriving := true,
    csr := { vl := startVl r.vlc, vlceil := wordOf (64 * r.vlc), strip := wordOf r.scount, rank := wordOf (r.rankw % 2 ^ 22) } }

/-- A thread bound to its slot by TSTART: its crew, its tiles, the transfer slot, and its place among its launch's threads
(R352). -/
def State.bindStart (s : State) (k : Nat) (r : StartRec) (p : Nat) (l : Launch) (n : Inst) (idx : Nat) (cs : Tab Crew) : State :=
  let c := s.core k
  let t := { startThread s.nextId idx r l with held := !n.saved.isEmpty }
  let s := (s.setCore k { c with crews := cs, slots := Tab.set c.slots r.slot t }).pendAll k (if r.xfer then [.ten (some idx)] else [])
  let n := { n with plan := n.plan.filter (fun x => x.2.2 != r.tidx), started := n.started ++ [(k, r.slot, r.tidx)] }
  { s.setLaunch p (l.setInst n) with nextId := s.nextId + 1 }

/-- The thread a steward's TSTART or TLOAD has brought issues from its next turn on, after the start acquire (R346, R352). -/
def State.release_ (s : State) (k i : Nat) (acquire : Bool) : State :=
  let s := if acquire then s.enterCore k else s
  let t := s.thrOf (.slot k i)
  s.setThrOf (.slot k i) { t with arriving := false, startCheck := true }

/-- The lane request of a start, once the rank's entry is written: stage 2 waits for the grant (R352). -/
def startLanes (s : State) (k i n : Nat) : Res :=
  if n = 0 then .done (s.release_ k i true) [0]
  else .wait ((s.askLanes k i n).setStage 2) false

/-- TSTART past its checks: the thread is bound, its rank's entry written (stage 1), and its lane groups requested. -/
def startGo (s : State) (k : Nat) (r : StartRec) (p : Nat) (l : Launch) (n : Inst) (idx : Nat) (cs : Tab Crew) : Res :=
  let s := (s.bindStart k r p l n idx cs).setArg r.slot
  if r.ranked then
    let w := s.coordOf k r.slot ||| wordOf (r.rankw / 2 ^ 20 % 2 * 2 ^ 22)
    .wait ((s.sendEntryWrite l.ctx (r.rankw % 2 ^ 20) w).setStage 1) false
  else startLanes s k r.slot r.lanes

/-- TSTART (R352). -/
def execTstart (a d : Reg) : State → Out :=
  issue { word := wordThr 0 0 a.toNat d.toNat, srcs := [a], dsts := [d], sub := 1, leaves := true, priv := 1 } (fun s xs =>
    let k := s.curCore
    let i := s.thr.arg
    let p := arg xs 0
    match s.thr.stage with
    | 1 => if s.owesEntry then .wait s false else startLanes s k i (s.thrOf (.slot k i)).laneReq
    | 2 => if (s.thrOf (.slot k i)).lanes.isEmpty then .wait s false else .done (s.release_ k i true) [0]
    | _ =>
      match s.checkPtr false p with
      | some c => .trap c p
      | none =>
        if ptrPath p ≠ 0 ∨ ptrAddr p % 32 ≠ 0 then .trap .pointerFault p
        else
          match s.threadRead k s.cur.slotNum p 32 with
          | .error f => parkFault f 0
          | .ok b =>
            let r := startRec b
            if r.slot = 0 ∨ s.slotBound k r.slot then .done s [1]
            else
              match s.startInst k r with
              | none => .done s [2]
              | some (q, l, n) =>
                if r.bad then .done s [2]
                else if r.ranked && (s.rankHome l.ctx (r.rankw % 2 ^ 20)).isNone then .done s [4]
                else
                  match s.joinCrew k r l with
                  | none => .done s [3]
                  | some (idx, cs) =>
                    if 8 < (s.core k).slots.foldl (fun m t => m + t.2.accQuota) 0 + r.accs then .done s [3]
                    else startGo s k r q l n idx cs)

/-! ### TREAP, TKILL, TSTAT and TSELF (R354, R355, R357, R358, R407) -/

/-- Copies of a thread handed to the engine and not complete. -/
def State.copiesOut (s : State) (k i uid : Nat) : Bool :=
  (s.cluster (k / 16)).copies.any (fun c => c.core == k && c.slot == i && c.uid == uid)

/-- Tile tasks of a slot: any, or those an engine runs. -/
def State.tasksOf (s : State) (k i : Nat) : List Task := (s.quad (k / 4)).tasks.filter (fun t => t.core == k && t.slot == i)

/-- Whether the thread of a slot owes no write: tasks, copies and VLDA reads (R245, R269, R354). -/
def State.owesNothing (s : State) (k i : Nat) : Bool :=
  let t := s.thrOf (.slot k i)
  (s.tasksOf k i).isEmpty && !s.copiesOut k i t.uid && t.vec.unlanded.isEmpty && !t.vecAccessesOut

/-- TREAP (R354). -/
def execTreap (a d : Reg) : State → Out :=
  issue { word := wordThr 1 0 a.toNat d.toNat, srcs := [a], dsts := [d], sub := 1, leaves := true, priv := 1 } (fun s xs =>
    withSlot (arg xs 0) (fun i =>
      let k := s.curCore
      if i = 0 ∨ !s.slotBound k i then .done s [2]
      else
        match (s.thrOf (.slot k i)).run with
        | .exited => if s.owesNothing k i then .done (s.freeSlot k i) [0] else .wait (s.setStage 1) false
        | .trapped => .done s [3]
        | _ => .done s [1]))

/-- The quench of a kill (R407): issue stops; pending tasks, unsent messages, waits at the homes, an accepted SENDQ and unconfirmed
vector work go; accesses that have met a data fault are dropped. -/
def State.quench (s : State) (k i : Nat) : State :=
  let a := Actor.slot k i
  let t := s.thrOf a
  let tags := t.vq.filterMap (fun x => if x.confirmed then none else match x.dst with | .queue q g => some (q, g) | _ => none)
  let s := s.withdraw a
  -- a lock request stays queued at its home, as one that a save leaves there (R321)
  let lock := fun (p : Packet) => match p.body with
    | .lockReq .. => true
    | .lockReply .. => true
    | _ => false
  let walk := fun (p : Packet) => match p.body with
    | .walk .. => true
    | _ => false
  let s := { s with packets := (s.packets.filter (fun (p : Packet) => !(p.owner == some a && (p.waiting && !lock p)))).map (fun (p : Packet) =>
    if p.owner == some a && (lock p || walk p) then { p with owner := none } else p) }
  let c := s.core k
  let sent := fun (e : SendEntry) => e.sent && s.packets.any (fun p => match p.body with
    | .msg j x _ _ => j == k && x.id == e.id
    | .msgReturn j x _ => j == k && x.id == e.id
    | .toHome j x => j == k && x.id == e.id
    | .rankFetch j x => j == k && x.id == e.id
    | .msgAck x j => j == k && x == e.id
    | .msgRefuse x j _ => j == k && x.id == e.id
    | .sendqReply x j _ _ _ _ => j == k && x == e.id
    | .sendqData j x _ _ _ _ => j == k && x.id == e.id
    | _ => false)
  let c := tags.foldl (fun (x : Core) g =>
    x.setQueue g.1 { x.queue g.1 with ents := (x.queue g.1).ents.filter (fun q => q.tag != g.2) }) c
  let s := s.setCore k { c with sendbuf := c.sendbuf.filter (fun e => e.slot != i || sent e),
                                divs := c.divs.map (fun (x : DivJob) => if x.slot == i then { x with dst := .none, flags := 0 } else x) }
  let s := s.cancelAccepted k i
  let q := s.quad (k / 4)
  let s := s.setQuad (k / 4) { q with tasks := q.tasks.filter (fun x => !(x.core == k && x.slot == i && x.engine.isNone)) }
  let s := match s.partOfCore k with
    | some p => s.setPart p { s.part p with openFaults := (s.part p).openFaults.map (fun (o : OpenFault) =>
        { o with joined := o.joined.filter (fun j => j.1 != a) }) }
    | none => s
  s.setThrOf a { t with run := .killed, vq := t.vq.filter (fun e => e.confirmed), log := [], async := [], timerDue := false,
                        faultSeq := none, walking := none, parked := false, drained := none, saveAt := none, held := false,
                        arriving := false }

/-- The hold on an instance's members ends once every member is resident again (R336). -/
def State.unhold (s : State) (n : Inst) : State :=
  if n.saved.isEmpty then
    n.started.foldl (fun s x =>
      if s.slotBound x.1 x.2.1 then s.setThrOf (.slot x.1 x.2.1) { s.thrOf (.slot x.1 x.2.1) with held := false } else s) s
  else s

/-- The holds of the instance of a slot's thread ended, if they can be. -/
def State.unholdOf (s : State) (k i : Nat) : State :=
  match s.instAt k (s.thrOf (.slot k i)) with
  | some (_, _, n) => s.unhold n
  | none => s

/-- The launch of a killed thread: its KILLED count, its status and its first error (R355, R463). A thread that consumption
of poison killed is not counted again (R411). -/
def State.countKill (s : State) (k i : Nat) : State :=
  let t := s.thrOf (.slot k i)
  let x := t.tidx.toNat
  s.onLaunch k i (fun l =>
    let done := l.insts.any (fun n => n.num == instOf l.lrec x && n.killed.contains x)
    let l := if t.run = .trapped then l else l.noteError (wordOf (2 ^ 63 + t.pc.toNat))
    if done then l
    else
      { l with killed := l.killed + 1, status := 1,
               insts := l.insts.map (fun n => if n.num = instOf l.lrec x then
                 { n with gone := x :: n.gone, killed := x :: n.killed, saved := n.saved.filter (fun y => y.1 != x) } else n) })

/-- Whether everything a killed thread had sent has been performed or refused (R407). -/
def State.killQuiet (s : State) (k i : Nat) : Bool :=
  let a := Actor.slot k i
  let t := s.thrOf a
  !s.packets.any (fun p => p.owner == some a) && !s.owesMessage a && (s.tasksOf k i).isEmpty && t.vec.unlanded.isEmpty
    && t.vq.isEmpty

/-- The STATE code of a thread (R357). -/
def Thread.stateCode (t : Thread) : Nat :=
  match t.run with
  | .exited => 3
  | .trapped => 4
  | .swapping => 5
  | .killed => 5
  | .retiring => 7
  | .issuing => if t.arriving then 5 else if t.held then 6 else if t.parked then 2 else 1

/-- Whether a slot is the transfer slot of its core (R254). -/
def State.isXfer (s : State) (k i : Nat) : Bool := i == 15 && bitOf (s.core k).xctl 0

/-- The fields that TSTAT and TSELF share: crew, transfer slot, leader and LID. -/
def State.identity (s : State) (k i : Nat) : Nat :=
  let t := s.thrOf (.slot k i)
  s.crewIdx k i * 16 + boolNat (s.isXfer k i) * 256 + boolNat t.lead * 512 + t.lid.toNat * 2 ^ 32

/-- TSTAT (R357). -/
def execTstat (a d : Reg) : State → Out :=
  issue { word := wordThr 5 0 a.toNat d.toNat, srcs := [a], dsts := [d], sub := 1, leaves := true, priv := 1 } (fun s xs =>
    withSlot (arg xs 0) (fun i =>
      let k := s.curCore
      if !s.slotBound k i then .done s [0]
      else
        let code := if i = s.cur.slotNum then 1 else (s.thrOf (.slot k i)).stateCode
        .done s [wordOf (code + s.identity k i)]))

/-- TSELF (R358). -/
def execTself (d : Reg) : State → Out :=
  issue { word := wordThr 6 0 0 d.toNat, dsts := [d], sub := 1, leaves := true } (fun s _ =>
    .done s [wordOf (s.cur.slotNum + s.identity s.curCore s.cur.slotNum + s.curCore * 2 ^ 10)])

/-! ### EXIT and RETIRE (R353, R362) -/

/-- The thread counted among those of its instance that have exited or retired (R324, R362). -/
def State.markGone (s : State) : State :=
  s.onInst (fun _ n => { n with gone := s.thr.tidx.toNat :: n.gone })

/-- Whether a successor has been accepted for the thread's instance. -/
def State.hasSuccessor (s : State) : Bool := s.myInst.elim false (fun x => x.2.succLid.isSome)

/-- The thread halted by EXIT, with its exit notice (R353); slot 0 has no notice of its own. -/
def State.halt (s : State) : State :=
  let s := s.setThr { s.thr with run := .exited, parked := false, stage := 0, vals := [], arg := 0 }
  if s.cur.slotNum = 0 then s else s.postNotice s.curCore s.cur.slotNum 1

/-- The thread in the retiring state (R362). -/
def State.retireNow (s : State) : State :=
  s.markGone.setThr { s.thr with run := .retiring, parked := false, stage := 0, vals := [], arg := 0 }

/-- A turn of an instruction that does not step in sequence: it stays where it is, in a park of its own. -/
def State.stay (s : State) (stage : Nat) : State :=
  s.setThr { s.thr with stage := stage, parked := true, withdrawable := false, landing := false }

/-- EXIT (R353). -/
def execExit : State → Out :=
  issue { word := wordThr 9 0 0 0, sub := 1, leaves := true } (fun s _ =>
    if s.thr.pending ≠ 0 then .hold
    else
      match s.relTurn allRegions 2 7 with
      | .wait s => .keep (s.stay 1)
      | .over s => .keep (if s.hasSuccessor then s.retireNow else s.markGone.halt)
      | .caught s => .keep s.takeCaught)

/-- RETIRE (R362): it waits until none of the thread's registers is pending. -/
def execRetire : State → Out :=
  issue { word := wordThr 8 0 0 0, sub := 1, leaves := true } (fun s _ =>
    if s.thr.pending ≠ 0 then .hold else .keep s.retireNow)

/-- A turn of a retiring thread: with every member of its instance there and no successor, it acts as having executed EXIT
(R362). -/
def State.retireTurn (s : State) : State :=
  let alone := match s.myInst with
    | some (r, n) => n.allGone r && n.succLid.isNone && n.seqStage == 0
    | none => true
  if !alone then s
  else
    match s.relTurn allRegions 2 7 with
    | .wait s => s
    | .over s => s.halt
    | .caught s => s.halt

/-! ### LAUNCH (R359) -/

/-- LAUNCH (R359): stage 1 is its release; stage 2 waits for room in the task graph, a landing point. -/
def execLaunch (a d : Reg) : State → Out :=
  issue { word := wordThr 10 0 a.toNat d.toNat, srcs := [a], dsts := [d], sub := 1, leaves := true } (fun s xs =>
    let p := arg xs 0
    let give := fun (s : State) =>
      match s.partOfCore s.curCore, s.threadRead s.curCore s.cur.slotNum p 64 with
      | _, .error f => parkFault f 0
      | none, _ => .hold
      | some q, .ok b =>
        match s.graphRoom q with
        | none => .wait (s.setStage 2) false
        | some s =>
          let (lid, s) := s.submit q s.curCtx (s.ctx s.curCtx).vi (launchRec b)
          .done s [wordOf lid]
    if s.thr.stage = 2 then give s
    else
      match s.checkPtr false p with
      | some c => .trap c p
      | none =>
        if ptrPath p ≠ 0 ∨ ptrAddr p % 64 ≠ 0 then .trap .pointerFault p
        else (s.relTurn s.regmask 2 1).thenDo 1 give)

/-! ### SUCC (R360, R361) -/

/-- The fields of a successor descriptor (R360). -/
def descGmask (b : List Byte) : Nat := recField b 8 4
def descVmask (b : List Byte) : Nat := recField b 12 4
def descCmask (b : List Byte) : Nat := recField b 16 1
def descWmask (b : List Byte) : Nat := recField b 17 1
def descQkeep (b : List Byte) : Bool := recField b 18 1 % 2 == 1
def descScope (b : List Byte) : Nat := recField b 18 1 / 2 % 8
def descLanes (b : List Byte) : Nat := recField b 22 1 % 8
def descAccs (b : List Byte) : Nat := recField b 22 1 / 16

/-- The launch record of a successor: its own shape and estimate, and the predecessor's kind, XFER, PRIO, SFLAGS and CPLT
(R361). -/
def succRec (r : LaunchRec) (b : List Byte) : LaunchRec :=
  { r with shape := r.shape % 4, threads := recField b 19 1, cores := recField b 20 1, clusters := recField b 21 1,
           lanes := descLanes b, accs := descAccs b, sprows := recField b 23 1, vlc := recField b 24 1,
           energy := recField b 28 4, count := 1, deps := [], arg := 0 }

/-- Whether a descriptor is malformed: status 5 of R361. -/
def State.succMalformed (s : State) (ctx : Nat) (b : List Byte) : Bool :=
  let r := succRec {} b
  let entry := wordOf (recField b 0 8)
  decide (16 ≤ recField b 18 1) || decide (4 ≤ descScope b) || recField b 22 1 / 8 % 2 == 1 || recField b 25 3 != 0
    || !(1 ≤ r.threads && r.threads ≤ 15) || !(1 ≤ r.cores && r.cores ≤ 16) || !(1 ≤ r.clusters && r.clusters ≤ 16)
    || !laneCount r.lanes || decide (8 < r.accs) || !(1 ≤ r.sprows && r.sprows ≤ 64) || decide (16 < r.vlc)
    || (r.vlc != 0) != (r.lanes != 0) || ptrPath entry != 0 || !s.codeOk ctx (ptrAddr entry)

/-- The windows that a mask names of an instance's crews which go on under a shape: the last unit of each (R361, R363). -/
def State.namedWindows (s : State) (l : Launch) (n : Inst) (r : LaunchRec) (mask : Nat) : List Nat :=
  let on := n.cores.zipIdx.filter (fun c => decide (c.2 / l.lrec.cores < r.clusters ∧ c.2 % l.lrec.cores < r.cores))
  on.flatMap (fun c =>
    let k := c.1.1
    let ord := n.num * l.lrec.cores * l.lrec.clusters + c.2
    let mine := (s.core k).crews.filter (fun x => x.2.lid.toNat == l.lid && x.2.ord == ord)
    (List.range 8).filterMap (fun i =>
      let w := Tab.get 0 (s.core k).win i
      if mask / 2 ^ i % 2 = 1 && mine.any (fun x => x.1 == bits w 39 36) then some (bits w 30 16) else none))

/-- Whether a successor's shape does not fit its predecessor: status 1 of R361. -/
def State.succMismatch (s : State) (l : Launch) (n : Inst) (b : List Byte) : Bool :=
  let r := succRec l.lrec b
  let o := l.lrec
  decide (o.threads < r.threads ∨ o.cores < r.cores ∨ o.clusters < r.clusters ∨ o.lanes < r.lanes ∨ o.accs < r.accs
    ∨ o.sprows < r.sprows ∨ 2 ^ r.accs ≤ descCmask b) || (descVmask b != 0 && r.lanes == 0)
    || (s.namedWindows l n r (descWmask b)).any (fun last => decide (r.sprows ≤ last / 512))

/-- The status SUCC decides, in the order of R361. -/
def State.succStatus (s : State) (l : Launch) (n : Inst) (b : List Byte) : Nat :=
  if !s.thr.lead then 3
  else if l.lrec.sflags % 2 = 0 ∨ l.lrec.count ≠ 1 then 4
  else if n.succLid.isSome then 2
  else if s.succMalformed s.curCtx b then 5
  else if s.succMismatch l n b then 1
  else 0

/-- A successor accepted: it takes an LID and a table entry and is held (R361). -/
def State.acceptSucc (s : State) (p : Nat) (l : Launch) (n : Inst) (b : List Byte) : Nat × State :=
  let x := s.part p
  let lid := lidOf (x.lastLid + 1)
  let m : Launch := { lid := lid, ctx := l.ctx, vi := l.vi, lrec := succRec l.lrec b, prio := l.prio, phase := .held,
                      entry := wordOf (recField b 0 8), rkbase := l.rkbase, rken := l.rken, rkpin := l.rkpin,
                      sdesc := b, pred := some l.lid }
  let s := s.setPart p { x with lastLid := x.lastLid + 1, graph := x.graph ++ [m] }
  (lid, s.setLaunch p (l.setInst { n with succLid := some lid }))

/-- The answer of a SUCC on its way to its register (R361). -/
def sendSucc (v : Word) (s : State) (d : Dest) : State :=
  s.send { net := .local, owner := some s.cur, ctx := s.curCtx, src := s.curCore, dst := s.curCore, body := .succ d v }

/-- SUCC (R361). It waits for room in the task graph. -/
def execSucc (a d : Reg) : State → Out :=
  issue { word := wordThr 7 0 a.toNat d.toNat, srcs := [a], dsts := [d], sub := 1, leaves := true } (fun s xs =>
    let p := arg xs 0
    match s.checkPtr false p with
    | some c => .trap c p
    | none =>
      if (ptrPath p ≠ 0 ∧ ptrPath p ≠ 2) ∨ ptrOff p % 32 ≠ 0 then .trap .pointerFault p
      else
        match s.threadRead s.curCore s.cur.slotNum p 32 with
        | .error f => parkFault f 0
        | .ok b =>
          let s := s.noteSpan s.curCore s.cur.slotNum p 32
          match s.instAt s.curCore s.thr with
          | none => .later s (sendSucc 3)
          | some (q, l, n) =>
            match s.succStatus l n b with
            | 0 =>
              match s.graphRoom q with
              | none => .hold
              | some s =>
                let (lid, s) := s.acceptSucc q l n b
                .later s (sendSucc (wordOf (lid * 2 ^ 32)))
            | st => .later s (sendSucc (wordOf st)))

/-- SUCC_RESULT_LANDING: the answer of a SUCC lands (R361). -/
def execSuccResultLanding (id : Nat) (s : State) : Out :=
  match s.arrived? id with
  | some p =>
    match p.body with
    | .succ d v => .next ((s.dropPacket id).land (p.owner.getD (.slot p.dst 0)) d v)
    | _ => .next s
  | none => .next s

/-! ### The succession sequence (R362 to R364) -/

/-- The successor's thread ordinal that continues a predecessor's, if one does: with XFER the last thread keeps slot 15. -/
def nextOrd (o r : LaunchRec) (j : Nat) : Option Nat :=
  if o.xfer then
    if j = o.threads - 1 then some (r.threads - 1) else if j + 1 < r.threads then some j else none
  else if j < r.threads then some j else none

/-- The TIDX in the successor of a predecessor's member, if it continues (R363). -/
def nextTidx (o r : LaunchRec) (tidx : Nat) : Option Nat :=
  let (_, u, k) := o.place tidx
  if u < r.clusters ∧ k < r.cores then
    (nextOrd o r (tidx % o.threads)).map (fun j => (u * r.cores + k) * r.threads + j)
  else none

/-- The members of an instance that are still in their slots: core, slot and TIDX. -/
def Inst.here (n : Inst) : List (Nat × Nat × Nat) := n.started.filter (fun x => !n.reaped.contains x.2.2)

/-- Whether each member has nothing outstanding that its release of step 1 waits for (R312, R363). -/
def State.membersQuiet (s : State) (n : Inst) : Bool :=
  n.here.all (fun x =>
    let a := Actor.slot x.1 x.2.1
    !s.packets.any (fun p => p.owner == some a) && !s.owesMessage a && !(s.thrOf a).vecAccessesOut)

/-- The releases of step 1 (R363): the dirty words of regions 1 to 63 of every member's core pushed to RSCOPE's point, from the visitor
lines of its partition's slices on its die too at package scope and beyond (R310). -/
def State.releaseMembers (s : State) (n : Inst) (scope : Nat) : State :=
  let push := fun (level unit : Nat) (s : State) =>
    (dirtyNamed (s.linesAt level unit) allRegions).foldl (fun s x => s.pushSector level unit x.1 x.2.1) s
  n.here.foldl (fun s x =>
    let k := x.1
    let s := push 0 k s
    let s := if scope < 1 then s else push 1 (k / 16) s
    if scope < 2 then s else ((s.piers.map (·.1)).filter (s.ownSlice k)).foldl (fun s u => push 2 u s) s) s

/-- Whether a tile of a member is inherited (R363). -/
def inheritsTile (o r : LaunchRec) (b : List Byte) (tidx c : Nat) : Bool :=
  (nextTidx o r tidx).isSome && descCmask b / 2 ^ c % 2 == 1

/-- Unstarted tasks on tiles that are not inherited discarded (R363, step 2). -/
def State.dropTasks (s : State) (n : Inst) (o r : LaunchRec) (b : List Byte) : State :=
  n.here.foldl (fun s x =>
    let q := s.quad (x.1 / 4)
    s.setQuad (x.1 / 4) { q with tasks := q.tasks.filter (fun t =>
      !(t.core == x.1 && t.slot == x.2.1 && t.engine.isNone && !inheritsTile o r b x.2.2 t.target)) }) s

/-- What step 2 waits for: tasks, VLDA reads of inherited registers, and copies of the crews (R363). -/
def State.stepTwo (s : State) (n : Inst) (b : List Byte) : Bool :=
  n.here.all (fun x =>
    let t := s.thrOf (.slot x.1 x.2.1)
    (s.tasksOf x.1 x.2.1).isEmpty && !s.copiesOut x.1 x.2.1 t.uid
      && t.vec.unlanded.all (fun u => descVmask b / 2 ^ u.v % 2 == 0))

/-- A list of registers whose bits a mask has. -/
def inMask (m : Nat) (i : Nat) : Bool := m / 2 ^ i % 2 == 1

/-- What a continuing thread keeps (R363, step 3): g and v registers, tiles and queues named in the descriptor's masks. -/
def Thread.inherit (t : Thread) (b : List Byte) (r : LaunchRec) : Thread :=
  let gm := BitVec.ofNat 32 (descGmask b)
  { t with g := t.g.filter (fun x => inMask (descGmask b) x.1), empty := t.empty &&& gm, pending := 0,
           vec := { v := t.vec.v.filter (fun x => inMask (descVmask b) x.1), w := t.vec.w.filter (fun x => inMask (descVmask b) x.1),
                    bad := t.vec.bad.filter (fun x => inMask (descVmask b) x.1) },
           acc := t.acc.filter (fun x => inMask (descCmask b) x.1), accQuota := r.accs, async := [] }

/-- Whether a byte of a crew's rows is covered by one of its inherited windows. -/
def windowCovers (ws : List (Nat × Nat)) (off : Nat) : Bool := ws.any (fun w => decide (16 * w.1 ≤ off ∧ off < 16 * w.2 + 16))

/-- A continuing crew's rows, windows and queues scrubbed (R363, step 3). -/
def State.inheritCrew (s : State) (k idx : Nat) (b : List Byte) (r : LaunchRec) : State :=
  let c := s.core k
  match Tab.find? c.crews idx with
  | none => s
  | some x =>
    let ws := (List.range 8).filterMap (fun i =>
      let w := Tab.get 0 c.win i
      if inMask (descWmask b) i && bits w 39 36 == idx then some (bits w 14 0, bits w 30 16) else none)
    let lo := 8192 * x.base
    let hi := lo + 8192 * x.rows
    let keep := fun (a : Nat) => decide (a < lo ∨ hi ≤ a) || (decide (a < lo + 8192 * r.sprows) && windowCovers ws (a - lo))
    let s := s.setCore k { c with
      spad := c.spad.filter (fun y => keep y.1)
      win := c.win.filter (fun w => bits w.2 39 36 != idx || inMask (descWmask b) w.1)
      queues := if descQkeep b then c.queues else c.queues.filter (fun q => !x.qmask.getLsbD q.1)
      crews := Tab.set c.crews idx { x with rows := r.sprows, qmask := if descQkeep b then x.qmask else 0 } }
    { s with poison := s.poison.filter (fun p => !(p.1 == 1 && p.2.1 == k) || (List.range 8).any (fun j => keep (8 * p.2.2 + j))) }

/-- Step 3 of R363: everything not inherited is scrubbed, and what lies beyond the successor's shape is reaped. -/
def State.scrubStep (s : State) (l : Launch) (n : Inst) (m : Launch) : State :=
  let o := l.lrec
  let r := m.lrec
  let b := m.sdesc
  let s := n.here.foldl (fun s x =>
    match nextTidx o r x.2.2 with
    | some _ =>
      let t := s.thrOf (.slot x.1 x.2.1)
      s.setThrOf (.slot x.1 x.2.1) (t.inherit b r)
    | none => s.freeSlot x.1 x.2.1) s
  n.cores.zipIdx.foldl (fun s c =>
    let u := c.2 / o.cores
    let j := c.2 % o.cores
    let k := c.1.1
    let ord := n.num * o.cores * o.clusters + c.2
    if u < r.clusters ∧ j < r.cores then
      match crewNamed (s.core k).crews l.lid ord with
      | some x => s.inheritCrew k x.1 b r
      | none => s
    else s) s

/-- Whether every thread the successor needs continues in its slot: a member in its slot for each of its threads (R363). -/
def continues (n : Inst) (o r : LaunchRec) : Bool :=
  (List.range r.perInst).all (fun x => n.here.any (fun y => nextTidx o r y.2.2 == some x))

/-- The successor of an instance discarded: it completes with status DISCARDED, and the predecessor names none (R362, R364). -/
def State.discardSucc (s : State) (p : Nat) (l : Launch) (n : Inst) (sl : Nat) : State :=
  let s := s.setLaunch p ({ l with succid := 0 }.setInst { n with succLid := none, seqStage := 0 })
  match s.launch? p sl with
  | some m => s.setLaunch p { m with phase := .ended, status := 2 }
  | none => s

/-- SUCCESSION_SEQUENCE: the next step of an instance whose last member has arrived and that has a successor (R362 to R364):
the releases, the waits, and the scrub, or the record of a tainted predecessor. A killed member, or one no longer in a slot
that the successor needs, ends the succession. -/
def execSuccessionSequence (part lid : Nat) (s : State) : Out :=
  match s.launch? part lid with
  | none => .next s
  | some l =>
    match l.insts.find? (fun n => n.succLid.isSome && n.allGone l.lrec) with
    | none => .next s
    | some n =>
      match n.succLid.bind (s.launch? part) with
      | none => .next s
      | some m =>
        let o := l.lrec
        let r := m.lrec
        let b := m.sdesc
        let at_ := fun (s : State) (st : Nat) => match s.launch? part lid with
          | some l => (match l.insts.find? (fun y => y.num == n.num) with
            | some y => s.setLaunch part (l.setInst { y with seqStage := st })
            | none => s)
          | none => s
        if !n.killed.isEmpty || !continues n o r then .next (s.discardSucc part l n m.lid)
        else
          match n.seqStage with
          | 0 => if s.membersQuiet n then .next (at_ (s.releaseMembers n (descScope b)) 1) else .next s
          | 1 =>
            let s := s.dropTasks n o r b
            if !s.stepTwo n b then .next s
            else if l.verdict = 2 then
              .next (at_ (s.setLaunch part { l with phase := .ended, succid := m.lid }) 6)
            else .next (at_ s 3)
          | 3 => .next (at_ (s.scrubStep l n m) 4)
          | _ => .next s

/-- A continuing thread as the successor's (R363, step 4). -/
def Thread.succeed (t : Thread) (uid : Nat) (m : Launch) (tidx : Nat) : Thread :=
  let r := m.lrec
  { uid := uid, ctx := m.ctx, crew := t.crew, ord := tidx / r.threads, lid := BitVec.ofNat 32 m.lid,
    tidx := BitVec.ofNat 32 tidx, lead := tidx == 0, xfer := t.xfer, pc := BitVec.ofNat 53 (ptrAddr m.entry), startCheck := true,
    g := t.g, empty := t.empty, laneReq := r.lanes, lanes := t.lanes.take r.lanes, vec := if r.lanes = 0 then {} else t.vec,
    accQuota := r.accs, acc := t.acc,
    csr := { vl := startVl r.vlc, vlceil := wordOf (64 * r.vlc), rank := t.csr.rank } }

/-- SUCCESSOR_START: with the account covering its ENERGY, the successor starts in the slots of its predecessor, whose
completion record is then due (R363, steps 4 and 5). `lid` names either launch. -/
def execSuccessorStart (part lid : Nat) (s : State) : Out :=
  let plid := match s.launch? part lid with
    | some l => (match l.phase, l.pred with | .held, some p => p | _, _ => lid)
    | none => lid
  match s.launch? part plid with
  | none => .next s
  | some l =>
    match l.insts.find? (fun n => n.succLid.isSome && n.seqStage == 4) with
    | none => .next s
    | some n =>
      match n.succLid.bind (s.launch? part) with
      | none => .next s
      | some m =>
        let x := s.part part
        if x.bal < (m.lrec.energy : Int) then .next s
        else
          let o := l.lrec
          let r := m.lrec
          let go := n.here.filterMap (fun y => (nextTidx o r y.2.2).map (fun t => (y.1, y.2.1, t)))
          let s := s.setPart part { x with bal := x.bal - m.lrec.energy }
          let s := go.foldl (fun s y =>
            let a := Actor.slot y.1 y.2.1
            { s.setThrOf a ((s.thrOf a).succeed s.nextId m y.2.2) with nextId := s.nextId + 1 }) s
          let s := n.cores.zipIdx.foldl (fun s c =>
            let k := c.1.1
            match crewNamed (s.core k).crews l.lid (n.num * o.cores * o.clusters + c.2) with
            | some x => s.setCore k { s.core k with
                crews := Tab.set (s.core k).crews x.1
                  { x.2 with lid := BitVec.ofNat 32 m.lid, ord := c.2 / o.cores * r.cores + c.2 % o.cores } }
            | none => s) s
          let cores := (List.range (r.cores * r.clusters)).map (fun i =>
            n.cores.getD (i / r.cores * o.cores + i % r.cores) (0, 0))
          let inst : Inst := { num := 0, cores := cores, started := go }
          let s := s.setLaunch part { m with phase := .admitted, admitTb := s.tb.toNat, next := 1, insts := [inst] }
          let l := { l with phase := if l.phase = .recorded then .recorded else .ended, succid := m.lid, insts := [] }
          .next (s.setLaunch part l)

/-! ### The supervisor's rulings on the graph (R342, R343, R364) -/

/-- The predecessor of a held successor that waits for a ruling: step 6 of R363. -/
def State.heldPred (s : State) (p : Nat) (m : Launch) : Option (Launch × Inst) :=
  match m.phase, m.pred with
  | .held, some q =>
    match s.launch? p q with
    | some l => (l.insts.find? (fun n => n.succLid == some m.lid && n.seqStage == 6)).map (fun n => (l, n))
    | none => none
  | _, _ => none

/-- A release through PRT_GRAPHREL: every dependence on a tainted launch is satisfied, or a held successor's sequence goes
on at step 3 (R342, R364). -/
def State.graphRelease (s : State) (p lid : Nat) : State :=
  match s.launch? p lid with
  | none => s
  | some m =>
    match s.heldPred p m with
    | some (l, n) => s.setLaunch p (l.setInst { n with seqStage := 3 })
    | none => if m.verdict = 2 then s.setLaunch p { m with released := true, ruled := true } else s

/-- A discard through PRT_GRAPHREL: the held dependents of a tainted launch are discarded, or every member of a held
successor's predecessor is reaped and the successor discarded (R342, R364). -/
def State.graphDiscard (s : State) (p lid : Nat) : State :=
  match s.launch? p lid with
  | none => s
  | some m =>
    match s.heldPred p m with
    | some (l, n) =>
      let s := n.here.foldl (fun s x => s.freeSlot x.1 x.2.1) s
      let s := s.setLaunch p { m with phase := .ended, status := 2 }
      match s.launch? p l.lid with
      | some l => s.setLaunch p { l with insts := l.insts.map (fun y => { y with succLid := none, seqStage := 0 }) }
      | none => s
    | none => if m.verdict = 2 then s.discardDependents p lid else s

end Sys2Proof.Machine
end

