-- ==== Sys2Proof/Machine/Save.lean ====
section
/-! DEFINITION. Pre-emption (R336, R398 to R406): TSAVE and TLOAD, landings, TKILL (R355), the saved image, the thread-context cache, and the
restore. -/

namespace Sys2Proof.Machine

/-! ### The saved image (R400 to R402) -/

/-- A length rounded up to a multiple of 64. -/
def up64 (n : Nat) : Nat := (n + 63) / 64 * 64

/-- THR_STATUS as it reads: INH, PL, HELD and FRC (R385). -/
def State.statusWord (s : State) (a : Actor) : Word :=
  let t := s.thrOf a
  wordOf (bits t.csr.status 0 0 + 2 * s.privilege a + 8 * boolNat (!t.async.isEmpty || t.timerDue) + 16 * boolNat t.frc)

/-- The registers with a nonzero mark, and the claimed tiles, as masks. -/
def Thread.vregs (t : Thread) : Nat := ((List.range 32).filter (fun i => Tab.get 0 t.vec.w i != 0)).foldl (fun m i => m + 2 ^ i) 0
def Thread.claims (t : Thread) : Nat := ((List.range 8).filter (fun i => (Tab.find? t.acc i).isSome)).foldl (fun m i => m + 2 ^ i) 0

/-- The claimed tiles whose contents are saved: the live ones at a landing point, else all (R98, R398). -/
def Thread.savedTiles (t : Thread) : Nat :=
  if t.forced || t.haltSaved then t.claims else t.claims &&& (bits t.csr.livetile 7 0)

/-- The image a register block describes a loop level with (R401). -/
def levelBytes (l : LoopLevel) : List Byte :=
  bytesLE 4 l.count.toNat ++ bytesLE 4 l.index.toNat
    ++ bytesLE 8 (l.start.toNat / 4 + (l.stop.toNat - l.start.toNat) / 4 % 4096 * 2 ^ 51)

/-- The register block, from offset 64 to 447 (R401). -/
def regBlock (t : Thread) (drained : Option AsyncTrap) : List Byte :=
  let full := (List.range 32).foldl (fun m i => if i != 0 && !t.empty.getLsbD i then m + 2 ^ i else m) 0
  bytesLE 8 (t.pc.toNat + t.loops.length * 2 ^ 53) ++ bytesLE 4 full ++ bytesLE 4 0
    ++ (List.range 31).flatMap (fun i => bytesLE 8 (Tab.get (0 : Word) t.g (i + 1)).toNat)
    ++ (List.range 6).flatMap (fun i => match t.loops[i]? with
        | some l => levelBytes l
        | none => bytesLE 16 0)
    ++ bytesLE 8 (drained.elim 0 (fun d => causeCode d.cause)) ++ bytesLE 8 (drained.elim 0 (fun d => d.tval.toNat))
    ++ bytesLE 8 0

/-- The CSR block, from offset 448 to 575 (R401). -/
def csrBlock (c : ThrCsrs) (status : Word) : List Byte :=
  [status, c.trappc, c.cause, c.tval, c.trapvec, c.timer, c.hscr, c.fpctl, c.regmask, c.ooraddr,
   wordOf (bits c.qmap 7 0 + 2 ^ 8 * bits c.livetile 7 0 + 2 ^ 16 * bits c.oorflag 0 0),
   wordOf (bits c.vtype 4 0 + 2 ^ 16 * bits c.vl 10 0 + 2 ^ 32 * bits c.vlceil 10 0),
   wordOf (bits c.strip 31 0 + 2 ^ 32 * bits c.seed 31 0),
   wordOf (bits c.rank 21 0 + 2 ^ 22 * bits c.migmask 31 1), wordOf (bits c.polver 31 0), 0].flatMap (fun w => bytesLE 8 w.toNat)

/-- The vector section (R402). -/
def vecSection (t : Thread) : List Byte :=
  (List.range 32).flatMap (fun i =>
    let w : Nat := Tab.get 0 t.vec.w i
    if w = 0 then [] else bytesLE 2 w ++ bytesLE 62 0 ++ Memory.readBytes (Tab.get [] t.vec.v i) 0 (up64 w))
  ++ (List.range 8).flatMap (fun i => bytesLE 256 (Tab.get (0 : BitVec 2048) t.vec.m i).toNat)

/-- The tile section (R402). -/
def tileSection (t : Thread) : List Byte :=
  (List.range 8).flatMap (fun i =>
    match Tab.find? t.acc i with
    | some x =>
      if t.savedTiles / 2 ^ i % 2 = 1 then
        bytesLE 8 (tileStatus x 0).toNat ++ bytesLE 56 0
          ++ (List.range 4096).flatMap (fun j => bytesLE 4 (Tab.get (0 : BitVec 32) x.data j).toNat)
      else []
    | none => [])

/-- The fault of the thread's owed writes that the image carries (R399): a CHECK_FAULT or a POISON, else the oldest deferred
trap pending. -/
def Thread.drainedFault (t : Thread) : Option AsyncTrap :=
  match t.drained with
  | some d => some d
  | none => match t.async.find? (fun x => x.cause == .checkFault) with
    | some d => some d
    | none => t.async.head?

/-- The image of the thread of a slot (R400). -/
def State.imageOf (s : State) (k i : Nat) : List Byte :=
  let a := Actor.slot k i
  let t := s.thrOf a
  let acc := !t.acc.isEmpty
  let vec := if t.hasVec then vecSection t else []
  let tiles := tileSection t
  let size := 576 + vec.length + tiles.length
  let flags := boolNat t.hasVec + 2 * boolNat acc + 4 * boolNat t.forced + 8 * boolNat t.haltSaved
    + 16 * boolNat t.barWait.isSome + 32 * boolNat (s.isXfer k i)
  let feats := 1 + 2 * boolNat t.hasVec + 4 * boolNat (acc || !(s.tasksOf k i).isEmpty)
  bytesLE 4 0x3149534B ++ bytesLE 2 1 ++ bytesLE 2 flags ++ bytesLE 8 feats ++ bytesLE 4 size ++ bytesLE 2 (t.ctx % 4096)
    ++ bytesLE 1 (i + 16 * s.crewIdx k i) ++ bytesLE 1 t.lanes.length ++ bytesLE 4 t.vregs ++ bytesLE 1 t.claims
    ++ bytesLE 1 t.savedTiles ++ bytesLE 2 k ++ bytesLE 4 t.lid.toNat ++ bytesLE 4 t.tidx.toNat ++ bytesLE 4 t.taskSeq
    ++ bytesLE 4 (t.barWait.elim 0 (fun b => b.2)) ++ bytesLE 16 0
    ++ regBlock t t.drainedFault ++ csrBlock t.csr (s.statusWord a) ++ vec ++ tiles

/-- The fields of an image's header (R400). -/
def imgFlag (b : List Byte) (i : Nat) : Bool := recField b 6 2 / 2 ^ i % 2 == 1
def imgFeatures (b : List Byte) : Nat := recField b 8 8
def imgSize (b : List Byte) : Nat := recField b 16 4
def imgCtx (b : List Byte) : Nat := recField b 20 2 % 4096
def imgLanes (b : List Byte) : Nat := recField b 23 1
def imgVregs (b : List Byte) : Nat := recField b 24 4
def imgClaim (b : List Byte) : Nat := recField b 28 1
def imgSaved (b : List Byte) : Nat := recField b 29 1
def imgLid (b : List Byte) : Nat := recField b 32 4
def imgTidx (b : List Byte) : Nat := recField b 36 4

/-- The bits of a mask. -/
def bitsSet (m n : Nat) : List Nat := (List.range n).filter (fun i => m / 2 ^ i % 2 == 1)

/-- Where the descriptors of an image's vector registers lie, and where the masks follow: register, offset and mark. `rd` reads
the image. -/
def imgMarks (rd : Nat → Nat → Nat) : List Nat → Nat → List (Nat × Nat × Nat) × Nat
  | [], o => ([], o)
  | i :: is, o =>
    let w := rd o 2
    let (l, e) := imgMarks rd is (o + 64 + up64 w)
    ((i, o, w) :: l, e)

/-- The registers of an image's vector section, and the offset of its tile section. -/
def imgLayout (b : List Byte) (rd : Nat → Nat → Nat) : List (Nat × Nat × Nat) × Nat :=
  if imgFlag b 0 then
    let (l, o) := imgMarks rd (bitsSet (imgVregs b) 32) 576
    (l, o + 2048)
  else ([], 576)

/-- Whether an image's SIZE can be that of its HFLAGS, VREGS and SAVED: each register entry holds 64 to 1,024 bytes after its
descriptor (R402, R405). -/
def imgSizeOk (b : List Byte) : Bool :=
  let n := (bitsSet (imgVregs b) 32).length
  let vec := imgFlag b 0
  let base := 576 + (if vec then 2048 + 128 * n else 0) + (if imgFlag b 1 then (bitsSet (imgSaved b) 8).length * 16448 else 0)
  decide (base ≤ imgSize b) && decide (imgSize b ≤ base + (if vec then 960 * n else 0)) && (imgSize b - base) % 64 == 0

/-! ### Landings (R398) -/

/-- The F-cycle of a slot's last turn (R60). -/
def State.lastTurn (s : State) (k i : Nat) : Nat :=
  let back := (s.now + 16 - i) % 16
  if back = 0 && s.rot.contains (.slot k i) then s.now - 16 else s.now - back

/-- Whether a pending asynchronous trap would be taken at the thread's next turn (R392). -/
def Thread.asyncDue (t : Thread) : Bool :=
  (!t.async.isEmpty || t.timerDue) && !bitOf t.csr.status 0 && !t.runAhead && t.faultSeq.isNone && t.walking.isNone
    && ((t.stage == 0 && !t.parked) || t.withdrawable)

/-- Whether a thread stands at a landing point: a back-edge or YIELD it has just completed, or a parked wait that begins again
after the restore (R62, R86, R97). -/
def Thread.atLanding (t : Thread) : Bool :=
  t.run == .issuing && !t.arriving && !t.runAhead && !t.asyncDue && (t.landing || (t.parked && decide (t.stage < 4)))

/-- Whether the save request of a slot lands now (R398). -/
def State.mayLand (s : State) (k i : Nat) : Bool :=
  let t := s.thrOf (.slot k i)
  match t.saveAt with
  | some n => t.atLanding && !t.held && decide (n + 4 ≤ s.lastTurn k i)
  | none => false

/-- Whether the slot is saved without a landing point: held, halted by a trap, or 65,536 A-cycles after the request (R398). -/
def State.mayForce (s : State) (k i : Nat) : Bool :=
  let t := s.thrOf (.slot k i)
  match t.saveAt with
  | some n => t.run == .trapped ||
      (t.run == .issuing && !t.arriving && !t.runAhead && decide (t.stage < 4) && (t.held || decide (n + 131072 ≤ s.now)))
  | none => false

/-- What a thread waits for elsewhere, given up: a QWAIT is withdrawn, an accepted SENDQ begins again, a lock request stays queued, walks
and data-fault records go on without it (R294, R321, R323, R392). -/
def State.leaveWaits (s : State) (a : Actor) : State :=
  let s := ((s.withdraw a).unpop a).cancelAccepted a.core a.slotNum
  let lock := fun (p : Packet) => match p.body with
    | .lockReq .. => true
    | .lockReply .. => true
    | .walk .. => true
    | _ => false
  let s := { s with packets := s.packets.map (fun (p : Packet) => if p.owner == some a && lock p then { p with owner := none } else p) }
  let s := match s.partOfCore a.core with
    | some p => s.setPart p { s.part p with openFaults := (s.part p).openFaults.map (fun (o : OpenFault) =>
        { o with joined := o.joined.filter (fun j => j.1 != a) }) }
    | none => s
  let t := s.thrOf a
  s.setThrOf a { t with faultSeq := none, walking := none }

/-- A slot lands: it is swapping, and the other members of its instance are held (R336, R398). -/
def State.landSlot (s : State) (k i : Nat) (forced : Bool) : State :=
  let a := Actor.slot k i
  let s := s.leaveWaits a
  let t := s.thrOf a
  let s := s.setThrOf a { t with run := .swapping, stage := 0, vals := [], arg := 0, parked := false, withdrawable := false,
                                 landing := false, forced := forced, haltSaved := t.run == .trapped, held := false,
                                 timerDue := false }
  match s.instAt k t with
  | none => s
  | some (p, l, n) =>
    let x := t.tidx.toNat
    let s := s.setLaunch p (l.setInst { n with saved := (x, k) :: n.saved })
    n.started.foldl (fun s y =>
      if y.2.2 != x && s.slotBound y.1 y.2.1 then s.setThrOf (.slot y.1 y.2.1) { s.thrOf (.slot y.1 y.2.1) with held := true }
      else s) s

/-- PREEMPT_LANDING: a save request lands at a landing point (R398). -/
def execPreemptLanding (core slot : Nat) (s : State) : Out :=
  if s.mayLand core slot then .next (s.landSlot core slot false) else .next s

/-- FORCED_SAVE: a slot that has not landed for 65,536 A-cycles, a held member, or a thread halted by a trap (R398). -/
def execForcedSave (core slot : Nat) (s : State) : Out :=
  if s.mayForce core slot then .next (s.landSlot core slot ((s.thrOf (.slot core slot)).run != .trapped)) else .next s

/-! ### The save (R399, R404) -/

/-- Whether the waits of R399 between the departure and the image are over. -/
def State.saveQuiet (s : State) (k i : Nat) : Bool :=
  let t := s.thrOf (.slot k i)
  (s.tasksOf k i).all (fun x => x.engine.isNone) && !s.copiesOut k i t.uid && t.vec.unlanded.isEmpty

/-- Whether the waits of R399 before the departure are over: no register is pending, and what the fence of R329 waits for has
happened. -/
def State.leaveQuiet (s : State) (k i : Nat) : Bool :=
  let a := Actor.slot k i
  let t := s.thrOf a
  t.pending == 0 && !s.packets.any (fun p => p.owner == some a) && !s.owesMessage a && !t.vecAccessesOut

/-- The departure of R329 of a thread that is saved, made whole: dirty words of regions 1 to 63 pushed to their home piers, then those
of region 0, and the masks of R309 are 0. The save's own stage is 1 after it. -/
def State.saveDepart (s : State) (k i : Nat) : State :=
  let push := fun (level unit : Nat) (s : State) =>
    (dirtyNamed (s.linesAt level unit) allRegions).foldl (fun s x => s.pushSector level unit x.1 x.2.1) s
  let s := push 1 (k / 16) (push 0 k s)
  let s := ((s.piers.map (·.1)).filter (s.ownSlice k)).foldl (fun s u => push 2 u s) s
  let s := s.leaveEnd (.slot k i)
  s.setThrOf (.slot k i) { s.thrOf (.slot k i) with stage := 1 }

/-- An entry put in a core's thread-context cache of 16; the least recently filled one leaves (R404). -/
def Core.fillCtx (c : Core) (e : CtxCacheEntry) : Core :=
  let l := c.ctxCache.filter (fun x => !(x.ptr == e.ptr && x.ctx == e.ctx))
  { c with ctxCache := (if 16 ≤ l.length then l.drop 1 else l) ++ [e] }

/-- The tasks of a slot that have not started, kept for the restore (R399). -/
def State.keepTasks (s : State) (k i : Nat) : State :=
  let t := s.thrOf (.slot k i)
  let q := s.quad (k / 4)
  s.setQuad (k / 4) { q with tasks := q.tasks.map (fun x =>
    if x.core == k && x.slot == i then { x with slot := 16, kept := some ((s.partOfCore k).getD 0, t.lid.toNat, t.tidx.toNat) }
    else x) }

/-- A launch's started threads with one of them out of its slot, or back in one. -/
def placeStarted (l : List (Nat × Nat × Nat)) (tidx k i : Nat) : List (Nat × Nat × Nat) :=
  l.map (fun x => if x.2.2 = tidx then (k, i, tidx) else x)

/-- Where the poisoned words of a thread's vector registers and tiles lie in its image, by their offset (R410). -/
def Thread.badOffsets (t : Thread) (img : List Byte) : List Nat :=
  let (regs, tiles) := imgLayout img (recField img)
  regs.flatMap (fun x => (t.vec.bad.filter (fun b => b.1 == x.1 && decide (8 * b.2 < up64 x.2.2))).map (fun b => x.2.1 + 64 + 8 * b.2))
    ++ (bitsSet t.savedTiles 8).zipIdx.flatMap (fun c => (Tab.get {} t.acc c.1).bad.map (fun w => tiles + 16448 * c.2 + 64 + 8 * w))

/-- The words at some offsets of a range of a context's space poisoned at home (R410). -/
def State.poisonAt (s : State) (k ctx va : Nat) (os : List Nat) : State :=
  os.foldl (fun (s : State) o => match s.tlbLookup k ctx (va + o) with
    | some e => { s with poison := (0, 0, leafPa e.leaf e.shift (va + o) / 8) :: s.poison }
    | none => s) s

/-- The image written, and the slot emptied (R399, steps 4 and 5): as a release at package scope, with the poison of what it saves. -/
def State.writeImage (s : State) (k i ctx va : Nat) (img : List Byte) : State :=
  let t := s.thrOf (.slot k i)
  let s := (s.coreWrite k ctx va img).poisonAt k ctx va (t.badOffsets img)
  let s := s.setCore k ((s.core k).fillCtx { ptr := t.saveTo, ctx := ctx, block := (img.drop 64).take 512 })
  let s := s.keepTasks k i
  let x := t.tidx.toNat
  let s := s.onInstOf k i (fun _ n => { n with started := placeStarted n.started x k 16 })
  s.vacate k i

/-- SAVE_WRITE: a landed slot is saved (R399): its waits, the departure of R329, the waits for its owed writes, and the image at the
steward's pointer. A page that cannot be written parks the steward (R167, R168). -/
def execSaveWrite (core slot : Nat) (s : State) : Out :=
  let t := s.thrOf (.slot core slot)
  let st := Actor.slot core 0
  if t.run ≠ .swapping ∨ t.saveAt.isNone ∨ (s.thrOf st).faultSeq.isSome then .next s
  else if t.stage = 0 then .next (if s.leaveQuiet core slot then s.saveDepart core slot else s)
  else if !s.saveQuiet core slot then .next s
  else
    let ctx := (s.thrOf st).ctx
    let va := ptrAddr t.saveTo
    let img := s.imageOf core slot
    match s.pagesLook core 0 va img.length 1 with
    | some (.miss x) => .next (s.needWalk st ctx x 1)
    | some (.fault x kind level size) => .next (s.dataFault st ctx x kind level size (accessBits 1) 0)
    | some .busy => .next s
    | none => .next (s.writeImage core slot ctx va img)

/-- What a kill leaves of an image that a save was to write: undefined bytes, where its pages can be written (R9, R399). -/
def State.abandonImage (s : State) (k i : Nat) : State :=
  let t := s.thrOf (.slot k i)
  let ctx := (s.thrOf (.slot k 0)).ctx
  let va := ptrAddr t.saveTo
  let n := (s.imageOf k i).length
  let (free, s) := s.takeFree
  (pagesOf va n).foldl (fun (s : State) pg =>
    let lo := max va (65536 * pg)
    let hi := min (va + n) (65536 * pg + 65536)
    if (s.pagesLook k 0 lo (hi - lo) 1).isSome then s
    else s.coreWrite k ctx lo ((List.range (hi - lo)).map (fun j => Config.freeByte free (lo + j)))) s

/-- TKILL (R355): stage 1 waits for what the thread had sent. A save of the slot under way is abandoned (R399). A thread on its way to
another core is no longer in the slot once it has left. -/
def execTkill (a : Reg) : State → Out :=
  issue { word := wordThr 2 0 a.toNat 0, srcs := [a], sub := 1, leaves := true, priv := 1 } (fun s xs =>
    withSlot (arg xs 0) (fun i =>
      let k := s.curCore
      if i = 0 ∨ !s.slotBound k i then .done s []
      else
        let t := s.thrOf (.slot k i)
        if t.run = .killed then (if s.killQuiet k i then .done (s.freeSlot k i) [] else .wait (s.setStage 1) false)
        else if t.run = .swapping && t.saveAt.isNone then .wait (s.setStage 1) false
        else
          let s := if t.run = .swapping then s.abandonImage k i else s
          let s := ((s.countKill k i).unholdOf k i).quench k i
          if s.killQuiet k i then .done (s.freeSlot k i) [] else .wait (s.setStage 1) false))

/-- Whether the save a TSAVE asked for is over, or can no longer be made (R399, R403). -/
def State.saveOver (s : State) (k i : Nat) : Bool :=
  let t := s.thrOf (.slot k i)
  !s.slotBound k i || t.run == .exited || t.run == .retiring || t.saveAt.isNone

/-- TSAVE (R403): stage 1 waits until the save is done or abandoned. -/
def execTsave (b a : Reg) : State → Out :=
  issue { word := wordThr 3 b.toNat a.toNat 0, srcs := [a, b], sub := 1, leaves := true, priv := 1 } (fun s xs =>
    withSlot (arg xs 0) (fun i =>
      let k := s.curCore
      let p := arg xs 1
      match s.checkPtr true p with
      | some c => .trap c p
      | none =>
        if ptrPath p ≠ 0 ∨ ptrAddr p % 64 ≠ 0 then .trap .pointerFault p
        else if i = 0 ∨ !s.slotBound k i then .done s []
        else if s.thr.stage = 1 then (if s.saveOver k i then .done s [] else .wait s false)
        else
          let t := s.thrOf (.slot k i)
          if t.run = .exited ∨ t.run = .retiring then .done s []
          else .wait ((s.setThrOf (.slot k i) { t with saveAt := some (t.saveAt.getD s.now), saveTo := p }).setStage 1) false))

/-! ### The restore (R403, R405, R406) -/

/-- The crew of a core into which an image's thread is restored; 0 where the core has none of it. -/
def State.imgCrew (s : State) (k : Nat) (b : List Byte) : Nat × Nat :=
  match s.partOfCore k with
  | none => (0, 0)
  | some p =>
    match s.launch? p (imgLid b) with
    | none => (0, 0)
    | some l =>
      let ord := imgTidx b / l.lrec.threads
      (((crewNamed (s.core k).crews (imgLid b) ord).elim 0 (fun c => c.1)), ord)

/-- THR_TVAL of a refused restore, from the image's header (R403, R405). DEDUCED (assumption 85): SIZE is held against HFLAGS, VREGS and
SAVED as R405 names them, not against the marks of the vector section, which the header does not hold. -/
def State.imageFault (s : State) (k i : Nat) (b : List Byte) : Option Word :=
  let part := s.part ((s.partOfCore k).getD 0)
  let missing := wordOf (imgFeatures b) &&& ~~~ part.features
  let crew := bits (s.core k).xctl 4 1
  if recField b 0 4 ≠ 0x3149534B ∨ recField b 4 2 ≠ 1 ∨ !imgSizeOk b then some (wordOf (2 ^ 63 + 1))
  else if s.slotBound k i then some (wordOf (2 ^ 63 + 2))
  else if imgFlag b 5 && (i != 15 || (crew != 0 && crew != (s.imgCrew k b).1)) then some (wordOf (2 ^ 63 + 3))
  else if missing ≠ 0 then some missing
  else none

/-- The causes in the order of their codes (R389). -/
def causeTable : List Cause :=
  [.illegalInstruction, .futureInstruction, .privilege, .pointerFault, .formatFault, .branchTarget, .loopFault,
   .scratchpadRefusal, .vaultFault, .migrationFault, .vectorAbsent, .checkFault, .accumulatorFault, .lateCopy, .messageNack,
   .sendqReject, .syncFault, .episodeFault, .timer, .userTrap, .syscall, .breakpoint, .pageFault, .imageFeature, .poison]

/-- The cause of a code. -/
def causeOf (code : Nat) : Cause := causeTable.getD (code - 1) .poison

/-- The loop levels of a register block (R401). -/
def imgLoops (rd : Nat → Nat → Nat) (n : Nat) : List LoopLevel :=
  (List.range (Nat.min n 6)).map (fun j =>
    let o := 328 + 16 * j
    let w := rd (o + 8) 8
    let start := w % 2 ^ 51 * 4
    { count := BitVec.ofNat 32 (rd o 4), index := BitVec.ofNat 32 (rd (o + 4) 4), start := BitVec.ofNat 53 start,
      stop := BitVec.ofNat 53 (start + w / 2 ^ 51 % 4096 * 4) })

/-- The CSRs of a CSR block (R401). -/
def imgCsrs (rd : Nat → Nat → Nat) : ThrCsrs :=
  let w := fun (j : Nat) => wordOf (rd (448 + 8 * j) 8)
  { status := wordOf (bits (w 0) 0 0), trappc := w 1, cause := w 2, tval := w 3, trapvec := w 4, timer := w 5, hscr := w 6,
    fpctl := w 7, regmask := w 8, ooraddr := w 9, qmap := wordOf (bits (w 10) 7 0), livetile := wordOf (bits (w 10) 15 8),
    oorflag := wordOf (bits (w 10) 16 16), vtype := wordOf (bits (w 11) 4 0), vl := wordOf (bits (w 11) 26 16),
    vlceil := wordOf (bits (w 11) 42 32), strip := wordOf (bits (w 12) 31 0), seed := wordOf (bits (w 12) 63 32),
    rank := wordOf (bits (w 13) 21 0), migmask := wordOf (2 * bits (w 13) 52 22), polver := wordOf (bits (w 14) 31 0) }

/-- A tile of an image, or a claimed one it does not hold: its contents are then undefined (R402, R406). -/
def imgTile (rd : Nat → Nat → Nat) (free : Nat) (saved : List Nat) (base c : Nat) : Tile :=
  match saved.findIdx? (fun x => x == c) with
  | none => { data := (List.range 4096).map (fun j => (j, (Config.freeByte free (16384 * c + 4 * j)
      ++ Config.freeByte free (16384 * c + 4 * j + 1) ++ Config.freeByte free (16384 * c + 4 * j + 2)
      ++ Config.freeByte free (16384 * c + 4 * j + 3) : BitVec 32))) }
  | some n =>
    let o := base + 16448 * n
    let st := rd o 4
    { ty := if st / 4 % 2 = 1 then some (st / 2 % 2 == 1) else none, sat := st / 8 % 2 == 1, xerr := st / 16 % 2 == 1,
      band := if st / 32 % 2 = 1 then some (BitVec.ofNat 32 (rd (o + 4) 4)) else none, flt := st / 64 % 2 == 1,
      data := (List.range 4096).map (fun j => (j, BitVec.ofNat 32 (rd (o + 64 + 4 * j) 4))) }

/-- A vector register of an image: its bytes below the mark; every other is undefined (R187). -/
def imgReg (rd : Nat → Nat → Nat) (free : Nat) (regs : List (Nat × Nat × Nat)) (r : Nat) : Memory :=
  let (o, w) := (regs.find? (fun x => x.1 == r)).elim (0, 0) (fun x => (x.2.1, x.2.2))
  (List.range 1024).foldl (fun (m : Memory) j =>
    m.setByte j (if j < w then BitVec.ofNat 8 (rd (o + 64 + j) 1) else Config.freeByte free (2 ^ 20 + 1024 * r + j))) []

/-- The thread an image holds (R406). `rd` reads the image with the register and CSR blocks of the thread-context cache laid
over it. -/
def imgThread (b : List Byte) (rd : Nat → Nat → Nat) (uid free crew ord : Nat) (lead : Bool) : Thread :=
  let (regs, tiles) := imgLayout b rd
  let claim := bitsSet (imgClaim b) 8
  let drained := rd 424 1
  { uid := uid, ctx := imgCtx b, crew := crew, ord := ord, lid := BitVec.ofNat 32 (imgLid b),
    tidx := BitVec.ofNat 32 (imgTidx b), lead := lead, xfer := imgFlag b 5,
    pc := BitVec.ofNat 53 (rd 64 8 % 2 ^ 53), loops := imgLoops rd (rd 64 8 / 2 ^ 53 % 8),
    g := (List.range 31).map (fun j => (j + 1, wordOf (rd (80 + 8 * j) 8))),
    empty := ~~~ BitVec.ofNat 32 (rd 72 4) &&& 0xFFFFFFFE, csr := imgCsrs rd, arriving := true, frc := imgFlag b 2,
    laneReq := imgLanes b, restored := true,
    vec := if imgFlag b 0 then
        { v := (List.range 32).map (fun r => (r, imgReg rd free regs r)), w := regs.map (fun x => (x.1, Nat.min 1024 x.2.2)),
          m := (List.range 8).map (fun j => (j, BitVec.ofNat 2048 (rd (tiles - 2048 + 256 * j) 256))) }
      else {},
    accQuota := claim.length,
    acc := claim.map (fun c => (c, imgTile rd free (bitsSet (imgSaved b) 8) tiles c)),
    taskSeq := recField b 40 4, barWait := if imgFlag b 4 then some (0, recField b 44 4) else none,
    drained := if drained = 0 then none else some { cause := causeOf drained, tval := wordOf (rd 432 8) } }

/-- How many members of a launch a quad has room for (R344): a free user slot and its tiles each, and with lanes a vector context and
lane groups of the quad. -/
def State.memberRoom (s : State) (x : Partition) (r : LaunchRec) (q : Nat) : Nat :=
  let slots := (List.range 4).foldl (fun m j =>
    let n := (s.freeSlots x (4 * q + j)).length
    m + (if r.accs = 0 then n else Nat.min n ((8 - s.tilesUsed x (4 * q + j)) / r.accs))) 0
  let used := s.lanesUsed x q
  if r.lanes = 0 then slots else Nat.min slots (Nat.min (4 - used.1) ((4 - used.2) / r.lanes))

/-- Whether a partition has room for every saved member of an instance, and the slot named is free (R336). -/
def State.restoreRoom (s : State) (k i : Nat) (lid tidx : Nat) : Bool :=
  match s.partOfCore k with
  | none => true
  | some p =>
    let x := s.part p
    match s.launch? p lid with
    | none => true
    | some l =>
      match l.insts.find? (fun n => n.num == instOf l.lrec tidx) with
      | none => true
      | some n =>
        let room := ((List.range 256).filter (fun q => x.quarters.getLsbD (quarterOfCore (4 * q)))).foldl (fun m q =>
          m + s.memberRoom x l.lrec q) 0
        decide (n.saved.length ≤ room) && s.slotFree x k i

/-- The tasks kept for a saved thread of a partition put back in its new slot (R240, R399). -/
def State.returnTasks (s : State) (k i lid tidx : Nat) : State :=
  let mine := fun (t : Task) => t.kept == some ((s.partOfCore k).getD 0, lid, tidx)
  let ts := s.quads.flatMap (fun q => q.2.tasks.filter mine)
  let s := { s with quads := s.quads.map (fun (q : Nat × Quad) => (q.1, { q.2 with tasks := q.2.tasks.filter (fun t => !mine t) })) }
  let q := s.quad (k / 4)
  s.setQuad (k / 4) { q with tasks := q.tasks ++ ts.map (fun t => { t with core := k, slot := i, kept := none }) }

/-- The slot of a restore reserved, with tiles for its claimed ones, before any state is loaded (R403). -/
def State.reserveImage (s : State) (k i : Nat) (b : List Byte) : State :=
  let (crew, ord) := s.imgCrew k b
  let t : Thread := { uid := s.nextId, ctx := imgCtx b, crew := crew, ord := ord, lid := BitVec.ofNat 32 (imgLid b),
                      tidx := BitVec.ofNat 32 (imgTidx b), arriving := true, laneReq := imgLanes b,
                      accQuota := (bitsSet (imgClaim b) 8).length }
  let c := s.core k
  { s.setCore k { c with slots := Tab.set c.slots i t } with nextId := s.nextId + 1 }

/-- The thread of an image loaded into its reserved slot: its state and tiles, the transfer slot, its kept tasks and its queue mask
(R354, R403). A poisoned word that enters its registers is its drained fault, by the offset in the image (R411). -/
def State.loadImage (s : State) (k i : Nat) (p : Word) (b : List Byte) (rd : Nat → Nat → Nat) (bad : Option Nat) : State :=
  let (crew, ord) := s.imgCrew k b
  let (free, s) := s.takeFree
  let lead := match s.partOfCore k with
    | some q => (s.launch? q (imgLid b)).elim false (fun l => imgTidx b % l.lrec.perInst == 0)
    | none => false
  let old := s.thrOf (.slot k i)
  let t := { imgThread b rd old.uid free crew ord lead with lanes := old.lanes }
  let t := match bad with
    | some o => { t with drained := some { cause := .poison, tval := wordOf (ptrAddr p + o) } }
    | none => t
  let c := s.core k
  let c := { c with
    slots := Tab.set c.slots i t
    ctxCache := c.ctxCache.filter (fun e => !(e.ptr == p && e.ctx == s.thr.ctx))
    crews := match Tab.find? c.crews crew with
      | some x => Tab.set c.crews crew { x with qmask := x.qmask ||| BitVec.ofNat 8 (bits t.csr.qmap 7 0) }
      | none => c.crews }
  ((s.setCore k c).pendAll k (if imgFlag b 5 then [.ten (some crew)] else [])).returnTasks k i (imgLid b) (imgTidx b)

/-- A restored thread comes back (R406): the arrival of R329 on another core, its place among its instance's members, whose
hold ends once all are resident; and its halt, where it was halted. -/
def State.comeBack (s : State) (k i from_ : Nat) (halt : Bool) : State :=
  let x := (s.thrOf (.slot k i)).tidx.toNat
  let s := s.release_ k i (from_ != k)
  let s := s.onInstOf k i (fun _ n =>
    { n with started := placeStarted n.started x k i, saved := n.saved.filter (fun y => y.1 != x) })
  let s := s.unholdOf k i
  let s := match s.instAt k (s.thrOf (.slot k i)) with
    | some (_, _, n) => s.setThrOf (.slot k i) { s.thrOf (.slot k i) with held := !n.saved.isEmpty }
    | none => s
  if halt then
    let t := s.thrOf (.slot k i)
    let s := s.setThrOf (.slot k i) { t with startCheck := false, drained := none }
    match t.drained with
    | some d => if d.cause = .poison then s.consumePoison (.slot k i) d.tval else s.supervisorTrap k i (causeOf (bits t.csr.cause 7 0))
    | none => s.supervisorTrap k i (causeOf (bits t.csr.cause 7 0))
  else s

/-- Reads of an image's bytes with the blocks of a thread-context cache entry laid over them (R404). -/
def imgRead (bs : List Byte) (hit : Option CtxCacheEntry) (o n : Nat) : Nat :=
  match hit with
  | some e => if 64 ≤ o ∧ o < 576 then recField e.block (o - 64) n else recField bs o n
  | none => recField bs o n

/-- The first poisoned word of an image that enters the thread's registers: one that the thread-context cache supplies does not come
from memory (R404, R411). -/
def State.imagePoison (s : State) (k ctx va size : Nat) (hit : Bool) : Option Nat :=
  if s.poison.isEmpty then none
  else ((List.range (size / 8)).map (8 * ·)).find? (fun o =>
    !(hit && decide (64 ≤ o ∧ o < 576)) && s.viewPoisoned k ctx (va + o))

/-- The end of a restore: the image's state is loaded into the reserved slot (R403, R406). -/
def restoreLoad (s : State) (k i : Nat) (p : Word) : Res :=
  match s.threadRead k s.cur.slotNum p 64 with
  | .error f => parkFault f 0
  | .ok hdr =>
    let size := Nat.min (max 576 (imgSize hdr)) (576 + 32 * 1088 + 2048 + 8 * 16448)
    match s.threadRead k s.cur.slotNum p size with
    | .error f => parkFault f 0
    | .ok bs =>
      let hit := (s.core k).ctxCache.find? (fun e => e.ptr == p && e.ctx == s.thr.ctx)
      let s := s.loadImage k i p hdr (imgRead bs hit) (s.imagePoison k s.thr.ctx (ptrAddr p) size hit.isSome)
      .done (s.comeBack k i (recField hdr 30 2) (imgFlag hdr 3)) []

/-- The restore past its checks: the slot and its tiles are reserved, and its lane groups asked for (stage 2). -/
def restoreGo (s : State) (k i : Nat) (p : Word) (b : List Byte) : Res :=
  let s := s.reserveImage k i b
  if imgLanes b = 0 then restoreLoad s k i p else .wait ((s.askLanes k i (imgLanes b)).setStage 2) false

/-- TLOAD (R403): stage 1 waits for room, stage 2 for its lane groups. -/
def execTload (b a : Reg) : State → Out :=
  issue { word := wordThr 4 b.toNat a.toNat 0, srcs := [a, b], sub := 1, leaves := true, priv := 1 } (fun s xs =>
    withSlot (arg xs 0) (fun i =>
      let k := s.curCore
      let p := arg xs 1
      if s.thr.stage = 2 then (if (s.thrOf (.slot k i)).lanes.isEmpty then .wait s false else restoreLoad s k i p)
      else
        match s.checkPtr false p with
        | some c => .trap c p
        | none =>
          if ptrPath p ≠ 0 ∨ ptrAddr p % 64 ≠ 0 then .trap .pointerFault p
          else if i = 0 then .done s []
          else
            match s.threadRead k s.cur.slotNum p 64 with
            | .error f => parkFault f 0
            | .ok hdr =>
              match s.imageFault k i hdr with
              | some v =>
                match s.partOfCore k with
                | some q => .done (s.postRecord q { kind := 8, addr := v, ctx := imgCtx hdr, b11 := causeCode .imageFeature,
                                                    core := k, slot := i }).2 []
                | none => .done s []
              | none =>
                let tiles := (s.core k).slots.foldl (fun m t => m + t.2.accQuota) 0
                if !s.restoreRoom k i (imgLid hdr) (imgTidx hdr) || decide (8 < tiles + (bitsSet (imgClaim hdr) 8).length) then
                  .wait (s.setStage 1) false
                else restoreGo s k i p hdr))

end Sys2Proof.Machine
end

