-- ==== Sys2Proof/Machine/Interface.lean ====
section
/-! DEFINITION. Virtual interfaces and Irham (R414 to R420): the doorbell page, its writes and their refusals, switching an
interface out and in, the launch ring, and the commands of the host. -/

namespace Sys2Proof.Machine

/-! ### The doorbell page (R417) -/

/-- VI_PROG: CONSUMED and CQTAIL. -/
def Vi.prog (v : Vi) : Word := wordOf (v.consumed.toNat + v.cqtail.toNat * 2 ^ 32)

/-- A ring base as a write leaves it: the address, and a size log of 4 to 12, else 4. -/
def ringBase (w : Word) : Word :=
  let q := bits w 3 0
  wordOf ((if 4 ≤ q ∧ q ≤ 12 then q else 4) + bits w 52 6 * 64)

/-- Whether both rings are idle: what a write of a ring base needs. -/
def Vi.idle (v : Vi) : Bool := v.consumed == v.tail && v.cqhead == v.cqtail

/-- A write of VI_TAIL: refused with OVF where it runs more than the ring's size ahead of CONSUMED. -/
def Vi.writeTail (v : Vi) (w : Word) : Vi :=
  if ringSize v.qbase < (low32 w - v.consumed).toNat then { v with ovf := true } else { v with tail := low32 w }

/-- A write of VI_CQHEAD: refused with OVF beyond CQTAIL. Counts are modulo 2^32, so a head that leaves more records
outstanding than the ring holds lies beyond it. -/
def Vi.writeHead (v : Vi) (w : Word) : Vi :=
  if ringSize v.cqbase < (v.cqtail - low32 w).toNat then { v with ovf := true } else { v with cqhead := low32 w }

/-- A write of VI_QBASE or VI_CQBASE, ignored unless both rings are idle. -/
def Vi.writeBase (v : Vi) (cq : Bool) (w : Word) : Vi :=
  if !v.idle then v else if cq then { v with cqbase := ringBase w } else { v with qbase := ringBase w }

/-- A write of a doorbell-page register by its offset; VI_STAT.OVF is cleared by a 1. -/
def Vi.regWrite (v : Vi) (off : Nat) (w : Word) : Vi :=
  match off with
  | 0x00 => v.writeBase false w
  | 0x08 => v.writeTail w
  | 0x18 => v.writeBase true w
  | 0x20 => v.writeHead w
  | 0x28 => if bitOf w 0 then { v with ovf := false } else v
  | _ => v

/-- Whether an interface is switched out, or on its way out (R418). -/
def Vi.away (v : Vi) : Bool := v.out || v.switching.isSome

/-- A doorbell-page register as REGR returns it; VI_PROG is frozen while the interface is away (R418). -/
def Vi.regRead (v : Vi) (off : Nat) : Word :=
  match off with
  | 0x00 => v.qbase
  | 0x08 => wordOf v.tail.toNat
  | 0x10 => if v.away then v.frozen else v.prog
  | 0x18 => v.cqbase
  | 0x20 => wordOf v.cqhead.toNat
  | 0x28 => wordOf (boolNat v.ovf + 2 * boolNat v.out + v.authf.toNat * 2 ^ 32)
  | _ => 0

/-- A register write from the host: performed, or merged into the image of an interface that is away, where the last write
of a register wins (R418). -/
def Vi.hostWrite (v : Vi) (off : Nat) (w : Word) : Vi :=
  if v.away then { v with image := v.image.filter (fun x => x.1 != off) ++ [(off, w)] } else v.regWrite off w

/-- An interface that the table lists, changed. -/
def State.onVi (s : State) (vi : Nat) (f : Vi → Vi) : State :=
  match Tab.find? s.vis vi with
  | some v => s.setVi vi (f v)
  | none => s

/-- VI_TAIL_WRITE (R417). -/
def execViTailWrite (vi : Nat) (v : Word) (s : State) : Out := .next (s.onVi vi (fun x => x.hostWrite 0x08 v))

/-- VI_CQHEAD_WRITE (R417). -/
def execViCqheadWrite (vi : Nat) (v : Word) (s : State) : Out := .next (s.onVi vi (fun x => x.hostWrite 0x20 v))

/-- VI_RING_BASE_WRITE (R417). -/
def execViRingBaseWrite (vi : Nat) (cq : Bool) (v : Word) (s : State) : Out :=
  .next (s.onVi vi (fun x => x.hostWrite (if cq then 0x18 else 0x00) v))

/-! ### Switching (R418, R419) -/

/-- A switch-out begun: the ring is read no more and VI_PROG is frozen. -/
def Vi.switchOut (v : Vi) : Vi := if v.away then v else { v with switching := some true, frozen := v.prog }

/-- A switch-out finished. -/
def Vi.switchDone (v : Vi) : Vi :=
  match v.switching with
  | some _ => { v with switching := none, out := true }
  | none => v

/-- A switch-in: the merged writes are made in their order, with the checks of R417 against the saved counts. -/
def Vi.switchIn (v : Vi) : Vi :=
  if v.out && v.switching.isNone then
    v.image.foldl (fun (x : Vi) w => x.regWrite w.1 w.2) { v with out := false, image := [] }
  else v

/-- An interface of a partition changed; one of another partition is not. -/
def State.onPartVi (s : State) (p vi : Nat) (f : Vi → Vi) : State :=
  s.onVi vi (fun v => if v.part = p then f v else v)

/-- VI_SWITCH_COMPLETE (R418). -/
def execViSwitchComplete (vi : Nat) (s : State) : Out := .next (s.onVi vi Vi.switchDone)

/-! ### The launch ring (R416) -/

/-- The context of an interface, while it is one that has not ended (R409): the commands of R415 that reach its memory need it. -/
def State.viCtx (s : State) (v : Vi) : Option Nat :=
  if (Tab.find? s.ctxs v.ctx).isSome && !(s.ctx v.ctx).dead then some v.ctx else none

/-- Whether the launch unit may read the next record of an interface's ring. -/
def State.ringReady (s : State) (vi : Nat) : Bool :=
  match Tab.find? s.vis vi with
  | some v =>
    !v.away && v.consumed != v.tail && (s.viCtx v).isSome
      && (s.rangeFault v.ctx (ringAt v.qbase 64 v.consumed.toNat) 64 0).isNone
  | none => false

/-- LAUNCH_RING_READ: the next record, read at the home piers as an acquire at package scope would, enters the launch queues
once the task graph has room (R342, R416). -/
def execLaunchRingRead (vi : Nat) (s : State) : Out :=
  let v := s.vi vi
  if !s.ringReady vi then .next s
  else
    match s.graphRoom v.part with
    | none => .next s
    | some s1 =>
      let bs := s1.genRead v.ctx (ringAt v.qbase 64 v.consumed.toNat) 64
      let s2 := s1.setVi vi { v with consumed := v.consumed + 1 }
      .next (s2.submit v.part v.ctx vi (launchRec bs)).2

/-! ### Irham (R414, R415) -/

/-- A reply: acknowledged with data, or refused with an address. Their layout on the wire is the model's own. -/
def ackBytes (data : List Byte) : List Byte := 0 :: data
def nakBytes (addr : Nat) : List Byte := 1 :: bytesLE 8 addr

/-- A datagram handled (R414): a bad tag is counted, the command after the last accepted one is performed and its reply kept and
sent, a repeat is acknowledged again with that reply, anything else is dropped. -/
def State.datagram (s : State) (vi : Nat) (sq : BitVec 48) (tag : BitVec 128) (cmd : List Byte)
    (run : State → Vi → State × List Byte) : State :=
  match Tab.find? s.vis vi with
  | none => s
  | some v =>
    if Config.datagramTag v.key vi sq.toNat cmd != tag then
      s.setVi vi { v with authf := if v.authf = BitVec.allOnes 32 then v.authf else v.authf + 1 }
    else if sq = v.lastSeq + 1 then
      let (s', r) := run s v
      s'.setVi vi { s'.vi vi with lastSeq := sq, reply := r, acks := (s'.vi vi).acks ++ [r] }
    else if sq = v.lastSeq then s.setVi vi { v with acks := v.acks ++ [v.reply] }
    else s

/-- IRHAM_WRITE: every page is translated before any byte is written (R415). -/
def execIrhamWrite (vi : Nat) (sq : BitVec 48) (tag : BitVec 128) (addr : Word) (bytes : List (BitVec 8)) (s : State) : Out :=
  .next (s.datagram vi sq tag (1 :: bytesLE 8 addr.toNat ++ bytes) (fun s v =>
    if bytes = [] then (s, ackBytes [])
    else if 4096 < bytes.length ∨ 2 ^ 53 < addr.toNat + bytes.length then (s, nakBytes addr.toNat)
    else
      match s.viCtx v with
      | none => (s, nakBytes addr.toNat)
      | some c =>
        match s.rangeFault c addr.toNat bytes.length 1 with
        | some f => (s, nakBytes f.1)
        | none => (s.genWrite c addr.toNat bytes, ackBytes [])))

/-- IRHAM_READ (R415). -/
def execIrhamRead (vi : Nat) (sq : BitVec 48) (tag : BitVec 128) (addr : Word) (n : Nat) (s : State) : Out :=
  .next (s.datagram vi sq tag (2 :: bytesLE 8 addr.toNat ++ bytesLE 8 n) (fun s v =>
    if n = 0 then (s, ackBytes [])
    else if 4096 < n ∨ 2 ^ 53 < addr.toNat + n then (s, nakBytes addr.toNat)
    else
      match s.viCtx v with
      | none => (s, nakBytes addr.toNat)
      | some c =>
        match s.rangeFault c addr.toNat n 0 with
        | some f => (s, nakBytes f.1)
        | none => (s, ackBytes (s.genRead c addr.toNat n))))

/-- IRHAM_REGW (R415, R417). -/
def execIrhamRegw (vi : Nat) (sq : BitVec 48) (tag : BitVec 128) (off : BitVec 12) (v : Word) (s : State) : Out :=
  .next (s.datagram vi sq tag (3 :: bytesLE 2 off.toNat ++ bytesLE 8 v.toNat) (fun s x =>
    (s.setVi vi (x.hostWrite off.toNat v), ackBytes [])))

/-- IRHAM_REGR (R415, R417, R418). -/
def execIrhamRegr (vi : Nat) (sq : BitVec 48) (tag : BitVec 128) (off : BitVec 12) (s : State) : Out :=
  .next (s.datagram vi sq tag (4 :: bytesLE 2 off.toNat) (fun s x =>
    (s, ackBytes (bytesLE 8 (x.regRead off.toNat).toNat))))

/-- The counts a host sees: the quarter-dies of the partition and what each holds, and its granules (R28, R30). -/
def Partition.counts (p : Partition) : List Byte :=
  let q := ((List.range 16).filter (fun i => p.quarters.getLsbD i)).length
  bytesLE 4 (64 * q) ++ bytesLE 4 (16 * q) ++ bytesLE 4 (4 * q) ++ bytesLE 4 (8 * q) ++ bytesLE 8 p.granules

/-- IRHAM_INFO (R30, R415). -/
def execIrhamInfo (vi : Nat) (sq : BitVec 48) (tag : BitVec 128) (s : State) : Out :=
  .next (s.datagram vi sq tag [5] (fun s x => (s, ackBytes (s.part x.part).counts)))

/-- What a quote of a partition measures, in order: the firmware and the limit record, the partition's quarter map and cap,
its supervisor image, and its resident objects (R427). -/
def State.measurements (s : State) (p : Nat) : List Byte :=
  let x := s.part p
  s.measures.flatten ++ Config.measure (bytesLE 2 x.quarters.toNat ++ bytesLE 2 x.capw.toNat)
    ++ Config.measure (Config.supervisorImage p)
    ++ ((s.objs.filter (fun o => o.2.part == p)).flatMap (fun o => Config.measure o.2.bytes))

/-- IRHAM_ATTEST: the measurements with the caller's nonce, signed, and the certificate of the key (R427). -/
def execIrhamAttest (vi : Nat) (sq : BitVec 48) (tag : BitVec 128) (nonce : List (BitVec 8)) (s : State) : Out :=
  .next (s.datagram vi sq tag (6 :: nonce) (fun s x =>
    if 32 < nonce.length then (s, nakBytes 0)
    else
      let q := s.measurements x.part ++ nonce
      (s, ackBytes (q ++ Config.quoteSignature q ++ Config.certificate s.pkg))))

end Sys2Proof.Machine
end

