-- ==== Sys2Proof/Machine/Supervisor.lean ====
section
/-! DEFINITION. What the supervisor rules on and what ends a context: data-fault resolution and TLB invalidation (R169, R170),
the fault queue and its signals (R395, R396), rulings on trap records (R397), the kill-drain (R408, R409), and errors in
memory and metadata (R410, R412). -/

namespace Sys2Proof.Machine

/-! ### Data faults resolved (R169) -/

/-- TLB entries dropped from every TLB of a partition. -/
def State.tlbDrop (s : State) (p : Nat) (gone : TlbEntry → Bool) : State :=
  let mine := fun (k : Nat) => s.partOfCore k == some p
  { s with
    cores := s.cores.map (fun (c : Nat × Core) => if mine c.1 then (c.1, { c.2 with tlb := c.2.tlb.filter (fun e => !gone e) }) else c)
    clusters := s.clusters.map (fun (c : Nat × Cluster) =>
      if mine (16 * c.1) then (c.1, { c.2 with tlb := c.2.tlb.filter (fun e => !gone e) }) else c) }

/-- Whether an entry of a context covers a virtual address. -/
def TlbEntry.covers (e : TlbEntry) (ctx va : Nat) : Bool := e.ctx == ctx && e.page == va / 2 ^ e.shift

/-- A joined access that retries: its instruction issues again, or its vector instruction is checked again. -/
def Thread.retryFault (t : Thread) : Thread :=
  { t with faultSeq := none, vq := t.vq.map (fun e => { e with stalled := false }) }

/-- Whether a thread waits on a record. -/
def State.waitsOn (s : State) (seq : Nat) (a : Actor) : Bool := s.live a && (s.thrOf a).faultSeq == some seq

/-- A ruling to retry: the record is resolved and every joined access walks the page again. -/
def State.faultRetry (s : State) (p seq : Nat) : State :=
  let x := s.part p
  match x.openFaults.find? (fun o => o.seq == seq && !o.abandoned) with
  | none => s
  | some o =>
    let s := s.setPart p { x with openFaults := x.openFaults.filter (fun q => q.seq != seq) }
    let s := s.tlbDrop p (fun e => e.covers o.ctx o.addr.toNat)
    o.joined.foldl (fun s j => if s.waitsOn seq j.1 then s.setThrOf j.1 (s.thrOf j.1).retryFault else s) s

/-- The PAGE_FAULT of a joined access that is abandoned: a stalled vector instruction traps in the unit; a thread outside
run-ahead halts at its instruction; one in run-ahead halts when run-ahead ends. -/
def State.abandonOne (s : State) (a : Actor) (va : Nat) : State × Bool :=
  let t := s.thrOf a
  if t.vq.any (fun e => e.stalled) then
    (s.setThrOf a { t with faultSeq := none, vq := t.vq.map (fun e =>
      if e.stalled then { e with stalled := false, trap := some (.pageFault, wordOf va) } else e) }, false)
  else if t.runAhead then (s, true)
  else ((s.setThrOf a { t with faultSeq := none }).takeTrap a .pageFault (wordOf va) t.pc false, false)

/-- A ruling to abandon: every joined thread halts with PAGE_FAULT. -/
def State.faultAbandon (s : State) (p seq : Nat) : State :=
  match (s.part p).openFaults.find? (fun o => o.seq == seq && !o.abandoned) with
  | none => s
  | some o =>
    let (s, left) := o.joined.foldl (fun (acc : State × List (Actor × Nat)) j =>
      if acc.1.waitsOn seq j.1 then
        let (s, later) := acc.1.abandonOne j.1 j.2
        (s, if later then j :: acc.2 else acc.2)
      else acc) (s, [])
    let x := s.part p
    s.setPart p { x with openFaults := x.openFaults.filterMap (fun q =>
      if q.seq = seq then (if left.isEmpty then none else some { q with joined := left, abandoned := true }) else some q) }

/-- The PAGE_FAULT an abandoned record still holds for a thread: its address. -/
def State.abandonedAt (s : State) (a : Actor) : Option Nat :=
  match s.partOfCore a.core, (s.thrOf a).faultSeq with
  | some p, some q =>
    match (s.part p).openFaults.find? (fun o => o.seq == q && o.abandoned) with
    | some o => (o.joined.find? (fun j => j.1 == a)).map (·.2)
    | none => none
  | _, _ => none

/-- A write of PRT_FAULTRES (R169). -/
def State.faultRes (s : State) (p : Nat) (v : Word) : State :=
  match bits v 33 32 with
  | 0 => s.faultRetry p (bits v 31 0)
  | 1 => s.faultAbandon p (bits v 31 0)
  | _ => s

/-! ### TLB invalidation (R170) -/

/-- What a write of PRT_TLBINV drops from every TLB of the partition. -/
def State.tlbInv (s : State) (p : Nat) (v : Word) : State :=
  let c := bits v 11 0
  s.tlbDrop p (fun e => if bitOf v 12 then e.ctx == c else e.covers c (bits v 52 16 * 65536))

/-- Whether a walk begun before packet number `n` in a context of the partition is under way. -/
def State.walksBefore (s : State) (p n : Nat) : Bool :=
  s.packets.any (fun q => decide (q.id < n) && (s.ctx q.ctx).part == p && match q.body with
    | .walk .. => true
    | _ => false)

/-! ### The fault queue (R395, R396) -/

/-- The 32 bytes of a record; TIME is the TB of its posting (R168, R396). -/
def FaultRec.bytes (r : FaultRec) (tb : Word) : List Byte :=
  let trap := r.kind = 8
  bytesLE 8 r.addr.toNat ++ bytesLE 2 (r.ctx % 4096) ++ bytesLE 1 r.kind ++ bytesLE 1 r.b11 ++ bytesLE 1 r.b12
    ++ bytesLE 1 (if trap then 0 else r.b13) ++ bytesLE 2 r.core ++ bytesLE 1 r.slot ++ bytesLE 3 0 ++ bytesLE 4 r.seq
    ++ bytesLE 8 (if trap then r.time else tb).toNat

/-- A word of class 15 for slot 0 of a core; one that finds the queue full is dropped. -/
def State.signal (s : State) (k : Nat) (w : Word) : State :=
  let c := s.core k
  let q := c.classQ 15
  if 4 ≤ q.length + Tab.get 0 c.resv 15 then s
  else s.setCore k (c.setClassQ 15 (q ++ [{ words := [w] }]))

/-- The core a signal of a partition goes to: the primary supervisor's, or the backup's for the primary's own trap. -/
def Partition.signalCore (x : Partition) (own : Bool) : Nat :=
  if own && bitOf x.supcore 20 then bits x.supcore 19 10 else bits x.supcore 9 0

/-- The address of the next record of the queue, where there is room and the page can be written. -/
def State.queuePlace (s : State) (p : Nat) : Option Nat :=
  let x := s.part p
  if bits (x.fqtail - x.fqhead) 31 0 = 1024 then none
  else
    let va := bits x.fqbase 52 0 + 32 * (bits x.fqtail 31 0 % 1024)
    if (Tab.find? s.ctxs x.fqctx).isSome && !(s.ctx x.fqctx).dead && (s.rangeFault x.fqctx va 32 1).isNone then some va else none

/-- FAULT_RECORD_POST: the oldest waiting record is written, PRT_FQTAIL rises, and the supervisor is signalled. -/
def execFaultRecordPost (part : Nat) (s : State) : Out :=
  let x := s.part part
  match x.waiting, s.queuePlace part with
  | r :: rest, some va =>
    let s1 := s.genWrite x.fqctx va (r.bytes s.tb)
    let s2 := s1.setPart part { s1.part part with waiting := rest, fqtail := wordOf ((bits x.fqtail 31 0 + 1) % 2 ^ 32) }
    let own := r.kind = 8 ∧ r.slot = 0 ∧ r.core = bits x.supcore 9 0
    .next (s2.signal (x.signalCore own) (wordOf (2 ^ 63 + r.kind * 2 ^ 32 + r.seq)))
  | _, _ => .next s

/-! ### Rulings on trap records (R397) -/

/-- The thread a trap record names, where it is still halted by that trap and may be resumed. -/
def State.ruledOn (s : State) (p seq : Nat) : Option (Nat × Nat) :=
  match (s.part p).trapRecs.find? (fun r => r.1 == seq) with
  | some (_, k, i, c) =>
    let t := s.thrOf (.slot k i)
    if s.slotBound k i && t.run == .trapped && t.recSeq == seq && c != .poison && c != .imageFeature then some (k, i) else none
  | none => none

/-- A resume of the thread of a slot: REG written full under WREN, the pc set, and the check of R462 at its next turn. It is no
trap return: the thread's first vector instruction begins a convoy whatever its CB (DESIGN CHOICE, assumption 74; R185 and R397 do
not say). -/
def State.resume (s : State) (p k i : Nat) (v : Word) (next : Bool) : State :=
  let a := Actor.slot k i
  let t := s.thrOf a
  let t := if bitOf v 39 then t.putG (BitVec.ofNat 5 (bits v 38 34)) (s.part p).trapval else t
  let pc : BitVec 53 := BitVec.ofNat 53 t.csr.trappc.toNat + (if next then 4 else 0)
  let s := s.setThrOf a { t.goTo pc t.loops false with run := .issuing, startCheck := true }
  s.setPart p { s.part p with trapRecs := (s.part p).trapRecs.filter (fun r => r.1 != bits v 31 0) }

/-- A write of PRT_TRAPRES (R397). -/
def State.trapRes (s : State) (p : Nat) (v : Word) : State :=
  match s.ruledOn p (bits v 31 0) with
  | some (k, i) => if bits v 33 32 ≤ 1 then s.resume p k i v (bits v 33 32 == 1) else s
  | none => s

/-! ### The kill-drain (R408, R409) -/

/-- The slots that hold a tag. -/
def State.slotsOfCtx (s : State) (tag : Nat) : List (Nat × Nat) :=
  s.cores.flatMap (fun c => c.2.slots.filterMap (fun t =>
    if t.2.ctx == tag && (s.partOfCore c.1).isSome && (s.partOfCore c.1) == some (s.ctx tag).part then some (c.1, t.1) else none))

/-- A slot quenched and emptied, with no release and nothing counted. -/
def State.dropSlot (s : State) (k i : Nat) : State :=
  let s := s.leaveWaits (.slot k i)
  let c := s.core k
  let s := s.setCore k { c with sendbuf := c.sendbuf.filter (fun e => e.slot != i), resv := c.resv.filter (fun r => Tab.find? c.bind r.1 != some i) }
  (s.clearSlot k i).vacate k i

/-- The crews of a core that belong to a tag, dropped. -/
def State.dropCrewsOf (s : State) (k tag : Nat) : State :=
  ((s.core k).crews.filter (fun c => c.2.ctx == tag)).foldl (fun s c => s.dropCrew k c.1) s

/-- What is left of a packet of a tag once its threads' state is discarded (R408): what is on its way to a unit is still seen there;
answers, waits and accesses that only the thread performs go, and results land nowhere. -/
def Body.drainsOn : Body → Option Body
  | .load .. => none
  | .fetch .. => none
  | .probe => none
  | .walk .. => none
  | .qwait .. => none
  | .qwaitReply _ => none
  | .rankAsk _ => none
  | .rankTold .. => none
  | .succ .. => none
  | .poison _ => none
  | .msgAck .. => none
  | .msgRefuse .. => none
  | .sendqReply .. => none
  | .sprRefuse .. => none
  | .sprAck .. => none
  | .compFill .. => none
  | .migrant .. => none
  | .lockReply .. => none
  | .engine (.vec ..) _ _ => none
  | .engine (.vlda ..) _ _ => none
  | .msg k e i h => if e.sendq.isSome then none else some (.msg k e i h)
  | .toHome k e => if e.sendq.isSome then none else some (.toHome k e)
  | .rankFetch k e => if e.sendq.isSome then none else some (.rankFetch k e)
  | .msgReturn k e i => if e.sendq.isSome then none else some (.msgReturn k e i)
  | .atomic fn _ p n v c x sc o => some (.atomic fn .none p n v c x sc o)
  | .spr 1 p n v fn c _ => some (.spr 1 p n v fn c .none)
  | b => some b

/-- The packets of a tag once its threads' state is discarded; what waits at its sender goes with it. -/
def State.drainPackets (s : State) (tag : Nat) : State :=
  let s := { s with packets := s.packets.filterMap (fun (p : Packet) =>
    if p.ctx != tag then some p else if p.waiting then none else p.body.drainsOn.map (fun b => { p with body := b, owner := none })) }
  { s with qwaits := s.qwaits.filter (fun w => s.packets.any (fun p => p.id == w.pkt)) }

/-- The answered SENDQs of a tag given up, with what their targets have reserved (R295). -/
def State.drainSendqs (s : State) (tag : Nat) : State :=
  (s.packets.filter (fun (p : Packet) => p.ctx == tag && match p.body with | .sendqReply .. => true | _ => false)).foldl State.cancelSendq s

/-- Step 1 of the drain: issue quenched and state discarded wherever the tag is held; its launches leave no record. -/
def State.killQuench (s : State) (p tag : Nat) : State :=
  let s := s.drainSendqs tag
  let s := (s.slotsOfCtx tag).foldl (fun s x => s.dropSlot x.1 x.2) s
  let s := ((s.episodes.filter (fun e => e.2.ctx == tag)).map (·.1)).foldl State.settleEpisode s
  let s := (s.cores.map (·.1)).foldl (fun s k => s.dropCrewsOf k tag) s
  let s := { s with
    cores := s.cores.map (fun (c : Nat × Core) => (c.1, { c.2 with
      sendbuf := c.2.sendbuf.filter (fun e => e.ctx != tag), arrivals := c.2.arrivals.filter (fun m => m.thr.ctx != tag) }))
    episodes := s.episodes.filter (fun e => e.2.ctx != tag)
    ctxs := s.ctxs.map (fun (c : Nat × Ctx) => if c.1 = tag then (c.1, { c.2 with dead := true }) else c) }
  let x := s.part p
  let lids := (x.graph.filter (fun l => l.ctx == tag)).map Launch.lid
  let s := { s with quads := s.quads.map (fun (q : Nat × Quad) =>
    if s.partOfCore (4 * q.1) = some p then
      (q.1, { q.2 with tasks := q.2.tasks.filter (fun t => match t.kept with | some (o, l, _) => !(o == p && lids.contains l) | none => true) })
    else q) }
  let s := s.drainPackets tag
  s.setPart p { x with graph := x.graph.filter (fun l => l.ctx != tag),
                       openFaults := x.openFaults.filter (fun o => o.ctx != tag) }

/-- The drain of a context of a partition begun, unless one is under way there. -/
def State.killStart (s : State) (p tag : Nat) : State :=
  if (s.part p).killing.isSome ∨ (Tab.find? s.ctxs tag).map Ctx.part ≠ some p then s
  else
    let s := s.killQuench p tag
    s.setPart p { s.part p with killing := some (tag, []) }

/-- The units that acknowledge: 0 to 15 the piers of a quarter-die, 16 to 31 its vault ports, 32 to 47 its memory controllers,
48 to 111 copy engines, 112 to 127 gateways, 128 the hub. -/
def drainUnits : Nat := 129

/-- Whether a packet on its way is bound for a pier of a quarter-die. -/
def Packet.toPier (p : Packet) : Bool :=
  match p.body with
  | .store .. => true
  | .atomic _ _ _ _ _ _ x _ _ => x.isSome
  | .lockReq .. => true
  | .lockRel .. => true
  | .regis .. => p.net == .req
  | .engine (.copy ..) _ _ => p.net == .req
  | _ => false

/-- Whether a packet brings payload to pages of any home (R295). -/
def Packet.toAnyPier (p : Packet) : Bool := match p.body with | .sendqData .. => true | _ => false

/-- Whether a packet is still to be seen by a unit that acknowledges. -/
def Packet.drainsAt (p : Packet) (unit : Nat) : Bool :=
  let quarter := 4 * endDie p.dst + endQuarter p.dst
  if unit < 16 ∨ (32 ≤ unit ∧ unit < 48) then (p.toPier && quarter == unit % 16) || p.toAnyPier
  else if unit < 32 then decide (2048 ≤ p.dst) && quarter == unit - 16
  else if 112 ≤ unit ∧ unit < 128 then
    !p.whole && endDie p.src != endDie p.dst && (endDie p.src == (unit - 112) / 4 || endDie p.dst == (unit - 112) / 4)
  else if unit = 128 then p.dst == hubPort || (!p.whole && p.src == hubPort)
  else false

/-- Whether a copy engine holds copies of a tag. -/
def State.copiesOf (s : State) (tag : Nat) : Bool := s.clusters.any (fun c => c.2.copies.any (fun x => x.ctx == tag))

/-- Whether a unit has seen everything the tag sent it: its token is behind the traffic of each source, and a copy engine's behind
what the engine itself has still to send (R275, R408). -/
def State.drained (s : State) (tag unit : Nat) : Bool :=
  (decide (48 ≤ unit ∧ unit < 112) || !s.copiesOf tag)
    && !s.packets.any (fun p => p.ctx == tag && !p.held && p.drainsAt unit)

/-- A unit's queued work and lock-table entries of a tag discarded; locks it held pass on with AB (R321). -/
def State.discardAt (s : State) (tag unit : Nat) : State :=
  if unit < 16 then
    let here := fun (slice : Nat) => slice / 16 == unit
    let mine := fun (id : Nat) => (s.packet? id).elim false (fun p => p.ctx == tag)
    let s1 : State := { s with
      qwaits := s.qwaits.filter (fun w => !(here w.slice && mine w.pkt))
      locks := s.locks.map (fun (l : Lock) => if here l.slice then { l with waiters := l.waiters.filter (fun w => w.2 != tag) } else l) }
    let held := s1.locks.filter (fun l => here l.slice && l.holder == tag)
    held.foldl (fun s l => s.passLock l true) s1
  else if 48 ≤ unit ∧ unit < 112 then
    let cl := unit - 48
    let x := s.cluster cl
    let gone := (x.copies.filter (fun c => c.ctx == tag)).map Copy.id
    if gone.isEmpty then s
    else { (s.setCluster cl { x with copies := x.copies.filter (fun c => c.ctx != tag) }) with
           contribs := s.contribs.filter (fun c => !(c.cluster == cl && gone.contains c.copy)) }
  else s

/-- The partition that drains a tag. -/
def State.drainOf (s : State) (tag : Nat) : Option (Nat × List Nat) :=
  s.parts.findSome? (fun x => match x.2.killing with
    | some (t, acks) => if t = tag then some (x.1, acks) else none
    | none => none)

/-- DRAIN_TOKEN_ARRIVAL: a unit that has seen the tag's tokens discards its queued work and acknowledges (R408, step 3). -/
def execDrainTokenArrival (tag unit : Nat) (s : State) : Out :=
  match s.drainOf tag with
  | some (p, acks) =>
    if drainUnits ≤ unit ∨ acks.contains unit ∨ !s.drained tag unit then .next s
    else
      let s1 := s.discardAt tag unit
      .next (s1.setPart p { s1.part p with killing := some (tag, unit :: acks) })
  | none => .next s

/-- No write of the tag is left: its packets and its lines in caches go (R409), and its code pages, pinned until the context
ends (R88, R170), are pinned no more. -/
def State.purge (s : State) (tag : Nat) : State :=
  { s with
    ctxs := s.ctxs.map (fun (c : Nat × Ctx) => if c.1 = tag then (c.1, { c.2 with code := [] }) else c)
    packets := s.packets.filter (fun p => p.ctx != tag)
    cores := s.cores.map (fun (c : Nat × Core) => (c.1, { c.2 with l1 := c.2.l1.filter (fun l => l.ctx != tag) }))
    clusters := s.clusters.map (fun (c : Nat × Cluster) => (c.1, { c.2 with cc := c.2.cc.filter (fun l => l.ctx != tag) }))
    piers := s.piers.map (fun (c : Nat × List Line) => (c.1, c.2.filter (fun l => l.ctx != tag))) }

/-- KILL_DRAIN_COMPLETE: every unit has acknowledged (R408, step 4). -/
def execKillDrainComplete (tag : Nat) (s : State) : Out :=
  match s.drainOf tag with
  | some (p, acks) =>
    if (List.range drainUnits).all acks.contains then
      let s1 := s.purge tag
      .next (s1.setPart p { s1.part p with killing := none })
    else .next s
  | none => .next s

/-! ### The end of a resize (R421) -/

/-- Whether a granule of a partition is homed on a quarter-die that departs. -/
def Partition.departs (x : Partition) (g : Nat) : Bool :=
  match x.resize with
  | some (leaving, _) => leaving.getLsbD (x.homeQuarter g)
  | none => false

/-- Lines of a cache written back to their homes and dropped. -/
def State.shedLines (s : State) (level unit : Nat) (lines : List Nat) : State :=
  lines.foldl (fun s n =>
    let s := if level = 0 then (s.pushHome unit n 0).pushHome unit n 1
             else if level = 1 then (s.pushHome (16 * unit) n 0).pushHome (16 * unit) n 1
             else (s.pushSector 2 unit n 0).pushSector 2 unit n 1
    s.shedLine level unit n) s

/-- Nothing of a partition is left in the caches of the quarter-dies that depart, nor in any of its visitor lines, whose slices are
chosen anew among those that stay (R152). -/
def State.clearQuarters (s : State) (p : Nat) (leaving : BitVec 16) : State :=
  let s := ((s.cores.map (·.1)).filter (fun k => decide (k < 1024) && inQuarters leaving k)).foldl (fun s k =>
    s.shedLines 0 k ((s.linesAt 0 k).map Line.line)) s
  let s := ((s.clusters.map (·.1)).filter (fun c => inQuarters leaving (16 * c))).foldl (fun s c =>
    s.shedLines 1 c ((s.linesAt 1 c).map Line.line)) s
  ((s.piers.map (·.1)).filter (fun d => s.partOfQuarter (d / 16) == some p)).foldl (fun s d =>
    s.shedLines 2 d ((s.linesAt 2 d).map Line.line)) s

/-- Step 4: once no granule departs, PRT_QTRMAP changes. -/
def State.resizeEnd (s : State) (p : Nat) : State :=
  let x := s.part p
  match x.resize with
  | some (leaving, _) =>
    if x.moving && (List.range x.granules).all (fun j => !x.departs (x.base + j)) then
      let s := s.clearQuarters p leaving
      s.setPart p { s.part p with quarters := x.quarters &&& ~~~ leaving, resize := none, moving := false }
    else s
  | none => s

/-! ### Errors (R410, R412) -/

/-- Where the scrubber works (assumption 88): place 0 is home memory, 1 + k the scratchpad of core k, 1,025 + v vault v, 1,089 + k
the L1 of core k, 2,113 + c cluster cache c, 2,177 + j the visitor lines of pier slice j, 2,433 + k the queues of core k, 3,457 +
16k + i the vector registers of slot i of core k, and 19,841 + 16k + i its tiles. The storage and the unit: storages 0 to 5 as the
list of poisoned words names them, 6 queues, 7 vector registers, 8 tiles. -/
def scrubPlace (place : Nat) : Nat × Nat :=
  if place = 0 then (0, 0)
  else if place ≤ 1024 then (1, place - 1)
  else if place < 1089 then (2, place - 1025)
  else if place < 2113 then (3, place - 1089)
  else if place < 2177 then (4, place - 2113)
  else if place < 2433 then (5, place - 2177)
  else if place < 3457 then (6, place - 2433)
  else if place < 19841 then (7, place - 3457)
  else (8, place - 19841)

/-- A word of a core's queue poisoned: words are numbered 16 × queue + place from the head. -/
def Core.poisonQueue (c : Core) (word : Nat) : Core :=
  match Tab.find? c.queues (word / 16) with
  | some q => c.setQueue (word / 16) { q with ents := q.ents.zipIdx.map (fun e => if e.2 = word % 16 then { e.1 with bad := true } else e.1) }
  | none => c

/-- A word of a slot's vector registers poisoned: words are numbered 128 × register + word. -/
def Thread.poisonVec (t : Thread) (word : Nat) : Thread :=
  { t with vec := { t.vec with bad := (word / 128, word % 128) :: t.vec.bad.filter (fun b => b != (word / 128, word % 128)) } }

/-- A word of a slot's tiles poisoned: words are numbered 2,048 × tile + word. -/
def Thread.poisonTile (t : Thread) (word : Nat) : Thread :=
  match Tab.find? t.acc (word / 2048) with
  | some c => { t with acc := Tab.set t.acc (word / 2048) { c with bad := word % 2048 :: c.bad.filter (fun b => b != word % 2048) } }
  | none => t

/-- A thread of a slot that holds one, changed. -/
def State.onSlot (s : State) (unit : Nat) (f : Thread → Thread) : State :=
  let a := Actor.slot (unit / 16) (unit % 16)
  if s.slotBound (unit / 16) (unit % 16) then s.setThrOf a (f (s.thrOf a)) else s

/-- A word of a storage poisoned. -/
def State.poisonWord (s : State) (store unit word : Nat) : State :=
  match store with
  | 6 => s.setCore unit ((s.core unit).poisonQueue word)
  | 7 => s.onSlot unit (fun t => t.poisonVec word)
  | 8 => s.onSlot unit (fun t => t.poisonTile word)
  | _ => { s with poison := (store, unit, word) :: s.poison.filter (fun w => w != (store, unit, word))
                  flawed := s.flawed.filter (fun w => w != (store, unit, word)) }

/-- Whether a storage has a word: a cache holds the words of its lines. -/
def State.hasWord (s : State) (store unit word : Nat) : Bool :=
  if 3 ≤ store ∧ store ≤ 5 then (findLine (s.linesAt (store - 3) unit) (word / 32)).isSome else true

/-- The partition and context that own a word: of a scratchpad the crew of its rows, of a vault the context whose grant covers
it, of a cache line its tag, of a thread's registers and tiles the thread's, of memory and queues the partition that holds them. The
owner tag of a line of memory or of a queue is not state: it is a free value. -/
def State.ownerOf (s : State) (store unit a : Nat) (free : Word) : Option (Nat × Nat) :=
  let open_ := bits free 11 0
  let tagged := fun (q : Option Nat) (level : Nat) => q.map (fun p => (p, ((findLine (s.linesAt level unit) (a / 256)).map Line.ctx).getD open_))
  match store with
  | 0 => (List.find? (fun (p : Nat × Partition) => p.2.holds a 8) s.parts).map (fun p => (p.1, open_))
  | 1 =>
    (s.partOfCore unit).map (fun p =>
      (p, (((s.core unit).crews.map (·.2)).find? (fun c => decide (8192 * c.base ≤ a ∧ a < 8192 * (c.base + c.rows)))).elim open_ Crew.ctx))
  | 2 =>
    (s.partOfQuarter (unit / 4)).map (fun p =>
      (p, (List.find? (fun (c : Nat × Ctx) => c.2.part == p && c.2.grants.any (fun g => bitOf g 8 && bits g 5 4 == unit / 16
        && bits g 3 0 == unit % 16 && decide (bits g 26 12 ≤ a / 4096 ∧ a / 4096 ≤ bits g 41 27))) s.ctxs).elim open_ (·.1)))
  | 3 => tagged (s.partOfCore unit) 0
  | 4 => tagged (s.partOfCore (16 * unit)) 1
  | 5 => tagged (s.partOfQuarter (unit / 16)) 2
  | 6 => (s.partOfCore unit).map (fun p => (p, open_))
  | _ => (s.partOfCore (unit / 16)).map (fun p => (p, (s.thrOf (.slot (unit / 16) (unit % 16))).ctx))

/-- A KIND 9 notice of a word that the scrubber has poisoned, to the partition of its owner (R396, R410). -/
def State.poisonNotice (s : State) (store unit word : Nat) : State :=
  let (n, s) := s.takeFree
  match s.ownerOf store unit (8 * word) (Config.freeValue n) with
  | some (p, c) => (s.postRecord p { kind := 9, addr := wordOf (8 * word / 256 * 256), ctx := c, b13 := 255 }).2
  | none => s

/-- SCRUB_WORD, with the errors it meets (R410): kind 1 corrects a single-bit error, 2 poisons the word and posts a KIND 9 notice; 3
is a single-bit error that arises in the word and waits for an access or the scrubber, 4 an uncorrectable one found by an access,
which poisons the word and posts no notice; any other kind finds the word clean. -/
def execScrubWord (place word kind : Nat) (s : State) : Out :=
  let (store, unit) := scrubPlace place
  let at_ := (store, unit, word)
  if !s.hasWord store unit word then .next s
  else
    match kind with
    | 1 => .next { s.countError store unit false with flawed := s.flawed.filter (fun w => w != at_) }
    | 2 => .next (((s.countError store unit true).poisonWord store unit word).poisonNotice store unit word)
    | 3 => .next (if store ≤ 5 then { s with flawed := at_ :: s.flawed.filter (fun w => w != at_) } else s)
    | 4 => .next ((s.countError store unit true).poisonWord store unit word)
    | _ => .next s

/-- METADATA_ERROR: the owning context is ended by a kill-drain and a KIND 10 record is posted; where the error lay is a free
value (R412). It waits for a drain under way in the partition. -/
def execMetadataError (ctx : Nat) (s : State) : Out :=
  match Tab.find? s.ctxs ctx with
  | some c =>
    if (s.part c.part).killing.isSome then .next s
    else
      let (n, s1) := s.takeFree
      let s2 := (s1.postRecord c.part { kind := 10, addr := wordOf (bits (Config.freeValue n) 51 8 * 256), ctx := ctx, b13 := 255 }).2
      .next (s2.killStart c.part ctx)
  | none => .next s

/-- OWNER_TAG_ERROR: the partition that holds the unit is reset (R412, R423). -/
def execOwnerTagError (part : Nat) (s : State) : Out :=
  .next (if (Tab.find? s.parts part).isSome then s.resetPartition part else s)

end Sys2Proof.Machine
end

