-- ==== Sys2Proof/Machine/System.lean ====
section
/-! DEFINITION. CSRs and the SYS class (R382 to R388): numbers and rights, reads, writes under R7 and R73, the events that are
writes of one register, SYSC, TRAP, BREAK and TRET, the timer (R393) and the taking of asynchronous traps (R392). -/

namespace Sys2Proof.Machine

/-- The word of a SYS instruction (R386). -/
def wordSys (f3 csr a d : Nat) : Nat := wordI 24 f3 csr a d

/-! ### Numbers and rights (R383, R384) -/

/-- The numbers the D9 assigns (R384). -/
def csrAssigned (n : Nat) : Bool :=
  decide (n ≤ 0x007 ∨ (0x010 ≤ n ∧ n ≤ 0x01F) ∨ n = 0x100 ∨ n = 0x101 ∨ (0x200 ≤ n ∧ n ≤ 0x209) ∨ (0x210 ≤ n ∧ n ≤ 0x232)
    ∨ n = 0x400 ∨ (0x600 ≤ n ∧ n ≤ 0x603) ∨ (0x610 ≤ n ∧ n ≤ 0x614) ∨ n = 0x618 ∨ (0x620 ≤ n ∧ n ≤ 0x622)
    ∨ n = 0x628 ∨ n = 0x629 ∨ (0x630 ≤ n ∧ n ≤ 0x634))

/-- The registers that hold a W field. -/
def csrHasW (n : Nat) : Bool := [0x209, 0x610, 0x611, 0x612, 0x614, 0x621, 0x629, 0x633, 0x634].contains n

/-- The privilege a read, and a write, of a number needs (R382, R383): 0 user, 1 steward, 2 system. The windows' own rule is
R157's. -/
def csrReadPriv (n : Nat) : Nat :=
  if n < 0x100 then 0 else if n < 0x200 then 1 else if n < 0x400 then 0 else if n < 0x600 then 1 else 2
def csrWritePriv (n : Nat) : Nat :=
  if n < 0x100 then 0 else if n < 0x200 then 1 else if n < 0x208 then 0 else if n < 0x400 then 1 else 2

/-- The numbers an episode context may name (R366). -/
def csrEpisode (n : Nat) (write : Bool) : Bool := n == 0x012 || (!write && n == 0x000)

/-- The trap a CSR instruction takes before anything else: unassigned, without rights, or a set or clear of a register with a
W field (R383, R386). -/
def csrPre (s : State) (n : Nat) (write setsBits : Bool) (word : Nat) : Option (Cause × Word) :=
  if !csrAssigned n || (s.cur.isEpisode && !csrEpisode n write) then some (.illegalInstruction, wordOf word)
  else if s.privilege s.cur < (if write then csrWritePriv n else csrReadPriv n) then some (.privilege, wordOf word)
  else if setsBits && csrHasW n then some (.illegalInstruction, wordOf word)
  else none

/-! ### Reads -/

/-- COR_MCBIND0 or COR_MCBIND1: a byte for each of eight classes (R286); an unbound one keeps its SLOT (R287). -/
def Core.mcbind (c : Core) (half : Nat) : Word :=
  wordOf ((List.range 8).foldl (fun n j =>
    n + (match c.boundTo (8 * half + j) with | some i => i + 16 | none => Tab.get 0 c.mcslot (8 * half + j)) * 2 ^ (8 * j)) 0)

/-- PRT_VICFG as it reads: the settings of the interface named by the last write (R419). -/
def State.vicfg (s : State) (p : Nat) : Word :=
  let n := bits (s.part p).vicfg 7 0
  let v := s.vi n
  wordOf (n + v.rkbase * 2 ^ 8 + boolNat v.rken * 2 ^ 28 + boolNat v.rkpin * 2 ^ 29 + v.viprio * 2 ^ 30)

/-- A partition CSR as it reads; W fields read 0 (R169, R170, R279, R341, R343, R350, R395, R397, R408, R419 to R423, R429). -/
def State.partCsr (s : State) (p n : Nat) : Word :=
  let x := s.part p
  match n with
  | 0x600 => x.fqbase
  | 0x601 => x.fqhead
  | 0x602 => x.fqtail
  | 0x603 => x.supcore
  | 0x613 => x.trapval
  | 0x618 => x.trcal
  | 0x620 => x.lwgt
  | 0x622 => x.featmask
  | 0x628 => s.vicfg p
  | 0x630 => BitVec.ofInt 64 x.bal
  | 0x631 => x.capw.setWidth 64
  | 0x632 => x.quarters.setWidth 64
  | _ => 0

/-- A core or cluster CSR as it reads (R157, R254, R257, R286, R297, R412). -/
def State.coreCsr (s : State) (k n : Nat) : Word :=
  let c := s.core k
  if n < 0x208 then Tab.get 0 c.win (n - 0x200)
  else if n = 0x208 then c.xctl
  else if 0x210 ≤ n ∧ n < 0x218 then
    wordOf ((Tab.get (0 : BitVec 32) c.done (n - 0x210)).toNat + (Tab.get (0 : BitVec 32) c.issuedSeen (n - 0x210)).toNat * 2 ^ 32)
  else if 0x218 ≤ n ∧ n < 0x220 then Tab.get 0 c.prom (n - 0x218)
  else if 0x220 ≤ n ∧ n < 0x228 then Tab.get 0 c.stat (n - 0x220)
  else if 0x228 ≤ n ∧ n < 0x230 then Tab.get 0 c.faddr (n - 0x228)
  else if n = 0x230 ∨ n = 0x231 then c.mcbind (n - 0x230)
  else if n = 0x232 then c.migslot
  else if n = 0x400 then (s.cluster (k / 16)).errcnt
  else 0

/-- A CSR as the thread whose turn it is reads it. -/
def State.csrRead (s : State) (n : Nat) : Word :=
  if n = 0x000 then s.tb
  else if n = 0x001 then s.statusWord s.cur
  else if n < 0x100 then s.thr.csr.get n
  else if n = 0x100 then wordOf s.curCtx
  else if n = 0x101 then wordOf (s.ctx s.curCtx).vi
  else if n < 0x600 then s.coreCsr s.curCore n
  else
    match s.partOfCore s.curCore with
    | some p => s.partCsr p n
    | none => 0

/-! ### Writes (R7) -/

/-- A register after a write: 0 CSRW, 1 CSRS, 2 CSRC; `rw` names its RW bits and `w1c` its W1C bits (R7, R386). -/
def csrMerge (op : Nat) (old v rw w1c : Word) : Word :=
  match op with
  | 0 => (old &&& ~~~ rw &&& ~~~ (v &&& w1c)) ||| (v &&& rw)
  | 1 => old ||| (v &&& rw)
  | _ => old &&& ~~~ (v &&& (rw ||| w1c))

/-- A mask of bits [hi:lo]. -/
def maskOf (hi lo : Nat) : Word := wordOf (2 ^ (hi + 1) - 2 ^ lo)

/-- The RW bits of a thread CSR (R69, R98, R126, R209, R284, R308, R376, R385). -/
def thrRw (n : Nat) : Word :=
  match n with
  | 0x003 => maskOf 52 2
  | 0x005 => maskOf 52 2 ||| 1
  | 0x006 => maskOf 63 0
  | 0x007 => maskOf 63 0
  | 0x010 => maskOf 7 0
  | 0x011 => maskOf 7 0
  | 0x012 => maskOf 7 0 ||| maskOf 63 32
  | 0x019 => maskOf 31 0
  | 0x01B => maskOf 31 1
  | 0x01C => maskOf 63 1
  | 0x01F => maskOf 31 0
  | _ => 0

/-- A write of a thread CSR: a seed of 0 loads 1 (R209), THR_FPCTL follows R127, THR_OORFLAG is W1C (R156), and a write of
THR_TIMER arms the timer anew (R393). -/
def Thread.csrUpdate (t : Thread) (tb : Word) (n op : Nat) (v : Word) : Thread :=
  let old := t.csr.get n
  let new := csrMerge op old v (thrRw n) (if n = 0x013 then 1 else 0)
  match n with
  | 0x012 => t.setCsr n (fpctlWrite old new)
  | 0x019 => t.setCsr n (if new = 0 then 1 else new)
  | 0x006 => { t.setCsr n new with timerDue := new != 0 && decide (new.toNat ≤ tb.toNat) }
  | _ => if n < 0x003 then t else t.setCsr n new

/-- A write of a thread CSR by the thread itself; THR_QMAP also marks the queues for its crew (R69, R354). -/
def State.thrCsrWrite (s : State) (n op : Nat) (v : Word) : State :=
  let s := s.setThr (s.thr.csrUpdate s.tb n op v)
  if n = 0x010 then
    match s.cur with
    | .slot k i =>
      let x := s.crewIdx k i
      if x = 0 then s
      else
        let c := s.core k
        let w : Crew := Tab.get {} c.crews x
        s.setCore k { c with crews := Tab.set c.crews x { w with qmask := w.qmask ||| s.thr.csr.qmap.setWidth 8 } }
    | .episode _ => s
  else s

/-- Whether a window may be written by a thread: by the steward always, by a user while EN is 0 or CREW is its own (R157). -/
def State.mayWriteWin (s : State) (n : Nat) : Bool :=
  let w := Tab.get 0 (s.core s.curCore).win n
  let me := s.crewIdx s.curCore s.cur.slotNum
  decide (1 ≤ s.privilege s.cur) || !bitOf w 35 || (bits w 39 36 == me && me != 0)

/-- A window after a write that commits: its RW fields, and CREW (R157). -/
def winMerge (op : Nat) (old v : Word) (crew : Option Nat) : Word :=
  let new := csrMerge op old v (maskOf 14 0 ||| maskOf 30 16 ||| maskOf 35 32 ||| maskOf 41 40) 0
  let asked := match op with
    | 0 => bits v 39 36
    | 1 => bits (old ||| v) 39 36
    | _ => bits (old &&& ~~~ v) 39 36
  setBits new 39 36 (crew.getD asked)

/-- A class's queued messages discarded (R287). -/
def Core.emptyClass (c : Core) (cls : Nat) : Core := { c with classq := Tab.erase c.classq cls }

/-- A core CSR after a write that commits (R73): 0x210 and 0x218 carry the counter and promise of a copy's issue, 0x209
invalidates the thread-context cache (R254, R257, R297, R404). -/
def Core.csrCommit (c : Core) (n op : Nat) (v : Word) : Core :=
  if n = 0x208 then { c with xctl := csrMerge op c.xctl v (maskOf 4 0) 0 }
  else if n = 0x209 then (if bitOf v 0 then { c with ctxCache := [] } else c)
  else if 0x210 ≤ n ∧ n < 0x218 then { c with issuedSeen := Tab.set c.issuedSeen (n - 0x210) (v.setWidth 32) }
  else if 0x218 ≤ n ∧ n < 0x220 then { c with prom := Tab.set c.prom (n - 0x218) v }
  else if 0x220 ≤ n ∧ n < 0x228 then
    (if op ≠ 1 ∧ bitOf v 37 then { c with stat := Tab.erase c.stat (n - 0x220), faddr := Tab.erase c.faddr (n - 0x220) } else c)
  else if n = 0x232 then { c with migslot := csrMerge op c.migslot v (maskOf 15 1) 0 }
  else c

/-- A write to core-shared state that commits: the merge is made on the value then committed (R73, R386). -/
def Core.commitPend (c : Core) (w : Pend) : Core :=
  match w with
  | .csr n op v => c.csrCommit n op v
  | .win n op v crew => { c with win := Tab.set c.win n (winMerge op (Tab.get 0 c.win n) v crew) }
  | .bind cls slot on =>
    let c := c.emptyClass cls
    { c with bind := if on then Tab.set c.bind cls slot else Tab.erase c.bind cls
             mcslot := if on then Tab.set c.mcslot cls slot else c.mcslot }
  | .ten (some crew) => { c with xctl := wordOf (1 + 2 * crew) }
  | .ten none => { c with xctl := setBit c.xctl 0 false }
  | .slotGone i =>
    let mine := fun (x : Nat) => x != 0 && x != 15 && Tab.find? c.bind x == some i
    { c with bind := c.bind.filter (fun b => !mine b.1), classq := c.classq.filter (fun q => !mine q.1) }
  | .crewGone idx qmask =>
    let held := bits c.xctl 4 1 == idx
    { c with win := c.win.filter (fun w => bits w.2 39 36 != idx)
             mbox := if held then [] else c.mbox.filter (fun m => !(m.2.full && m.2.crew == idx))
             queues := c.queues.filter (fun q => !qmask.getLsbD q.1)
             xctl := if held then 0 else c.xctl }

/-- The writes of a core that are seen from F-cycle `now` on, committed in the order of their issue. -/
def Core.commit (c : Core) (now : Nat) : Core :=
  let due := c.pend.filter (fun w => decide (w.1 ≤ now))
  due.foldl (fun c w => c.commitPend w.2) { c with pend := c.pend.filter (fun w => !decide (w.1 ≤ now)) }

/-- A write of a core CSR (R73); COR_MCBIND and the read-only registers ignore it. -/
def State.coreCsrWrite (s : State) (n op : Nat) (v : Word) : State :=
  if 0x200 ≤ n ∧ n < 0x208 then
    s.pendWrite s.curCore (.win (n - 0x200) op v
      (if 1 ≤ s.privilege s.cur then none else some (s.crewIdx s.curCore s.cur.slotNum)))
  else if n = 0x208 ∨ n = 0x209 ∨ (0x220 ≤ n ∧ n < 0x228) ∨ n = 0x232 then s.pendWrite s.curCore (.csr n op v)
  else s

/-- Whether four weights of a calendar sum to 16 (R279, R341). -/
def weightsOk (w : Word) : Bool := (weights w).foldl (· + ·) 0 == 16

/-- A write of PRT_VICFG: the interface it names takes the settings, if it is the partition's (R419). -/
def State.vicfgWrite (s : State) (p : Nat) (v : Word) : State :=
  (s.setPart p { s.part p with vicfg := wordOf (bits v 7 0) }).onPartVi p (bits v 7 0) (fun x =>
    { x with rkbase := bits v 27 8, rken := bitOf v 28, rkpin := bitOf v 29, viprio := bits v 31 30 })

/-- A write of PRT_GRAPHREL (R343). -/
def State.graphRel (s : State) (p : Nat) (v : Word) : State :=
  match bits v 33 32 with
  | 1 => s.graphRelease p (bits v 31 0)
  | 2 => s.graphDiscard p (bits v 31 0)
  | _ => s

/-- Whether the hub has room for another resident interface: it holds 64 (R418). -/
def State.viRoom (s : State) : Bool := decide ((s.vis.filter (fun v => !v.2.out)).length < 64)

/-- A write of PRT_VISW (R418, R419). DESIGN CHOICE (assumption 87): a switch-in waits while 64 interfaces are resident. -/
def State.viswWrite (s : State) (p : Nat) (v : Word) : State :=
  match bits v 9 8 with
  | 1 => s.onPartVi p (bits v 7 0) Vi.switchOut
  | 2 => if s.viRoom then s.onPartVi p (bits v 7 0) Vi.switchIn else s
  | _ => s

/-- A write of PRT_KILL: GO starts the drain (R408). -/
def State.killWrite (s : State) (p : Nat) (v : Word) : State := if bitOf v 12 then s.killStart p (bits v 11 0) else s

/-- A write of PRT_RESIZE while a resize has been signalled: the hub begins to move granules (R421). -/
def State.resizeWrite (s : State) (p : Nat) : State :=
  let x := s.part p
  if x.resize.isSome then (s.setPart p { x with moving := true }).resizeEnd p else s

/-- A write of PRT_TRCAL sets the calendar pointers of the switch outputs of the partition's quarter-dies back to slot 0 (R278,
R279). -/
def State.restartCalendars (s : State) (p : Nat) : State :=
  let own := fun (o : Nat) => outStage o != 7 && outStage o != 8 && (s.part p).quarters.getLsbD (outQuarter o)
  { s with switches := s.switches.map (fun (x : Nat × SwitchOut) => if own x.1 then (x.1, { x.2 with ptr := 0 }) else x) }

/-- A write of a partition CSR, performed at once (R386). -/
def State.partCsrWrite (s : State) (p n op : Nat) (v : Word) : State :=
  let x := s.part p
  let new := fun (rw : Word) => csrMerge op (s.partCsr p n) v rw 0
  match n with
  | 0x600 => s.setPart p { x with fqbase := new (maskOf 52 0), fqctx := s.curCtx }
  | 0x601 => s.setPart p { x with fqhead := new (maskOf 31 0) }
  | 0x603 => s.setPart p { x with supcore := new (maskOf 20 0) }
  | 0x610 => s.faultRes p v
  | 0x611 => s.tlbInv p v
  | 0x612 => s.trapRes p v
  | 0x613 => s.setPart p { x with trapval := new (maskOf 63 0) }
  | 0x614 => s.killWrite p v
  | 0x618 => let w := new (maskOf 15 0)
             if weightsOk w then (s.setPart p { x with trcal := w }).restartCalendars p else s
  | 0x620 => let w := new (maskOf 15 0)
             if weightsOk w then s.setPart p { x with lwgt := w, lwptr := 0 } else s
  | 0x621 => s.graphRel p v
  | 0x622 => s.setPart p { x with featmask := new (maskOf 63 1) }
  | 0x628 => s.vicfgWrite p (new (maskOf 31 0))
  | 0x629 => s.viswWrite p v
  | 0x633 => s.resizeWrite p
  | 0x634 => if bitOf v 0 then s.resetPartition p else s
  | _ => s

/-- A write of a CSR by the thread whose turn it is, its rights checked. -/
def State.csrWrite (s : State) (n op : Nat) (v : Word) : State :=
  if n < 0x100 then s.thrCsrWrite n op v
  else if n < 0x600 then s.coreCsrWrite n op v
  else
    match s.partOfCore s.curCore with
    | some p => s.partCsrWrite p n op v
    | none => s

/-! ### CSRR, CSRW, CSRS and CSRC (R386) -/

/-- Whether a divide or square root of the thread whose turn it is has flags to come (R127). -/
def State.divPending (s : State) : Bool :=
  (s.core s.cur.divCore).divs.any (fun d => d.slot == s.cur.divSlot && d.float)

/-- Whether a CSRR waits (R127, R177, R209, R218). -/
def State.csrReadParks (s : State) (n : Nat) : Bool :=
  match n with
  | 0x012 => s.divPending || s.thr.srPending
  | 0x016 => s.thr.grantPending
  | 0x018 => s.thr.grantPending
  | 0x019 => s.thr.runAhead
  | _ => false

/-- CSRR (R386). -/
def execCsrr (csr : BitVec 12) (d : Reg) (s : State) : Out :=
  let n := csr.toNat
  let word := wordSys 0 n 0 d.toNat
  issue { word := word, dsts := [d], pre := csrPre s n false false word } (fun s _ =>
    if s.csrReadParks n then .park else .done s [s.csrRead n]) s

/-- A write of PRT_TLBINV parks until every walk begun before it has finished, and drops what those brought in (R170). -/
def tlbInvTurn (s : State) (p : Nat) (v : Word) : Res :=
  if s.thr.stage = 0 then
    let n := s.nextId
    let s := s.tlbInv p v
    if s.walksBefore p n then .wait ((s.setStage 4).setArg n) false else .done s []
  else if s.walksBefore p s.thr.arg then .wait s false
  else .done (s.tlbInv p v) []

/-- A write of PRT_KILL parks until the drain completes (R408): stage 4 waits for another drain of the partition, stage 5 for
its own. A thread that ends its own context goes with it. -/
def killTurn (s : State) (p : Nat) (v : Word) : Res :=
  let go := fun (s : State) =>
    if (s.part p).killing.isSome then .wait (s.setStage 4) false
    else
      let s' := s.killWrite p v
      if (s'.part p).killing.isNone then .done s' []
      else if s'.live s'.cur then .wait (s'.setStage 5) false
      else .keep s'
  if s.thr.stage = 5 then (if (s.part p).killing.isSome then .wait s false else .done s [])
  else if !bitOf v 12 then .done s []
  else go s

/-- A write of PRT_VISW parks until the switch has finished (R419): stage 4. -/
def viswTurn (s : State) (p : Nat) (v : Word) : Res :=
  let s' := if s.thr.stage = 0 || bits v 9 8 == 2 then s.viswWrite p v else s
  let on := (Tab.find? s'.vis (bits v 7 0)).filter (fun x => x.part == p)
  if on.elim false (fun x => (bits v 9 8 == 1 && x.switching.isSome) || (bits v 9 8 == 2 && x.out)) then .wait (s'.setStage 4) false
  else .done s' []

/-- The execution of a write: the registers whose writes park, a partition reset, a window, and all others. -/
def csrWriteTurn (s : State) (n op word : Nat) (v : Word) : Res :=
  if n = 0x012 ∧ s.thr.srPending then .park
  else if 0x200 ≤ n ∧ n < 0x208 ∧ !s.mayWriteWin (n - 0x200) then .trap .privilege (wordOf word)
  else
    match s.partOfCore s.curCore with
    | some p =>
      if n = 0x611 then tlbInvTurn s p v
      else if n = 0x614 then killTurn s p v
      else if n = 0x629 then viswTurn s p v
      else if n = 0x634 ∧ bitOf v 0 then .keep (s.csrWrite n op v)
      else .done (s.csrWrite n op v) []
    | none => .done (s.csrWrite n op v) []

/-- CSRW, CSRS or CSRC (R386): each but of THR_FPCTL waits for the end of run-ahead (R181). -/
def csrWriteOp (f3 op : Nat) (csr : BitVec 12) (a : Reg) (s : State) : Out :=
  let n := csr.toNat
  let word := wordSys f3 n a.toNat 0
  issue { word := word, srcs := [a], leaves := n != 0x012, pre := csrPre s n true (op != 0) word } (fun s xs =>
    csrWriteTurn s n op word (arg xs 0)) s

/-- CSRW (R386). -/
def execCsrw (csr : BitVec 12) (a : Reg) : State → Out := csrWriteOp 1 0 csr a

/-- CSRS (R386). -/
def execCsrs (csr : BitVec 12) (a : Reg) : State → Out := csrWriteOp 2 1 csr a

/-- CSRC (R386). -/
def execCsrc (csr : BitVec 12) (a : Reg) : State → Out := csrWriteOp 3 2 csr a

/-! ### SYSC, TRAP, BREAK and TRET (R387, R388) -/

/-- An instruction that completes and then raises its cause, with n as THR_TVAL (R387). -/
def raiseOp (f3 : Nat) (c : Cause) (n : BitVec 12) : State → Out :=
  issue { word := wordSys f3 n.toNat 0 0, leaves := true } (fun s _ => .raises s c (n.setWidth 64))

/-- SYSC (R387). -/
def execSysc (n : BitVec 12) : State → Out := raiseOp 4 .syscall n

/-- TRAP (R387). -/
def execTrap (n : BitVec 12) : State → Out := raiseOp 5 .userTrap n

/-- BREAK (R387). -/
def execBreak (n : BitVec 12) : State → Out := raiseOp 7 .breakpoint n

/-- TRET (R388). -/
def execTret : State → Out :=
  let word := wordSys 6 0 0 0
  issue { word := word } (fun s _ =>
    if !bitOf s.thr.csr.status 0 then .trap .illegalInstruction (wordOf word)
    else
      .jump (s.setThr s.thr.trapReturn) [] (BitVec.ofNat 53 s.thr.csr.trappc.toNat) s.thr.loops true false)

/-! ### Writes of one register, as events -/

/-- Whether the thread whose turn it is may write a CSR (R383). -/
def State.mayWrite (s : State) (n : Nat) : Bool :=
  s.live s.cur && (csrPre s n true false 0).isNone

/-- A write of a register by the thread whose turn it is, apart from the instruction that makes it. -/
def State.eventWrite (s : State) (n : Nat) (v : Word) : State := if s.mayWrite n then s.csrWrite n 0 v else s

/-- The registers whose writes have a row of their own in the table of operations. -/
def csrOwnRow (n : Nat) : Bool :=
  decide ((0x200 ≤ n ∧ n < 0x208) ∨ (0x220 ≤ n ∧ n < 0x228)) ||
    [0x006, 0x209, 0x600, 0x610, 0x611, 0x612, 0x614, 0x618, 0x620, 0x621, 0x629, 0x633, 0x634].contains n

/-- REGISTER_WRITE (R7, R386). -/
def execRegisterWrite (csr : BitVec 12) (v : Word) (s : State) : Out :=
  .next (if csrOwnRow csr.toNat then s else s.eventWrite csr.toNat v)

/-- COR_WIN_WRITE (R157): a user write of another crew's window raises PRIVILEGE. -/
def execCorWinWrite (n : BitVec 3) (v : Word) (s : State) : Out :=
  if !s.live s.cur || s.cur.isEpisode then .next s
  else if s.mayWriteWin n.toNat then .next (s.coreCsrWrite (0x200 + n.toNat) 0 v)
  else .next (s.takeTrap s.cur .privilege (wordOf (wordSys 1 (0x200 + n.toNat) 0 0)) s.thr.pc false)

/-- XC_STAT_CLEAR (R257). -/
def execXcStatClear (n : BitVec 3) (v : Word) (s : State) : Out := .next (s.eventWrite (0x220 + n.toNat) v)

/-- FAULTRES_RETRY (R169): a write with ACT 0. -/
def execFaultresRetry (v : Word) (s : State) : Out := .next (if bits v 33 32 = 0 then s.eventWrite 0x610 v else s)

/-- FAULTRES_ABANDON (R169): a write with ACT 1. -/
def execFaultresAbandon (v : Word) (s : State) : Out := .next (if bits v 33 32 = 1 then s.eventWrite 0x610 v else s)

/-- TLBINV_PAGE (R170): a write with ALL 0. -/
def execTlbinvPage (v : Word) (s : State) : Out := .next (if bitOf v 12 then s else s.eventWrite 0x611 v)

/-- TLBINV_ALL (R170): a write with ALL 1. -/
def execTlbinvAll (v : Word) (s : State) : Out := .next (if bitOf v 12 then s.eventWrite 0x611 v else s)

/-- TRCAL_WRITE (R279). -/
def execTrcalWrite (v : Word) (s : State) : Out := .next (s.eventWrite 0x618 v)

/-- LWGT_WRITE (R341). -/
def execLwgtWrite (v : Word) (s : State) : Out := .next (s.eventWrite 0x620 v)

/-- GRAPHREL_RELEASE (R343): a write with ACT 1. -/
def execGraphrelRelease (v : Word) (s : State) : Out := .next (if bits v 33 32 = 1 then s.eventWrite 0x621 v else s)

/-- GRAPHREL_DISCARD (R343): a write with ACT 2. -/
def execGraphrelDiscard (v : Word) (s : State) : Out := .next (if bits v 33 32 = 2 then s.eventWrite 0x621 v else s)

/-- TRAPRES_RESUME (R397): a write with ACT 0. -/
def execTrapresResume (v : Word) (s : State) : Out := .next (if bits v 33 32 = 0 then s.eventWrite 0x612 v else s)

/-- TRAPRES_RESUME_NEXT (R397): a write with ACT 1. -/
def execTrapresResumeNext (v : Word) (s : State) : Out := .next (if bits v 33 32 = 1 then s.eventWrite 0x612 v else s)

/-- KILL_DRAIN_START (R408): a write with GO. -/
def execKillDrainStart (v : Word) (s : State) : Out := .next (if bitOf v 12 then s.eventWrite 0x614 v else s)

/-- VISW_SWITCH_OUT (R418): a write with OP 1. -/
def execViswSwitchOut (v : Word) (s : State) : Out := .next (if bits v 9 8 = 1 then s.eventWrite 0x629 v else s)

/-- VISW_SWITCH_IN (R419): a write with OP 2. -/
def execViswSwitchIn (v : Word) (s : State) : Out := .next (if bits v 9 8 = 2 then s.eventWrite 0x629 v else s)

/-- RESIZE_WRITE (R421). -/
def execResizeWrite (v : Word) (s : State) : Out := .next (s.eventWrite 0x633 v)

/-- PRT_RESET_WRITE (R423). -/
def execPrtResetWrite (v : Word) (s : State) : Out := .next (s.eventWrite 0x634 v)

/-- CTXINV_WRITE (R404). -/
def execCtxinvWrite (v : Word) (s : State) : Out := .next (s.eventWrite 0x209 v)

/-- FQBASE_WRITE (R395). -/
def execFqbaseWrite (v : Word) (s : State) : Out := .next (s.eventWrite 0x600 v)

/-- THR_TIMER_WRITE (R393). -/
def execThrTimerWrite (v : Word) (s : State) : Out := .next (s.eventWrite 0x006 v)

/-! ### The timer and asynchronous traps (R392, R393) -/

/-- Whether a thread's TIMER becomes pending: CMP is not 0 and TB has reached it. -/
def Thread.timerReached (t : Thread) (tb : Word) : Bool :=
  !t.timerDue && t.csr.timer != 0 && decide (t.csr.timer.toNat ≤ tb.toNat)

/-- TIMER_EXPIRY (R393). -/
def execTimerExpiry (core slot : Nat) (s : State) : Out :=
  let a := Actor.slot core slot
  let t := s.thrOf a
  .next (if s.slotBound core slot && t.timerReached s.tb then s.setThrOf a { t with timerDue := true } else s)

/-- Whether a pending asynchronous trap is taken at a thread's turn: at an instruction boundary or in a withdrawable wait, with
INH 0 and run-ahead ended (R392), behind the check of a pc no instruction has checked and the fault a restore brought (R406, R462). -/
def Thread.takesAsync (t : Thread) : Bool :=
  t.run == .issuing && !t.held && !t.arriving && !t.startCheck && t.drained.isNone && t.asyncDue

/-- The oldest pending asynchronous trap taken: a QWAIT is withdrawn at its home (R392). -/
def State.asyncTurn (s : State) (a : Actor) : State := (s.withdraw a).takeAsync a

/-- ASYNC_TRAP_TAKE (R392). -/
def execAsyncTrapTake (core slot : Nat) (s : State) : Out :=
  let a := Actor.slot core slot
  .next (if s.slotBound core slot && (s.thrOf a).takesAsync then s.asyncTurn a else s)

end Sys2Proof.Machine
end

