-- ==== Sys2Proof/Machine/Management.lean ====
section
/-! DEFINITION. The management core and the package (R421 to R430): partitions built, resized and reset, caps and keys, the
granules a resize moves, cold reset and the thermal trip. -/

namespace Sys2Proof.Machine

/-- The granules of the package's HBM4: 8 stacks of 64 GiB (R32). -/
def packageGranules : Nat := 8 * 64 * 2 ^ 30 / 65536

/-- The first granule that no partition of the package holds or lies before. -/
def State.nextGranule (s : State) : Nat := s.parts.foldl (fun n x => max n (x.2.base + x.2.granules)) 0

/-- Whether a partition may serve a set of interfaces: 1 to 256 of them, none served by another, of at most 256 in the package
(R30). -/
def State.mayServe (s : State) (vis : List Nat) : Bool :=
  !vis.isEmpty && vis.all (fun v => decide (v < 256) && (Tab.find? s.vis v).isNone) && decide (vis.eraseDups.length = vis.length)

/-- Whether the management core may build a partition of a set of quarter-dies: non-empty, held by no other, within 16 partitions,
with memory that its quarter-dies' HBM4 holds and that the package has left (R28, R29, R32), and with interfaces of its own (R30). -/
def State.mayBuild (s : State) (p : Nat) (quarters : BitVec 16) (granules : Nat) (vis : List Nat) : Bool :=
  decide (p < 16) && (Tab.find? s.parts p).isNone && quarters != 0 && s.parts.all (fun x => x.2.quarters &&& quarters == 0)
    && decide (0 < granules ∧ granules ≤ quarterGranules * (quarterList quarters).length ∧ s.nextGranule + granules ≤ packageGranules)
    && s.mayServe vis

/-- MGMT_BUILD_PARTITION: the partition with its memory, its keys and its interfaces; the firmware loads its supervisor and starts it
in slot 0 of PRT_SUPCORE.PRI (R30, R421, R426, and "Bring-up and recovery"). Each interface's device identity is its number
(assumption 55); it is resident while fewer than 64 are (R418, assumption 87). The SRAM of its quarter-dies reads 0 (assumption 86). -/
def execMgmtBuildPartition (part : Nat) (quarters : BitVec 16) (share : Nat × List Nat) (s : State) : Out :=
  let (granules, vis) := share
  if s.mayBuild part quarters granules vis then
    let s := vis.foldl (fun s v => s.setVi v { part := part, device := v, out := !s.viRoom }) (s.scrubQuarters quarters)
    .next ((s.setPart part { quarters := quarters, base := s.nextGranule, granules := granules, built := quarters, keys := 0xFFFF,
                             supcore := wordOf (firstCore quarters), accrued := s.tb.toNat / 1100 }).loadSupervisor part)
  else .next s

/-- The power cap of all partitions but one, in W. -/
def State.otherCaps (s : State) (p : Nat) : Nat :=
  s.parts.foldl (fun n x => if x.1 = p then n else n + x.2.capw.toNat) 0

/-- The package power limit in W (R425). -/
def State.powerLimit (s : State) : Nat := s.limits.elim 1800 Limits.powerW

/-- MGMT_SET_CAP: refused where the caps would exceed the package limit; the balance never exceeds the capacity (R429, R430). -/
def execMgmtSetCap (part : Nat) (capw : BitVec 16) (s : State) : Out :=
  match Tab.find? s.parts part with
  | some x =>
    if s.powerLimit < s.otherCaps part + capw.toNat then .next s
    else .next (s.setPart part (({ x with capw := capw }).credit 0))
  | none => .next s

/-- MGMT_PROVISION_KEY (R414): the key of an interface that a partition serves. -/
def execMgmtProvisionKey (vi : Nat) (key : Nat) (s : State) : Out := .next (s.onVi vi (fun v => { v with key := key }))

/-- MGMT_RESIZE_REQUEST: the primary supervisor is signalled with class 15 KIND 11 and the departing quarter mask (R421). -/
def execMgmtResizeRequest (part : Nat) (leaving : BitVec 16) (s : State) : Out :=
  match Tab.find? s.parts part with
  | some x =>
    if x.resize.isSome ∨ leaving = 0 ∨ leaving &&& x.quarters ≠ leaving ∨ leaving = x.quarters then .next s
    else
      let s1 := s.setPart part { x with resize := some (leaving, s.now / 2), moving := false }
      .next (s1.signal (x.signalCore false) (wordOf (2 ^ 63 + 11 * 2 ^ 32 + leaving.toNat * 2 ^ 40)))
  | none => .next s

/-- MGMT_RESET_REQUEST (R423). -/
def execMgmtResetRequest (part : Nat) (s : State) : Out :=
  .next (if (Tab.find? s.parts part).isSome then s.resetPartition part else s)

/-! ### Resizing (R421) -/

/-- The lines of a granule in some caches. -/
def granuleLines (ls : List Line) (g : Nat) : List Nat := (ls.filter (fun l => l.line / 256 == g)).map Line.line

/-- A granule's dirty words written back from every cache of the partition, and its sectors dropped. -/
def State.flushGranule (s : State) (p g : Nat) : State :=
  let mine := fun (k : Nat) => s.partOfCore k == some p
  let s := ((s.cores.map (·.1)).filter mine).foldl (fun s k => s.shedLines 0 k (granuleLines (s.linesAt 0 k) g)) s
  let s := ((s.clusters.map (·.1)).filter (fun c => mine (16 * c))).foldl (fun s c => s.shedLines 1 c (granuleLines (s.linesAt 1 c) g)) s
  let s := (s.piers.map (·.1)).foldl (fun s d => s.shedLines 2 d (granuleLines (s.linesAt 2 d) g)) s
  { s with homeReg := s.homeReg.filter (fun r => !(r.1 / 512 == g && r.2 != hubUnit)) }

/-- How many granules of a partition a quarter-die homes. -/
def Partition.homed (x : Partition) (q : Nat) : Nat :=
  let start : Partition := { x with homeMap := [] }
  let i := (quarterList (if x.built = 0 then x.quarters else x.built)).findIdx (fun j => j == q)
  min quarterGranules (x.granules - i * quarterGranules) - (x.homeMap.filter (fun e => start.homeQuarter e.1 == q)).length
    + (x.homeMap.filter (fun e => e.2 == q)).length

/-- The quarter-die of a die to which a resize moves a granule: the first that stays and has room for it (assumption 55). -/
def Partition.newHome (x : Partition) (die : Nat) : Option Nat :=
  match x.resize with
  | some (leaving, _) =>
    (quarterList (x.quarters &&& ~~~ leaving)).find? (fun q => q / 4 == die && decide (x.homed q < quarterGranules))
  | none => none

/-- GRANULE_MOVE: one granule that departs is written back, and its home map entry switched to a quarter-die that stays. -/
def execGranuleMove (part : Nat) (granule : Nat) (die : Nat) (s : State) : Out :=
  match Tab.find? s.parts part with
  | some x =>
    match x.newHome die with
    | some q =>
      if x.moving && decide (x.base ≤ granule ∧ granule < x.base + x.granules) && x.departs granule then
        let s1 := s.flushGranule part granule
        let y := s1.part part
        .next ((s1.setPart part { y with homeMap := Tab.set y.homeMap granule q }).resizeEnd part)
      else .next s
    | none => .next s
  | none => .next s

/-- RESIZE_TIMEOUT: no PRT_RESIZE write within 1.1 × 10^9 A-cycles of the signal (R421, R423). -/
def execResizeTimeout (part : Nat) (s : State) : Out :=
  match Tab.find? s.parts part with
  | some x =>
    match x.resize with
    | some (_, t) => if !x.moving && decide (t + 1100000000 ≤ s.now / 2) then .next (s.resetPartition part) else .next s
    | none => .next s
  | none => .next s

/-! ### The package (R425) -/

/-- COLD_RESET: the package as reset leaves it; the boot ROM halts it where the firmware's signature is bad, else the limit
record is loaded and locked, the ordinal assigned, the port of Irham set, and firmware and limit record measured (R414, R425, R427).
What the world outside does next stays as it was. -/
def execColdReset (signatureGood : Bool) (s : State) : Out :=
  .next (if signatureGood then
      { State.reset with agenda := s.agenda, fresh := s.fresh, pkg := Config.packageOrdinal, irhamPort := Config.irhamPort,
                         limits := some { rails := Config.railRanges, trip := Config.tripTemperature },
                         measures := [Config.measure Config.firmwareImage, Config.measure Config.limitRecord] }
    else { State.reset with agenda := s.agenda, fresh := s.fresh, stopped := true })

/-- THERMAL_TRIP (R425). -/
def execThermalTrip (s : State) : Out := .next { s with stopped := true }

end Sys2Proof.Machine
end

