-- ==== Sys2Proof/Machine/Episodes.lean ====
section
/-! DEFINITION. The EPI class and the Causeway (R365 to R381): EPOPEN to EPVER on compute cores, EPACT, EPOBS and EPEND on episode
cores, and the watchdog. -/

namespace Sys2Proof.Machine

/-- The word of an EPI instruction (R372). -/
def wordEpi (f7 f3 b a d : Nat) : Nat := wordK 20 f7 f3 b a d

/-! ### Descriptors and messages (R368, R370) -/

/-- An episode descriptor. -/
structure EpDesc where
  image : Nat
  entry : Nat
  key : Nat
  rsv : Nat
  wbase : Word
  wlen : Nat
  deadline : Nat
  polver : Nat
  budget : Nat
  record : Word
  argv : Word
  deriving DecidableEq, Repr

/-- The descriptor of 64 bytes (R368). -/
def epDesc (b : List Byte) : EpDesc :=
  { image := recField b 0 8, entry := recField b 8 4, key := recField b 12 1, rsv := recField b 13 3,
    wbase := wordOf (recField b 16 8), wlen := recField b 24 8, deadline := recField b 32 4, polver := recField b 36 4,
    budget := recField b 40 8, record := wordOf (recField b 48 8), argv := wordOf (recField b 56 8) }

/-- Whether a descriptor has a reserved field that is not 0, or a field out of range (R368, R369). -/
def EpDesc.malformed (d : EpDesc) : Bool :=
  d.rsv != 0 || decide (16 ≤ d.key) || d.entry % 4 != 0 || ptrPath d.wbase != 0 || ptrAddr d.wbase % 65536 != 0
    || d.wlen % 65536 != 0 || !decide (65536 ≤ d.wlen ∧ d.wlen ≤ 2 ^ 32) || d.deadline == 0
    || !decide (1 ≤ d.budget ∧ d.budget ≤ 2 ^ 48) || ptrPath d.record != 0 || ptrAddr d.record % 64 != 0

/-- The frame of a window page, where it passes the checks of R369: R, W, PIN, and the key. -/
def State.windowFrame (s : State) (ctx key va : Nat) : Option Nat :=
  if 2 ^ 53 ≤ va then none
  else
    match s.walk ctx va with
    | .leaf e sh _ => if leafR e && leafW e && leafPin e && leafKey e == key then some (leafPa e sh va) else none
    | .bad _ _ => none

/-- The frames of a window and the physical address of the record, or none where a check of R369 fails. -/
def State.epFrames (s : State) (ctx : Nat) (d : EpDesc) : Option (List Nat × Nat) :=
  let fs := (List.range (d.wlen / 65536)).map (fun i => s.windowFrame ctx d.key (ptrAddr d.wbase + 65536 * i))
  if fs.all Option.isSome then
    match s.walk ctx (ptrAddr d.record) with
    | .leaf e sh _ => if leafW e then some (fs.filterMap id, leafPa e sh (ptrAddr d.record)) else none
    | .bad _ _ => none
  else none

/-- The image an episode runs: R350's selection over images that need the base at most, where it fits and holds ENTRY. -/
def State.epImage (s : State) (p : Nat) (d : EpDesc) : Option (List Byte × List Byte) :=
  match s.object p d.image with
  | none => none
  | some o =>
    match selectImage o.bytes (fun e => e.features &&& ~~~ 1 == 0) with
    | none => none
    | some e =>
      if 262144 < up64 e.textLen + e.dataLen ∨ e.textLen ≤ d.entry then none
      else some ((o.bytes.drop e.textOff).take e.textLen, (o.bytes.drop e.dataOff).take e.dataLen)

/-- The lowest-numbered empty context on an episode core of a partition's quarter-dies (R28, R365, R369). -/
def State.emptyEpisode (s : State) (p : Nat) : Option Nat :=
  (List.range Config.episodeContexts).find? (fun x =>
    (s.part p).quarters.getLsbD (x / 32) && (Tab.find? s.episodes x).isNone)

/-- The episode a successful EPOPEN starts (R367, R369). -/
def newEpisode (s : State) (p ctx x : Nat) (d : EpDesc) (handle : Word) (frames : List Nat) (rpa : Nat)
    (text data : List Byte) : Episode :=
  { thr := { ctx := ctx, pc := BitVec.ofNat 53 d.entry, g := [(1, d.argv), (2, wordOf d.wlen), (3, handle)], tidx := BitVec.ofNat 32 x }
    part := p, ctx := ctx, handle := handle
    store := Memory.writeBytes (Memory.writeBytes [] 0 text) (up64 text.length) data
    textLen := text.length, wlen := d.wlen, frames := frames, record := rpa, deadline := d.deadline, budget := d.budget
    curVer := BitVec.ofNat 32 d.polver, minVer := BitVec.ofNat 32 d.polver, maxVer := BitVec.ofNat 32 d.polver
    start := s.tb.toNat, clock := s.now / 2 }

/-- The value of EPOPEN for a descriptor, and the state it leaves (R369). -/
def State.epOpen (s : State) (p ctx : Nat) (d : EpDesc) : Word × State :=
  let fail := fun (n : Nat) => (wordOf (2 ^ 63 + n), s)
  if d.malformed then fail 2
  else
    match s.epFrames ctx d with
    | none => fail 3
    | some (frames, rpa) =>
      match s.epImage p d with
      | none => fail 4
      | some (text, data) =>
        match s.emptyEpisode p with
        | none => fail 1
        | some x =>
          let n := (s.part p).opens + 1
          let n := if n % 2 ^ 32 = 0 then 1 else n % 2 ^ 32
          let h := wordOf (x + n * 2 ^ 16)
          (h, (s.setPart p { s.part p with opens := n }).setEpisode x (newEpisode s p ctx x d h frames rpa text data))

/-- EPOPEN (R369). -/
def execEpopen (a d : Reg) : State → Out :=
  issue { word := wordEpi 0 0 0 a.toNat d.toNat, srcs := [a], dsts := [d], sub := 1, leaves := true } (fun s xs =>
    let p := arg xs 0
    if ptrPath p ≠ 0 ∨ ptrAddr p % 64 ≠ 0 then .trap .pointerFault p
    else
      match s.threadRead s.curCore s.cur.slotNum p 64 with
      | .error f => parkFault f 0
      | .ok b =>
        match s.partOfCore s.curCore with
        | none => .hold
        | some q =>
          let (v, s') := s.epOpen q s.curCtx (epDesc b)
          .done s' [v])

/-- The bytes of a step message (R370). -/
def StepMsg.bytes (m : StepMsg) : List Byte :=
  bytesLE 4 m.step ++ bytesLE 2 m.payload.length ++ bytesLE 1 m.kind ++ bytesLE 1 m.status ++ bytesLE 4 m.reward.toNat
    ++ bytesLE 4 m.aux.toNat ++ m.payload

/-- LEN of a message's header, and whether its fields and payload pass the checks of R373. -/
def msgLen (hdr : List Byte) : Nat := recField hdr 4 2
def msgOk (hdr payload : List Byte) (wlen : Nat) : Bool :=
  decide (msgLen hdr ≤ 256) && decide (recField hdr 6 1 ≤ 1)
    && (recField hdr 6 1 == 0 || (msgLen hdr == 8 && decide (recField payload 0 4 + recField payload 4 4 ≤ wlen)))

/-! ### Handles (R372) -/

/-- The episode a handle names for the thread whose turn it is: opened by its context and not closed. -/
def State.epOf (s : State) (h : Word) : Option (Nat × Episode) :=
  match Tab.find? s.episodes (bits h 15 0) with
  | some e => if e.handle == h && e.ctx == s.curCtx && !e.closed then some (bits h 15 0, e) else none
  | none => none

/-- EPISODE_FAULT with a subcode. -/
def epFault (h : Word) (sub : Nat) : Res := .trap .episodeFault (wordOf (bits h 47 0 + sub * 2 ^ 56))

/-- A handle checked, or subcode 1. -/
def withEpisode (s : State) (h : Word) (k : Nat → Episode → Res) : Res :=
  match s.epOf h with
  | some (x, e) => k x e
  | none => epFault h 1

/-! ### EPSEND and EPRECV (R373, R374) -/

/-- A pointer as the thread forms it from a message buffer's, `n` bytes on. -/
def ptrPlus (p : Word) (n : Nat) : Word := ptrWith p (ptrAddr p + n)

/-- The action of a buffer, header and payload read as the thread loads them and then checked; or what the instruction does
instead (R373). -/
def readAction (s : State) (e : Episode) (b : Word) (k : List Byte → Res) : Res :=
  match s.checkPtr false b with
  | some c => .trap c b
  | none =>
    if 2 < ptrPath b then .trap .pointerFault b
    else
      match s.threadRead s.curCore s.cur.slotNum b 16 with
      | .error f => parkFault f 0
      | .ok hdr =>
        match s.threadRead s.curCore s.cur.slotNum (ptrPlus b 16) (msgLen hdr) with
        | .error f => parkFault f 0
        | .ok pay => if msgOk hdr pay e.wlen then k (hdr ++ pay) else .trap .formatFault b

/-- An action entered, or discarded by an episode that has ended (R373, R377, R379). -/
def Episode.enter (e : Episode) (now : Nat) (ver : BitVec 32) (action : List Byte) : Episode :=
  let hdr := action.take 16
  let pay := action.drop 16
  if e.ended.isSome then { e with k := e.k + 1, msg := some (finalObs e (e.k + 1)), final := true, turn := .R }
  else
    { e with msg := some { step := e.k, kind := recField hdr 6 1, aux := ver, payload := pay }, turn := .A, curVer := ver,
             minVer := if ver.ult e.minVer then ver else e.minVer, maxVer := if e.maxVer.ult ver then ver else e.maxVer,
             clock := now / 2 }

/-- Whether another thread's EPSEND on an episode has passed its checks and releases: the Causeway performs the operations on one
episode one at a time (R371). -/
def State.sendsOn (s : State) (e : Episode) : Bool :=
  match e.sender with
  | some w => w != s.cur && s.live w && (s.thrOf w).stage == 1 && !(s.thrOf w).sending.isEmpty && (s.thrOf w).vals.headD 0 == e.handle
  | none => false

/-- The release of an EPSEND, and the entry of the action that it has read (R373). -/
def State.sendAction (s : State) (h : Word) : Res :=
  (s.relTurn s.regmask 2 1).thenDo 1 (fun s =>
    match s.epOf h with
    | some (x, e) => .done (s.setEpisode x { e.enter s.now (s.thr.csr.polver.setWidth 32) s.thr.sending with sender := none }) []
    | none => .done s [])

/-- EPSEND (R373): stage 1 is its release, after the last check. -/
def execEpsend (b a : Reg) : State → Out :=
  issue { word := wordEpi 1 0 b.toNat a.toNat 0, srcs := [a, b], sub := 1, leaves := true } (fun s xs =>
    let h := arg xs 0
    let p := arg xs 1
    if s.thr.stage = 1 then s.sendAction h
    else withEpisode s h (fun x e =>
      if s.sendsOn e then .park
      else if e.turn ≠ .P then epFault h 2
      else if p.toNat % 16 ≠ 0 then .trap .pointerFault p
      else readAction s e p (fun action =>
        let s := s.noteSpan s.curCore s.cur.slotNum p action.length
        let s := s.setEpisode x { s.episode x with sender := some s.cur }
        (s.setThr { s.thr with sending := action }).sendAction h)))

/-- Whether another thread is parked in EPRECV on an episode. -/
def State.otherWaits (s : State) (e : Episode) : Bool :=
  match e.recv with
  | some w => w != s.cur && s.live w && (s.thrOf w).parked && (s.thrOf w).stage == 1 && (s.thrOf w).sending.isEmpty
      && (s.thrOf w).vals.headD 0 == e.handle
  | none => false

/-- EPRECV (R374): stage 1 is its wait, which a landing or an asynchronous trap withdraws. -/
def execEprecv (b a d : Reg) : State → Out :=
  issue { word := wordEpi 2 0 b.toNat a.toNat d.toNat, srcs := [a, b], dsts := [d], sub := 1, leaves := true } (fun s xs =>
    let h := arg xs 0
    let p := arg xs 1
    match s.epOf h with
    | none => if s.thr.stage = 1 then .done s [0xFF] else epFault h 1
    | some (x, e) =>
      if s.otherWaits e then epFault h 3
      else if p.toNat % 16 ≠ 0 then .trap .pointerFault p
      else
        match s.checkPtr true p with
        | some c => .trap c p
        | none =>
          if ptrPath p ≠ 0 ∧ ptrPath p ≠ 2 then .trap .pointerFault p
          else
            match e.turn, e.msg with
            | .gone, _ => .done s [0xFF]
            | .P, _ => epFault h 2
            | .R, some m =>
              -- the acquire waits for the thread's earlier loads (R311)
              if s.owes s.cur Body.isLoad || s.thr.vecAccessesOut then .wait ((s.setEpisode x { e with recv := some s.cur }).setStage 1) true
              else
              match s.threadWrite s.curCore s.cur.slotNum p m.bytes with
              | .error f => parkFault f 1
              | .ok s' =>
                let s' := s'.noteSpan s.curCore s.cur.slotNum p m.bytes.length
                let s' := s'.setEpisode x { e with msg := none, recv := none, turn := if e.final then .gone else .P }
                .done (s'.acquire s.curCore s.regmask 2 1) [wordOf (m.status + m.step * 2 ^ 32)]
            | _, _ => .wait ((s.setEpisode x { e with recv := some s.cur }).setStage 1) true)

/-! ### EPABORT, EPCLOSE and EPVER (R375, R377) -/

/-- An episode ended with ABORTED, if it runs. -/
def State.epAbort (s : State) (x : Nat) : State := s.endEpisode x 5 0 0 0 0 0

/-- EPABORT (R375). -/
def execEpabort (a : Reg) : State → Out :=
  issue { word := wordEpi 4 0 0 a.toNat 0, srcs := [a], sub := 1, leaves := true } (fun s xs =>
    withEpisode s (arg xs 0) (fun x e => if s.sendsOn e then .park else .done (s.epAbort x) []))

/-- EPCLOSE (R375): the record is written at the end, and the context is empty. -/
def execEpclose (a : Reg) : State → Out :=
  issue { word := wordEpi 3 0 0 a.toNat 0, srcs := [a], sub := 1, leaves := true } (fun s xs =>
    withEpisode s (arg xs 0) (fun x e =>
      if s.sendsOn e then .park
      else
        let s := s.epAbort x
        .done { s with episodes := Tab.erase s.episodes x } []))

/-- The running episodes of a context whose current version is below `v` (R377). -/
def State.staleEpisodes (s : State) (ctx : Nat) (v : BitVec 32) : List Nat :=
  (s.episodes.filter (fun e => e.2.ctx == ctx && e.2.ended.isNone && !e.2.closed && e.2.curVer.ult v)).map (·.1)

/-- EPVER.ANN (R377). -/
def execEpverAnn (a : Reg) : State → Out :=
  issue { word := wordEpi 5 0 0 a.toNat 0, srcs := [a], sub := 1, leaves := true } (fun s xs =>
    .done (s.setThr (s.thr.setCsr 0x01F (zextLow (arg xs 0) 32))) [])

/-- EPVER.WAIT (R377). -/
def execEpverWait (a : Reg) : State → Out :=
  issue { word := wordEpi 5 1 0 a.toNat 0, srcs := [a], sub := 1, leaves := true } (fun s xs =>
    if (s.staleEpisodes s.curCtx (low32 (arg xs 0))).isEmpty then .done s [] else .park)

/-- EPVER.ABORT (R377). -/
def execEpverAbort (a : Reg) : State → Out :=
  issue { word := wordEpi 5 2 0 a.toNat 0, srcs := [a], sub := 1, leaves := true } (fun s xs =>
    .done ((s.staleEpisodes s.curCtx (low32 (arg xs 0))).foldl State.epAbort s) [])

/-! ### The episode side (R378) -/

/-- Bytes of an episode's stores, page by page. -/
def State.epBytes (s : State) (x : Nat) (p : Word) (n : Nat) : List Byte :=
  (List.range n).map (fun i => BitVec.ofNat 8 (s.epRead x (ptrPlus p i) 1))

/-- Bytes written to an episode's stores. -/
def State.epPut (s : State) (x : Nat) (p : Word) (bs : List Byte) : State :=
  bs.zipIdx.foldl (fun s b => s.epWrite x (ptrPlus p b.2) 1 b.1.toNat) s

/-- The context of an episode instruction. -/
def Actor.epNum : Actor → Nat
  | .slot _ _ => 0
  | .episode x => x

/-- An operation out of turn ends the episode with FAULT, CAUSE 2 (R371, R379). -/
def outOfTurn (s : State) : Res := .keep ((s.countIssue s.cur).endEpisode s.cur.epNum 4 2 0 0 0 0)

/-- A message buffer of an episode, 16-byte aligned (R366, R370). -/
def withBuffer (s : State) (p : Word) (k : Res) : Res :=
  match s.checkPtr false p with
  | some c => .trap c p
  | none => if p.toNat % 16 ≠ 0 then .trap .pointerFault p else k

/-- EPACT (R378). -/
def execEpact (b d : Reg) : State → Out :=
  issue { word := wordEpi 6 0 b.toNat 0 d.toNat, srcs := [b], dsts := [d], sub := 2 } (fun s xs =>
    let x := s.cur.epNum
    let e := s.episode x
    let p := arg xs 0
    if e.turn = .E then outOfTurn s
    else withBuffer s p (
      match e.turn, e.msg with
      | .A, some m =>
        if !e.admits p m.bytes.length true then .trap .pointerFault p
        else
          let s := s.epPut x p m.bytes
          .done (s.setEpisode x { s.episode x with msg := none, k := e.k + 1, steps := e.steps + 1, turn := .E }) [wordOf m.step]
      | _, _ => .park))

/-- EPOBS (R378). -/
def execEpobs (b a : Reg) : State → Out :=
  issue { word := wordEpi 7 0 b.toNat a.toNat 0, srcs := [a, b], sub := 2 } (fun s xs =>
    let x := s.cur.epNum
    let e := s.episode x
    let p := arg xs 1
    if e.turn ≠ .E then outOfTurn s
    else withBuffer s p (
      if !e.admits p 16 false then .trap .pointerFault p
      else
        let hdr := s.epBytes x p 16
        if !e.admits (ptrPlus p 16) (msgLen hdr) false then .trap .pointerFault p
        else
          let pay := s.epBytes x (ptrPlus p 16) (msgLen hdr)
          if !msgOk hdr pay e.wlen then .trap .formatFault p
          else
            .done (s.setEpisode x { e with
              msg := some { step := e.k, kind := recField hdr 6 1, reward := low32 (arg xs 0), payload := pay },
              final := false, turn := .R }) []))

/-- EPEND (R378). -/
def execEpend (b a : Reg) : State → Out :=
  issue { word := wordEpi 8 0 b.toNat a.toNat 0, srcs := [a, b], sub := 2 } (fun s xs =>
    let x := s.cur.epNum
    if (s.episode x).turn ≠ .E then outOfTurn s
    else .keep ((s.countIssue s.cur).endEpisode x 1 0 (bits (arg xs 1) 7 0) (low32 (arg xs 0)) 0 0))

/-! ### The watchdog (R379) -/

/-- Whether an episode runs. -/
def Episode.running (e : Episode) : Bool := e.ended.isNone && !e.closed

/-- Whether the step deadline of an episode has passed: it runs in states A and E. -/
def Episode.late (e : Episode) (now : Nat) : Bool :=
  e.running && (e.turn == .A || e.turn == .E) && decide (e.clock + e.deadline ≤ now / 2)

/-- EPISODE_DEADLINE (R379). -/
def execEpisodeDeadline (idx : Nat) (s : State) : Out :=
  match Tab.find? s.episodes idx with
  | some e => .next (if e.late s.now then s.endEpisode idx 2 1 0 0 0 0 else s)
  | none => .next s

/-- Whether the instruction an episode would issue next is beyond its budget. -/
def Episode.spent (e : Episode) : Bool := e.running && decide (e.budget ≤ e.instr)

/-- EPISODE_BUDGET (R379): the budget expires when the instruction beyond it would issue; it does not issue. -/
def execEpisodeBudget (idx : Nat) (s : State) : Out :=
  match Tab.find? s.episodes idx with
  | some e => .next (if e.spent && e.overrun then s.endEpisode idx 2 2 0 0 0 0 else s)
  | none => .next s

end Sys2Proof.Machine
end

