-- ==== Sys2Proof/Machine/Pointers.lean ====
section
/-! DEFINITION. The PTR class (R105 to R108). -/

namespace Sys2Proof.Machine

/-- A pointer whose address field is moved by an exact offset; out of range it raises POINTER_FAULT (R106). -/
def movePtr (s : State) (a : Word) (off : Int) : Res :=
  let t := (ptrAddr a : Int) + off
  if t < 0 ∨ 2 ^ 53 ≤ t then .trap .pointerFault a else .done s [ptrWith a t.toNat]

/-- PADD (R106): off = s(b). -/
def execPadd (b a d : Reg) : State → Out :=
  issue { word := wordK 11 0 0 b.toNat a.toNat d.toNat, srcs := [a, b], dsts := [d] } (fun s xs =>
    movePtr s (arg xs 0) (arg xs 1).toInt)

/-- PADDI (R106): off = sext(imm12, 12). -/
def execPaddi (imm : BitVec 12) (a d : Reg) : State → Out :=
  issue { word := wordI 11 1 imm.toNat a.toNat d.toNat, srcs := [a], dsts := [d] } (fun s xs =>
    movePtr s (arg xs 0) imm.toInt)

/-- PSUB (R106): off = −s(b). -/
def execPsub (b a d : Reg) : State → Out :=
  issue { word := wordK 11 0 2 b.toNat a.toNat d.toNat, srcs := [a, b], dsts := [d] } (fun s xs =>
    movePtr s (arg xs 0) (-(arg xs 1).toInt))

/-- PSETF (R107): FMT and L replaced. -/
def execPsetf (l : BitVec 3) (f : BitVec 5) (a d : Reg) : State → Out :=
  unaryOp (wordI 11 3 (l.toNat * 32 + f.toNat) a.toNat d.toNat) a d (fun x =>
    setBits (setBits x 60 56 f.toNat) 55 53 l.toNat)

/-- PSETP (R107): PATH replaced. -/
def execPsetp (path : BitVec 3) (a d : Reg) : State → Out :=
  unaryOp (wordI 11 4 path.toNat a.toNat d.toNat) a d (fun x => setBits x 63 61 path.toNat)

/-- PGETF (R107): FMT in [4:0], L in [7:5], PATH in [10:8]. -/
def execPgetf (a d : Reg) : State → Out :=
  unaryOp (wordK 11 0 5 0 a.toNat d.toNat) a d (fun x => wordOf (ptrFmt x + ptrL x * 32 + ptrPath x * 256))

/-- Whether FMT and L are a combination refused whatever the access: codes 2 and 3 of R108. -/
def fmtReserved (p : Word) : Bool := decide (19 ≤ ptrFmt p)
def fmtBadL (p : Word) : Bool :=
  (ptrFmt p == 14 && ptrL p != 0) || ((ptrFmt p == 15 || ptrFmt p == 16) && decide (6 ≤ ptrL p))

/-- PCHK's code for a pointer and an access descriptor (R108). -/
def pchkCode (user : Bool) (p b : Word) : Nat :=
  let n := bits b 52 0
  let last := match ptrPath p with
    | 2 => 2 ^ 19
    | 3 => 2 ^ 19
    | 4 => 2 ^ 27
    | _ => 2 ^ 53
  if ptrPath p = 5 ∨ ptrPath p = 6 then 1
  else if fmtReserved p then 2
  else if fmtBadL p then 3
  else if ptrDirty p then 4
  else if last < ptrOff p + n then 5
  else if ptrPath p = 7 ∧ user then 6
  else if bitOf b 63 ∧ ptrPath p = 1 then 7
  else if bitOf b 62 ∧ ptrFmt p = 17 then 8
  else 0

/-- PCHK (R108). -/
def execPchk (b a d : Reg) : State → Out :=
  issue { word := wordK 11 0 6 b.toNat a.toNat d.toNat, srcs := [a, b], dsts := [d] } (fun s xs =>
    .done s [wordOf (pchkCode (s.privilege s.cur == 0) (arg xs 0) (arg xs 1))])

end Sys2Proof.Machine
end

