-- ==== Sys2Proof/Machine/ScalarFloat.lean ====
section
/-! DEFINITION. The FPU instructions (R128 to R136). Results land by n + 10 (R129). -/

namespace Sys2Proof.Machine

/-- The low bits of a register as bits of a format (R128). -/
def lowBits (f : FFmt) (x : Word) : Nat := x.toNat % 2 ^ f.width

/-- The word of an FPU instruction (R129). -/
def wordF (f7 : Nat) (fmt : BitVec 2) (b a d : Nat) : Nat := wordK 12 f7 fmt.toNat b a d

/-- A result with its flags ORed into THR_FPCTL (R127). -/
def fpuDone (s : State) (r : Nat × Nat) : Res := .done (s.setThr (s.thr.raise r.2)) [wordOf r.1]

/-- An FPU instruction of two sources. -/
def fpu2 (f7 : Nat) (b a : Reg) (fmt : BitVec 2) (d : Reg) (f : Rnd → Nat → Nat → Nat × Nat) : State → Out :=
  issue { word := wordF f7 fmt b.toNat a.toNat d.toNat, srcs := [a, b], dsts := [d], lat := 10 } (fun s xs =>
    fpuDone s (f (s.thr.rounding 0) (lowBits (fpuFmt fmt) (arg xs 0)) (lowBits (fpuFmt fmt) (arg xs 1))))

/-- An FPU instruction of one source. -/
def fpu1 (f7 : Nat) (a : Reg) (fmt : BitVec 2) (d : Reg) (f : Rnd → Nat → Nat × Nat) : State → Out :=
  issue { word := wordF f7 fmt 0 a.toNat d.toNat, srcs := [a], dsts := [d], lat := 10 } (fun s xs =>
    fpuDone s (f (s.thr.rounding 0) (lowBits (fpuFmt fmt) (arg xs 0))))

/-- FADD (R131). -/
def execFadd (b a : Reg) (fmt : BitVec 2) (d : Reg) : State → Out :=
  let f := fpuFmt fmt
  fpu2 0 b a fmt d (fun r x y => fAdd f r (f.unpack x) (f.unpack y))

/-- FSUB (R131): a + (−b). -/
def execFsub (b a : Reg) (fmt : BitVec 2) (d : Reg) : State → Out :=
  let f := fpuFmt fmt
  fpu2 1 b a fmt d (fun r x y => fAdd f r (f.unpack x) (f.unpack y).neg)

/-- FMUL (R131). -/
def execFmul (b a : Reg) (fmt : BitVec 2) (d : Reg) : State → Out :=
  let f := fpuFmt fmt
  fpu2 2 b a fmt d (fun r x y => fMul f r (f.unpack x) (f.unpack y))

/-- FDIV (R129, R131): in one of the core's dividers. -/
def execFdiv (b a : Reg) (fmt : BitVec 2) (d : Reg) : State → Out :=
  let f := fpuFmt fmt
  issue { word := wordF 3 fmt b.toNat a.toNat d.toNat, srcs := [a, b], dsts := [d] } (fun s xs =>
    let r := fDiv f (s.thr.rounding 0) (f.unpack (lowBits f (arg xs 0))) (f.unpack (lowBits f (arg xs 1)))
    startDivide s (wordOf r.1) r.2 true)

/-- FSQRT (R129, R131): in one of the core's dividers. -/
def execFsqrt (a : Reg) (fmt : BitVec 2) (d : Reg) : State → Out :=
  let f := fpuFmt fmt
  issue { word := wordF 4 fmt 0 a.toNat d.toNat, srcs := [a], dsts := [d] } (fun s xs =>
    let r := fSqrt f (s.thr.rounding 0) (f.unpack (lowBits f (arg xs 0)))
    startDivide s (wordOf r.1) r.2 true)

/-- FMA (R129, R131): a × b + old rd, rounded once; rd is read as the addend, after a and b. -/
def execFma (b a : Reg) (fmt : BitVec 2) (d : Reg) : State → Out :=
  let f := fpuFmt fmt
  issue { word := wordF 5 fmt b.toNat a.toNat d.toNat, srcs := [a, b, d], dsts := [d], lat := 10 } (fun s xs =>
    fpuDone s (fFma f (s.thr.rounding 0) (f.unpack (lowBits f (arg xs 0))) (f.unpack (lowBits f (arg xs 1)))
      (f.unpack (lowBits f (arg xs 2)))))

/-- FMIN (R132). -/
def execFmin (b a : Reg) (fmt : BitVec 2) (d : Reg) : State → Out :=
  fpu2 6 b a fmt d (fun _ x y => fMinMax (fpuFmt fmt) false x y)

/-- FMAX (R132). -/
def execFmax (b a : Reg) (fmt : BitVec 2) (d : Reg) : State → Out :=
  fpu2 7 b a fmt d (fun _ x y => fMinMax (fpuFmt fmt) true x y)

/-- Bits of a format with the sign bit set to `n`. -/
def FFmt.withSign (f : FFmt) (x : Nat) (n : Bool) : Nat := f.pack n (x % 2 ^ (f.ew + f.fw))

/-- FNEG (R133): the sign bit inverted; no flag. -/
def execFneg (a : Reg) (fmt : BitVec 2) (d : Reg) : State → Out :=
  let f := fpuFmt fmt
  fpu1 8 a fmt d (fun _ x => (f.withSign x (!f.signBit x), 0))

/-- FABS (R133): the sign bit cleared; no flag. -/
def execFabs (a : Reg) (fmt : BitVec 2) (d : Reg) : State → Out :=
  let f := fpuFmt fmt
  fpu1 9 a fmt d (fun _ x => (f.withSign x false, 0))

/-- FSGN (R133): a with the sign bit of b; no flag. -/
def execFsgn (b a : Reg) (fmt : BitVec 2) (d : Reg) : State → Out :=
  let f := fpuFmt fmt
  fpu2 10 b a fmt d (fun _ x y => (f.withSign x (f.signBit y), 0))

/-- A compare that writes 1 or 0 (R134). -/
def fpuCompare (f7 which : Nat) (b a : Reg) (fmt : BitVec 2) (d : Reg) : State → Out :=
  fpu2 f7 b a fmt d (fun _ x y => let (v, fl) := fCompare (fpuFmt fmt) which x y
                                  (boolNat v, fl))

/-- FEQ (R134). -/
def execFeq (b a : Reg) (fmt : BitVec 2) (d : Reg) : State → Out := fpuCompare 11 0 b a fmt d

/-- FLT (R134). -/
def execFlt (b a : Reg) (fmt : BitVec 2) (d : Reg) : State → Out := fpuCompare 12 1 b a fmt d

/-- FLE (R134). -/
def execFle (b a : Reg) (fmt : BitVec 2) (d : Reg) : State → Out := fpuCompare 13 2 b a fmt d

/-- FCLS (R134): the class mask. -/
def execFcls (a : Reg) (fmt : BitVec 2) (d : Reg) : State → Out := fpu1 14 a fmt d (fun _ x => (fClass (fpuFmt fmt) x, 0))

/-! ### Conversions (R42, R135, R136) -/

/-- The range of the integer a control field names: b[0] unsigned, b[1] 32 bits (R42). -/
def intRange (c : BitVec 5) : Int × Int :=
  match c.getLsbD 0, c.getLsbD 1 with
  | false, false => (-(2 ^ 63), 2 ^ 63 - 1)
  | true, false => (0, 2 ^ 64 - 1)
  | false, true => (-(2 ^ 31), 2 ^ 31 - 1)
  | true, true => (0, 2 ^ 32 - 1)

/-- FCVTI (R135): float to integer; I32 results sign-extended, N32 results zero-extended. -/
def execFcvti (c : BitVec 5) (a : Reg) (fmt : BitVec 2) (d : Reg) : State → Out :=
  let f := fpuFmt fmt
  issue { word := wordF 15 fmt c.toNat a.toNat d.toNat, srcs := [a], dsts := [d], lat := 10 } (fun s xs =>
    let (lo, hi) := intRange c
    let (x, fl) := toInt (s.thr.rounding (c.toNat / 4)) lo hi (f.unpack (lowBits f (arg xs 0)))
    .done (s.setThr (s.thr.raise fl)) [BitVec.ofInt 64 x])

/-- The integer a control field reads from a register (R135). -/
def intSource (c : BitVec 5) (x : Word) : Int :=
  match c.getLsbD 0, c.getLsbD 1 with
  | false, false => x.toInt
  | true, false => x.toNat
  | false, true => (low32 x).toInt
  | true, true => (low32 x).toNat

/-- FCVTF (R135): integer to float. -/
def execFcvtf (c : BitVec 5) (a : Reg) (fmt : BitVec 2) (d : Reg) : State → Out :=
  issue { word := wordF 16 fmt c.toNat a.toNat d.toNat, srcs := [a], dsts := [d], lat := 10 } (fun s xs =>
    fpuDone s ((fpuFmt fmt).convert (s.thr.rounding (c.toNat / 4)) (ofInt (intSource c (arg xs 0)))))

/-- FCVTFF (R136): float to float; b[4:2] = 6 rounds stochastically and steps SRSEED once. -/
def execFcvtff (c : BitVec 5) (a : Reg) (fmt : BitVec 2) (d : Reg) : State → Out :=
  let f := fpuFmt fmt
  let g := fpuFmt (c.setWidth 2)
  issue { word := wordF 17 fmt c.toNat a.toNat d.toNat, srcs := [a], dsts := [d], lat := 10 } (fun s xs =>
    let v := f.unpack (lowBits f (arg xs 0))
    if c.toNat / 4 = 6 ∧ s.thr.srPending then .park
    else if c.toNat / 4 = 6 then
      let seed := galois s.thr.srseed
      let (x, fl) := g.convert (.sr (seed.toNat / 65536)) v
      .done (s.setThr (s.thr.setCsr 0x012 (withSeed s.thr.csr.fpctl seed ||| wordOf (fl * 8)))) [wordOf x]
    else fpuDone s (g.convert (s.thr.rounding (c.toNat / 4)) v))

end Sys2Proof.Machine
end

