-- ==== Sys2Proof/Machine/Dispatch.lean ====
section
/-! DEFINITION. The dispatch of an instruction, or of an event of the package, to its meaning: one arm per constructor of
`Instr`, in the order of the table of operations. -/

namespace Sys2Proof.Machine

def exec (i : Instr) (s : State) : Host.Outcome State Fault Refusal :=
  match i with
  | .ldb imm a d => Sys2Proof.Machine.execLdb imm a d s
  | .ldh imm a d => Sys2Proof.Machine.execLdh imm a d s
  | .ldw imm a d => Sys2Proof.Machine.execLdw imm a d s
  | .ldd imm a d => Sys2Proof.Machine.execLdd imm a d s
  | .ldbu imm a d => Sys2Proof.Machine.execLdbu imm a d s
  | .ldhu imm a d => Sys2Proof.Machine.execLdhu imm a d s
  | .ldwu imm a d => Sys2Proof.Machine.execLdwu imm a d s
  | .pref imm a level => Sys2Proof.Machine.execPref imm a level s
  | .stb imm b a => Sys2Proof.Machine.execStb imm b a s
  | .sth imm b a => Sys2Proof.Machine.execSth imm b a s
  | .stw imm b a => Sys2Proof.Machine.execStw imm b a s
  | .std imm b a => Sys2Proof.Machine.execStd imm b a s
  | .cpin imm a => Sys2Proof.Machine.execCpin imm a s
  | .cunpin imm a => Sys2Proof.Machine.execCunpin imm a s
  | .cflush imm a => Sys2Proof.Machine.execCflush imm a s
  | .addi imm a d => Sys2Proof.Machine.execAddi imm a d s
  | .andi imm a d => Sys2Proof.Machine.execAndi imm a d s
  | .ori imm a d => Sys2Proof.Machine.execOri imm a d s
  | .xori imm a d => Sys2Proof.Machine.execXori imm a d s
  | .slti imm a d => Sys2Proof.Machine.execSlti imm a d s
  | .sltiu imm a d => Sys2Proof.Machine.execSltiu imm a d s
  | .slli n a d => Sys2Proof.Machine.execSlli n a d s
  | .srli n a d => Sys2Proof.Machine.execSrli n a d s
  | .srai n a d => Sys2Proof.Machine.execSrai n a d s
  | .rori n a d => Sys2Proof.Machine.execRori n a d s
  | .sextb a d => Sys2Proof.Machine.execSextb a d s
  | .sexth a d => Sys2Proof.Machine.execSexth a d s
  | .sextw a d => Sys2Proof.Machine.execSextw a d s
  | .zextb a d => Sys2Proof.Machine.execZextb a d s
  | .zexth a d => Sys2Proof.Machine.execZexth a d s
  | .zextw a d => Sys2Proof.Machine.execZextw a d s
  | .add b a d => Sys2Proof.Machine.execAdd b a d s
  | .sub b a d => Sys2Proof.Machine.execSub b a d s
  | .and b a d => Sys2Proof.Machine.execAnd b a d s
  | .or b a d => Sys2Proof.Machine.execOr b a d s
  | .xor b a d => Sys2Proof.Machine.execXor b a d s
  | .sll b a d => Sys2Proof.Machine.execSll b a d s
  | .srl b a d => Sys2Proof.Machine.execSrl b a d s
  | .sra b a d => Sys2Proof.Machine.execSra b a d s
  | .ror b a d => Sys2Proof.Machine.execRor b a d s
  | .slt b a d => Sys2Proof.Machine.execSlt b a d s
  | .sltu b a d => Sys2Proof.Machine.execSltu b a d s
  | .min b a d => Sys2Proof.Machine.execMin b a d s
  | .max b a d => Sys2Proof.Machine.execMax b a d s
  | .minu b a d => Sys2Proof.Machine.execMinu b a d s
  | .maxu b a d => Sys2Proof.Machine.execMaxu b a d s
  | .mul b a d => Sys2Proof.Machine.execMul b a d s
  | .mulh b a d => Sys2Proof.Machine.execMulh b a d s
  | .mulhu b a d => Sys2Proof.Machine.execMulhu b a d s
  | .div b a d => Sys2Proof.Machine.execDiv b a d s
  | .divu b a d => Sys2Proof.Machine.execDivu b a d s
  | .rem b a d => Sys2Proof.Machine.execRem b a d s
  | .remu b a d => Sys2Proof.Machine.execRemu b a d s
  | .clz a d => Sys2Proof.Machine.execClz a d s
  | .ctz a d => Sys2Proof.Machine.execCtz a d s
  | .popc a d => Sys2Proof.Machine.execPopc a d s
  | .bswap a d => Sys2Proof.Machine.execBswap a d s
  | .sel b a d => Sys2Proof.Machine.execSel b a d s
  | .andn b a d => Sys2Proof.Machine.execAndn b a d s
  | .addw b a d => Sys2Proof.Machine.execAddw b a d s
  | .subw b a d => Sys2Proof.Machine.execSubw b a d s
  | .mulw b a d => Sys2Proof.Machine.execMulw b a d s
  | .sllw b a d => Sys2Proof.Machine.execSllw b a d s
  | .srlw b a d => Sys2Proof.Machine.execSrlw b a d s
  | .sraw b a d => Sys2Proof.Machine.execSraw b a d s
  | .divw b a d => Sys2Proof.Machine.execDivw b a d s
  | .remw b a d => Sys2Proof.Machine.execRemw b a d s
  | .lui imm d => Sys2Proof.Machine.execLui imm d s
  | .apc imm d => Sys2Proof.Machine.execApc imm d s
  | .beq off b a => Sys2Proof.Machine.execBeq off b a s
  | .bne off b a => Sys2Proof.Machine.execBne off b a s
  | .blt off b a => Sys2Proof.Machine.execBlt off b a s
  | .bge off b a => Sys2Proof.Machine.execBge off b a s
  | .bltu off b a => Sys2Proof.Machine.execBltu off b a s
  | .bgeu off b a => Sys2Proof.Machine.execBgeu off b a s
  | .bfull off a => Sys2Proof.Machine.execBfull off a s
  | .bempty off a => Sys2Proof.Machine.execBempty off a s
  | .jal off d => Sys2Proof.Machine.execJal off d s
  | .jalr imm a d => Sys2Proof.Machine.execJalr imm a d s
  | .loop len a => Sys2Proof.Machine.execLoop len a s
  | .loopi len count => Sys2Proof.Machine.execLoopi len count s
  | .lbrk => Sys2Proof.Machine.execLbrk s
  | .lnext => Sys2Proof.Machine.execLnext s
  | .lidx level d => Sys2Proof.Machine.execLidx level d s
  | .yield mask => Sys2Proof.Machine.execYield mask s
  | .padd b a d => Sys2Proof.Machine.execPadd b a d s
  | .paddi imm a d => Sys2Proof.Machine.execPaddi imm a d s
  | .psub b a d => Sys2Proof.Machine.execPsub b a d s
  | .psetf l f a d => Sys2Proof.Machine.execPsetf l f a d s
  | .psetp path a d => Sys2Proof.Machine.execPsetp path a d s
  | .pgetf a d => Sys2Proof.Machine.execPgetf a d s
  | .pchk b a d => Sys2Proof.Machine.execPchk b a d s
  | .fadd b a fmt d => Sys2Proof.Machine.execFadd b a fmt d s
  | .fsub b a fmt d => Sys2Proof.Machine.execFsub b a fmt d s
  | .fmul b a fmt d => Sys2Proof.Machine.execFmul b a fmt d s
  | .fdiv b a fmt d => Sys2Proof.Machine.execFdiv b a fmt d s
  | .fsqrt a fmt d => Sys2Proof.Machine.execFsqrt a fmt d s
  | .fma b a fmt d => Sys2Proof.Machine.execFma b a fmt d s
  | .fmin b a fmt d => Sys2Proof.Machine.execFmin b a fmt d s
  | .fmax b a fmt d => Sys2Proof.Machine.execFmax b a fmt d s
  | .fneg a fmt d => Sys2Proof.Machine.execFneg a fmt d s
  | .fabs a fmt d => Sys2Proof.Machine.execFabs a fmt d s
  | .fsgn b a fmt d => Sys2Proof.Machine.execFsgn b a fmt d s
  | .feq b a fmt d => Sys2Proof.Machine.execFeq b a fmt d s
  | .flt b a fmt d => Sys2Proof.Machine.execFlt b a fmt d s
  | .fle b a fmt d => Sys2Proof.Machine.execFle b a fmt d s
  | .fcls a fmt d => Sys2Proof.Machine.execFcls a fmt d s
  | .fcvti c a fmt d => Sys2Proof.Machine.execFcvti c a fmt d s
  | .fcvtf c a fmt d => Sys2Proof.Machine.execFcvtf c a fmt d s
  | .fcvtff c a fmt d => Sys2Proof.Machine.execFcvtff c a fmt d s
  | .vld cb mk a vd => Sys2Proof.Machine.execVld cb mk a vd s
  | .vlds cb mk b a vd => Sys2Proof.Machine.execVlds cb mk b a vd s
  | .vldx cb mk vb a vd => Sys2Proof.Machine.execVldx cb mk vb a vd s
  | .vst cb mk a vd => Sys2Proof.Machine.execVst cb mk a vd s
  | .vsts cb mk b a vd => Sys2Proof.Machine.execVsts cb mk b a vd s
  | .vstx cb mk vb a vd => Sys2Proof.Machine.execVstx cb mk vb a vd s
  | .vlda cb mk vb a vd => Sys2Proof.Machine.execVlda cb mk vb a vd s
  | .vldm cb a md => Sys2Proof.Machine.execVldm cb a md s
  | .vstm cb a md => Sys2Proof.Machine.execVstm cb a md s
  | .vadd cb mk vb va kind vd => Sys2Proof.Machine.execVadd cb mk vb va kind vd s
  | .vsub cb mk vb va kind vd => Sys2Proof.Machine.execVsub cb mk vb va kind vd s
  | .vmul cb mk vb va kind vd => Sys2Proof.Machine.execVmul cb mk vb va kind vd s
  | .vmulh cb mk vb va kind vd => Sys2Proof.Machine.execVmulh cb mk vb va kind vd s
  | .vmulhu cb mk vb va kind vd => Sys2Proof.Machine.execVmulhu cb mk vb va kind vd s
  | .vmadd cb mk vb va kind vd => Sys2Proof.Machine.execVmadd cb mk vb va kind vd s
  | .vmin cb mk vb va kind vd => Sys2Proof.Machine.execVmin cb mk vb va kind vd s
  | .vmax cb mk vb va kind vd => Sys2Proof.Machine.execVmax cb mk vb va kind vd s
  | .vminu cb mk vb va kind vd => Sys2Proof.Machine.execVminu cb mk vb va kind vd s
  | .vmaxu cb mk vb va kind vd => Sys2Proof.Machine.execVmaxu cb mk vb va kind vd s
  | .vand cb mk vb va kind vd => Sys2Proof.Machine.execVand cb mk vb va kind vd s
  | .vor cb mk vb va kind vd => Sys2Proof.Machine.execVor cb mk vb va kind vd s
  | .vxor cb mk vb va kind vd => Sys2Proof.Machine.execVxor cb mk vb va kind vd s
  | .vsll cb mk vb va kind vd => Sys2Proof.Machine.execVsll cb mk vb va kind vd s
  | .vsrl cb mk vb va kind vd => Sys2Proof.Machine.execVsrl cb mk vb va kind vd s
  | .vsra cb mk vb va kind vd => Sys2Proof.Machine.execVsra cb mk vb va kind vd s
  | .vsadd cb mk vb va kind vd => Sys2Proof.Machine.execVsadd cb mk vb va kind vd s
  | .vssub cb mk vb va kind vd => Sys2Proof.Machine.execVssub cb mk vb va kind vd s
  | .vceq cb mk vb va kind md => Sys2Proof.Machine.execVceq cb mk vb va kind md s
  | .vcne cb mk vb va kind md => Sys2Proof.Machine.execVcne cb mk vb va kind md s
  | .vclt cb mk vb va kind md => Sys2Proof.Machine.execVclt cb mk vb va kind md s
  | .vcle cb mk vb va kind md => Sys2Proof.Machine.execVcle cb mk vb va kind md s
  | .vcltu cb mk vb va kind md => Sys2Proof.Machine.execVcltu cb mk vb va kind md s
  | .vcleu cb mk vb va kind md => Sys2Proof.Machine.execVcleu cb mk vb va kind md s
  | .vfadd cb mk vb va kind vd => Sys2Proof.Machine.execVfadd cb mk vb va kind vd s
  | .vfsub cb mk vb va kind vd => Sys2Proof.Machine.execVfsub cb mk vb va kind vd s
  | .vfmul cb mk vb va kind vd => Sys2Proof.Machine.execVfmul cb mk vb va kind vd s
  | .vfdiv cb mk vb va kind vd => Sys2Proof.Machine.execVfdiv cb mk vb va kind vd s
  | .vfsqrt cb mk va vd => Sys2Proof.Machine.execVfsqrt cb mk va vd s
  | .vfma cb mk vb va kind vd => Sys2Proof.Machine.execVfma cb mk vb va kind vd s
  | .vfms cb mk vb va kind vd => Sys2Proof.Machine.execVfms cb mk vb va kind vd s
  | .vfnma cb mk vb va kind vd => Sys2Proof.Machine.execVfnma cb mk vb va kind vd s
  | .vfmin cb mk vb va kind vd => Sys2Proof.Machine.execVfmin cb mk vb va kind vd s
  | .vfmax cb mk vb va kind vd => Sys2Proof.Machine.execVfmax cb mk vb va kind vd s
  | .vfabs cb mk va vd => Sys2Proof.Machine.execVfabs cb mk va vd s
  | .vfneg cb mk va vd => Sys2Proof.Machine.execVfneg cb mk va vd s
  | .vfrcp cb mk va vd => Sys2Proof.Machine.execVfrcp cb mk va vd s
  | .vfrsq cb mk va vd => Sys2Proof.Machine.execVfrsq cb mk va vd s
  | .vfexp2 cb mk va vd => Sys2Proof.Machine.execVfexp2 cb mk va vd s
  | .vfceq cb mk vb va kind md => Sys2Proof.Machine.execVfceq cb mk vb va kind md s
  | .vfclt cb mk vb va kind md => Sys2Proof.Machine.execVfclt cb mk vb va kind md s
  | .vfcle cb mk vb va kind md => Sys2Proof.Machine.execVfcle cb mk vb va kind md s
  | .vfcls cb mk va vd => Sys2Proof.Machine.execVfcls cb mk va vd s
  | .vcfg cb b a d => Sys2Proof.Machine.execVcfg cb b a d s
  | .vgrant cb d => Sys2Proof.Machine.execVgrant cb d s
  | .vcvt cb mk f va vd => Sys2Proof.Machine.execVcvt cb mk f va vd s
  | .vcvtSr cb mk f va vd => Sys2Proof.Machine.execVcvtSr cb mk f va vd s
  | .vsplat cb mk vb kind vd => Sys2Proof.Machine.execVsplat cb mk vb kind vd s
  | .vmvs cb vb va kind d => Sys2Proof.Machine.execVmvs cb vb va kind d s
  | .vmvv cb mk va vd => Sys2Proof.Machine.execVmvv cb mk va vd s
  | .viota cb mk vd => Sys2Proof.Machine.execViota cb mk vd s
  | .vslup cb mk vb va kind vd => Sys2Proof.Machine.execVslup cb mk vb va kind vd s
  | .vsldn cb mk vb va kind vd => Sys2Proof.Machine.execVsldn cb mk vb va kind vd s
  | .vgathr cb vb va kind vd => Sys2Proof.Machine.execVgathr cb vb va kind vd s
  | .vcompr cb va vd => Sys2Proof.Machine.execVcompr cb va vd s
  | .vmerge cb vb va kind vd => Sys2Proof.Machine.execVmerge cb vb va kind vd s
  | .vredsum cb mk vb va vd => Sys2Proof.Machine.execVredsum cb mk vb va vd s
  | .vredmin cb mk vb va vd => Sys2Proof.Machine.execVredmin cb mk vb va vd s
  | .vredmax cb mk vb va vd => Sys2Proof.Machine.execVredmax cb mk vb va vd s
  | .vfredsum cb mk vb va vd => Sys2Proof.Machine.execVfredsum cb mk vb va vd s
  | .vfredmin cb mk vb va vd => Sys2Proof.Machine.execVfredmin cb mk vb va vd s
  | .vfredmax cb mk vb va vd => Sys2Proof.Machine.execVfredmax cb mk vb va vd s
  | .mlog cb mb ma kind md => Sys2Proof.Machine.execMlog cb mb ma kind md s
  | .mpop cb ma d => Sys2Proof.Machine.execMpop cb ma d s
  | .mfirst cb ma d => Sys2Proof.Machine.execMfirst cb ma d s
  | .vhwm cb va d => Sys2Proof.Machine.execVhwm cb va d s
  | .vhwmClr cb va d => Sys2Proof.Machine.execVhwmClr cb va d s
  | .mclaim c => Sys2Proof.Machine.execMclaim c s
  | .mrels c => Sys2Proof.Machine.execMrels c s
  | .mzero c => Sys2Proof.Machine.execMzero c s
  | .mtask a d => Sys2Proof.Machine.execMtask a d s
  | .mwait a => Sys2Proof.Machine.execMwait a s
  | .mwaitAcc c => Sys2Proof.Machine.execMwaitAcc c s
  | .mrd b c vd => Sys2Proof.Machine.execMrd b c vd s
  | .mwr b va c => Sys2Proof.Machine.execMwr b va c s
  | .mstat c d => Sys2Proof.Machine.execMstat c d s
  | .xcopy b a ch d => Sys2Proof.Machine.execXcopy b a ch d s
  | .xcopy2 b a ch d => Sys2Proof.Machine.execXcopy2 b a ch d s
  | .xpln b a ch d => Sys2Proof.Machine.execXpln b a ch d s
  | .xfill b a ch d => Sys2Proof.Machine.execXfill b a ch d s
  | .xred b a ch d => Sys2Proof.Machine.execXred b a ch d s
  | .xcoll b a ch d => Sys2Proof.Machine.execXcoll b a ch d s
  | .xwait a ch => Sys2Proof.Machine.execXwait a ch s
  | .mbput mb a => Sys2Proof.Machine.execMbput mb a s
  | .mbtake mb d => Sys2Proof.Machine.execMbtake mb d s
  | .send b a n cls => Sys2Proof.Machine.execSend b a n cls s
  | .sendq b a cls => Sys2Proof.Machine.execSendq b a cls s
  | .recv cls n d => Sys2Proof.Machine.execRecv cls n d s
  | .rpoll cls d => Sys2Proof.Machine.execRpoll cls d s
  | .mclass cls a => Sys2Proof.Machine.execMclass cls a s
  | .migr a => Sys2Proof.Machine.execMigr a s
  | .rank d => Sys2Proof.Machine.execRank d s
  | .rkset b a => Sys2Proof.Machine.execRkset b a s
  | .epopen a d => Sys2Proof.Machine.execEpopen a d s
  | .epsend b a => Sys2Proof.Machine.execEpsend b a s
  | .eprecv b a d => Sys2Proof.Machine.execEprecv b a d s
  | .epclose a => Sys2Proof.Machine.execEpclose a s
  | .epabort a => Sys2Proof.Machine.execEpabort a s
  | .epverAnn a => Sys2Proof.Machine.execEpverAnn a s
  | .epverWait a => Sys2Proof.Machine.execEpverWait a s
  | .epverAbort a => Sys2Proof.Machine.execEpverAbort a s
  | .epact b d => Sys2Proof.Machine.execEpact b d s
  | .epobs b a => Sys2Proof.Machine.execEpobs b a s
  | .epend b a => Sys2Proof.Machine.execEpend b a s
  | .amoadd scope b a ord w d => Sys2Proof.Machine.execAmoadd scope b a ord w d s
  | .amoswp scope b a ord w d => Sys2Proof.Machine.execAmoswp scope b a ord w d s
  | .amocas scope b a ord w d => Sys2Proof.Machine.execAmocas scope b a ord w d s
  | .amomin scope b a ord w d => Sys2Proof.Machine.execAmomin scope b a ord w d s
  | .amomax scope b a ord w d => Sys2Proof.Machine.execAmomax scope b a ord w d s
  | .amominu scope b a ord w d => Sys2Proof.Machine.execAmominu scope b a ord w d s
  | .amomaxu scope b a ord w d => Sys2Proof.Machine.execAmomaxu scope b a ord w d s
  | .amoand scope b a ord w d => Sys2Proof.Machine.execAmoand scope b a ord w d s
  | .amoor scope b a ord w d => Sys2Proof.Machine.execAmoor scope b a ord w d s
  | .amoxor scope b a ord w d => Sys2Proof.Machine.execAmoxor scope b a ord w d s
  | .acq st a scope => Sys2Proof.Machine.execAcq st a scope s
  | .rel st a scope => Sys2Proof.Machine.execRel st a scope s
  | .fence st scope => Sys2Proof.Machine.execFence st scope s
  | .xfence b a scope => Sys2Proof.Machine.execXfence b a scope s
  | .qlock a scope => Sys2Proof.Machine.execQlock a scope s
  | .qunlk a scope => Sys2Proof.Machine.execQunlk a scope s
  | .qwait b a cond d => Sys2Proof.Machine.execQwait b a cond d s
  | .bar a level => Sys2Proof.Machine.execBar a level s
  | .take a d => Sys2Proof.Machine.execTake a d s
  | .fill b a d => Sys2Proof.Machine.execFill b a d s
  | .empty d => Sys2Proof.Machine.execEmpty d s
  | .waitt a => Sys2Proof.Machine.execWaitt a s
  | .tstart a d => Sys2Proof.Machine.execTstart a d s
  | .treap a d => Sys2Proof.Machine.execTreap a d s
  | .tkill a => Sys2Proof.Machine.execTkill a s
  | .tsave b a => Sys2Proof.Machine.execTsave b a s
  | .tload b a => Sys2Proof.Machine.execTload b a s
  | .tstat a d => Sys2Proof.Machine.execTstat a d s
  | .tself d => Sys2Proof.Machine.execTself d s
  | .succ a d => Sys2Proof.Machine.execSucc a d s
  | .retire => Sys2Proof.Machine.execRetire s
  | .exit => Sys2Proof.Machine.execExit s
  | .launch a d => Sys2Proof.Machine.execLaunch a d s
  | .csrr csr d => Sys2Proof.Machine.execCsrr csr d s
  | .csrw csr a => Sys2Proof.Machine.execCsrw csr a s
  | .csrs csr a => Sys2Proof.Machine.execCsrs csr a s
  | .csrc csr a => Sys2Proof.Machine.execCsrc csr a s
  | .sysc n => Sys2Proof.Machine.execSysc n s
  | .trap n => Sys2Proof.Machine.execTrap n s
  | .tret => Sys2Proof.Machine.execTret s
  | .break n => Sys2Proof.Machine.execBreak n s
  | .registerWrite csr v => Sys2Proof.Machine.execRegisterWrite csr v s
  | .corWinWrite n v => Sys2Proof.Machine.execCorWinWrite n v s
  | .xcStatClear n v => Sys2Proof.Machine.execXcStatClear n v s
  | .faultresRetry v => Sys2Proof.Machine.execFaultresRetry v s
  | .faultresAbandon v => Sys2Proof.Machine.execFaultresAbandon v s
  | .tlbinvPage v => Sys2Proof.Machine.execTlbinvPage v s
  | .tlbinvAll v => Sys2Proof.Machine.execTlbinvAll v s
  | .trcalWrite v => Sys2Proof.Machine.execTrcalWrite v s
  | .lwgtWrite v => Sys2Proof.Machine.execLwgtWrite v s
  | .graphrelRelease v => Sys2Proof.Machine.execGraphrelRelease v s
  | .graphrelDiscard v => Sys2Proof.Machine.execGraphrelDiscard v s
  | .trapresResume v => Sys2Proof.Machine.execTrapresResume v s
  | .trapresResumeNext v => Sys2Proof.Machine.execTrapresResumeNext v s
  | .killDrainStart v => Sys2Proof.Machine.execKillDrainStart v s
  | .viswSwitchOut v => Sys2Proof.Machine.execViswSwitchOut v s
  | .viswSwitchIn v => Sys2Proof.Machine.execViswSwitchIn v s
  | .viSwitchComplete vi => Sys2Proof.Machine.execViSwitchComplete vi s
  | .resizeWrite v => Sys2Proof.Machine.execResizeWrite v s
  | .granuleMove part granule die => Sys2Proof.Machine.execGranuleMove part granule die s
  | .resizeTimeout part => Sys2Proof.Machine.execResizeTimeout part s
  | .prtResetWrite v => Sys2Proof.Machine.execPrtResetWrite v s
  | .ctxinvWrite v => Sys2Proof.Machine.execCtxinvWrite v s
  | .fqbaseWrite v => Sys2Proof.Machine.execFqbaseWrite v s
  | .thrTimerWrite v => Sys2Proof.Machine.execThrTimerWrite v s
  | .viTailWrite vi v => Sys2Proof.Machine.execViTailWrite vi v s
  | .viCqheadWrite vi v => Sys2Proof.Machine.execViCqheadWrite vi v s
  | .viRingBaseWrite vi cq v => Sys2Proof.Machine.execViRingBaseWrite vi cq v s
  | .irhamWrite vi sq tag addr bytes => Sys2Proof.Machine.execIrhamWrite vi sq tag addr bytes s
  | .irhamRead vi sq tag addr n => Sys2Proof.Machine.execIrhamRead vi sq tag addr n s
  | .irhamRegw vi sq tag off v => Sys2Proof.Machine.execIrhamRegw vi sq tag off v s
  | .irhamRegr vi sq tag off => Sys2Proof.Machine.execIrhamRegr vi sq tag off s
  | .irhamInfo vi sq tag => Sys2Proof.Machine.execIrhamInfo vi sq tag s
  | .irhamAttest vi sq tag nonce => Sys2Proof.Machine.execIrhamAttest vi sq tag nonce s
  | .mgmtBuildPartition part quarters share => Sys2Proof.Machine.execMgmtBuildPartition part quarters share s
  | .mgmtSetCap part capw => Sys2Proof.Machine.execMgmtSetCap part capw s
  | .mgmtProvisionKey vi key => Sys2Proof.Machine.execMgmtProvisionKey vi key s
  | .mgmtResizeRequest part leaving => Sys2Proof.Machine.execMgmtResizeRequest part leaving s
  | .mgmtResetRequest part => Sys2Proof.Machine.execMgmtResetRequest part s
  | .coldReset signatureGood => Sys2Proof.Machine.execColdReset signatureGood s
  | .thermalTrip => Sys2Proof.Machine.execThermalTrip s
  | .energyAccrual part => Sys2Proof.Machine.execEnergyAccrual part s
  | .icacheRefill core line => Sys2Proof.Machine.execIcacheRefill core line s
  | .loadReply id => Sys2Proof.Machine.execLoadReply id s
  | .dividerComplete core id => Sys2Proof.Machine.execDividerComplete core id s
  | .translationWalkComplete id => Sys2Proof.Machine.execTranslationWalkComplete id s
  | .faultRecordPost part => Sys2Proof.Machine.execFaultRecordPost part s
  | .remoteScratchpadAccess id => Sys2Proof.Machine.execRemoteScratchpadAccess id s
  | .remoteAck id => Sys2Proof.Machine.execRemoteAck id s
  | .sprRefusalArrival id => Sys2Proof.Machine.execSprRefusalArrival id s
  | .deregistrationNotice id => Sys2Proof.Machine.execDeregistrationNotice id s
  | .fenceProbeEcho id => Sys2Proof.Machine.execFenceProbeEcho id s
  | .atomicAtPoint id => Sys2Proof.Machine.execAtomicAtPoint id s
  | .lockRequestHome id => Sys2Proof.Machine.execLockRequestHome id s
  | .lockReleaseHome id => Sys2Proof.Machine.execLockReleaseHome id s
  | .qwaitRequestHome id => Sys2Proof.Machine.execQwaitRequestHome id s
  | .switchGrant out => Sys2Proof.Machine.execSwitchGrant out s
  | .resend id => Sys2Proof.Machine.execResend id s
  | .laneGrant quad => Sys2Proof.Machine.execLaneGrant quad s
  | .vectorConvoyStart core slot => Sys2Proof.Machine.execVectorConvoyStart core slot s
  | .vectorConfirm core slot => Sys2Proof.Machine.execVectorConfirm core slot s
  | .vectorTrapUnwind core slot => Sys2Proof.Machine.execVectorTrapUnwind core slot s
  | .checkCompare core slot agrees => Sys2Proof.Machine.execCheckCompare core slot agrees s
  | .checkReplay core slot agrees => Sys2Proof.Machine.execCheckReplay core slot agrees s
  | .vldaReadLand core slot v group => Sys2Proof.Machine.execVldaReadLand core slot v group s
  | .tileTaskStart quad engine => Sys2Proof.Machine.execTileTaskStart quad engine s
  | .tileTaskComplete quad engine badChunks => Sys2Proof.Machine.execTileTaskComplete quad engine badChunks s
  | .copyPiece cluster id => Sys2Proof.Machine.execCopyPiece cluster id s
  | .copyComplete cluster id => Sys2Proof.Machine.execCopyComplete cluster id s
  | .promiseRenewal cluster id => Sys2Proof.Machine.execPromiseRenewal cluster id s
  | .collectiveResult group => Sys2Proof.Machine.execCollectiveResult group s
  | .messageArrival id => Sys2Proof.Machine.execMessageArrival id s
  | .messageAck id => Sys2Proof.Machine.execMessageAck id s
  | .messageRefusal id => Sys2Proof.Machine.execMessageRefusal id s
  | .packetReturn id => Sys2Proof.Machine.execPacketReturn id s
  | .homeForward id => Sys2Proof.Machine.execHomeForward id s
  | .rankEntryFetch id => Sys2Proof.Machine.execRankEntryFetch id s
  | .homeDepart id => Sys2Proof.Machine.execHomeDepart id s
  | .drainTokenAtSource id => Sys2Proof.Machine.execDrainTokenAtSource id s
  | .homeArrive id => Sys2Proof.Machine.execHomeArrive id s
  | .homeEntryWrite id => Sys2Proof.Machine.execHomeEntryWrite id s
  | .fillArrival id => Sys2Proof.Machine.execFillArrival id s
  | .fillBufferApply core => Sys2Proof.Machine.execFillBufferApply core s
  | .migrantArrival id => Sys2Proof.Machine.execMigrantArrival id s
  | .migrantInstall core => Sys2Proof.Machine.execMigrantInstall core s
  | .sendqRequest id => Sys2Proof.Machine.execSendqRequest id s
  | .sendqReply id => Sys2Proof.Machine.execSendqReply id s
  | .sendqDelivery id => Sys2Proof.Machine.execSendqDelivery id s
  | .launchRingRead vi => Sys2Proof.Machine.execLaunchRingRead vi s
  | .launchAdmit part => Sys2Proof.Machine.execLaunchAdmit part s
  | .instancePlace part lid cores => Sys2Proof.Machine.execInstancePlace part lid cores s
  | .completionRecordWrite part lid energy => Sys2Proof.Machine.execCompletionRecordWrite part lid energy s
  | .successionSequence part lid => Sys2Proof.Machine.execSuccessionSequence part lid s
  | .successorStart part lid => Sys2Proof.Machine.execSuccessorStart part lid s
  | .preemptLanding core slot => Sys2Proof.Machine.execPreemptLanding core slot s
  | .forcedSave core slot => Sys2Proof.Machine.execForcedSave core slot s
  | .saveWrite core slot => Sys2Proof.Machine.execSaveWrite core slot s
  | .timerExpiry core slot => Sys2Proof.Machine.execTimerExpiry core slot s
  | .asyncTrapTake core slot => Sys2Proof.Machine.execAsyncTrapTake core slot s
  | .drainTokenArrival tag unit => Sys2Proof.Machine.execDrainTokenArrival tag unit s
  | .killDrainComplete tag => Sys2Proof.Machine.execKillDrainComplete tag s
  | .scrubWord place word kind => Sys2Proof.Machine.execScrubWord place word kind s
  | .metadataError ctx => Sys2Proof.Machine.execMetadataError ctx s
  | .ownerTagError part => Sys2Proof.Machine.execOwnerTagError part s
  | .episodeDeadline idx => Sys2Proof.Machine.execEpisodeDeadline idx s
  | .episodeBudget idx => Sys2Proof.Machine.execEpisodeBudget idx s
  | .homePierStore id => Sys2Proof.Machine.execHomePierStore id s
  | .registration id => Sys2Proof.Machine.execRegistration id s
  | .registrationReply id => Sys2Proof.Machine.execRegistrationReply id s
  | .succResultLanding id => Sys2Proof.Machine.execSuccResultLanding id s
  | .vectorAccessPerformed core slot => Sys2Proof.Machine.execVectorAccessPerformed core slot s
  | .convoyDrained core slot => Sys2Proof.Machine.execConvoyDrained core slot s

end Sys2Proof.Machine
end

