-- ==== Sys2Proof/Machine/Turn.lean ====
section
/-! DEFINITION. One turn of a slot or of an episode context (R60 to R63, R365): what comes before an instruction, the fetch of its
word, its decoding and its execution. -/

namespace Sys2Proof.Machine

/-! ### Fetch (R34, R63, R88) -/

/-- The number of the instruction-cache line of an address in a context. -/
def icacheLine (ctx pc : Nat) : Nat := ctx * 2 ^ 45 + pc / 256

/-- The four bytes at the pc of an actor: of the context's pinned code page for a slot, of the local store for an episode. -/
def State.fetchBytes (s : State) (a : Actor) : List Byte :=
  let pc := (s.thrOf a).pc.toNat
  match a with
  | .slot _ _ => (List.range 4).map (fun i => s.mem.byte (s.codePa (s.thrOf a).ctx pc + i))
  | .episode x => Memory.readBytes (s.episode x).store pc 4

/-- An instruction word executed: decoded and given its meaning, or the trap of R49 for a word that is none. -/
noncomputable def State.runBytes (s : State) (bs : List Byte) : Out :=
  match decodeBytes bs with
  | .ok (i, _) => exec i s
  | .error .future => .next (s.trapTurn .futureInstruction (wordOf (leNat bs)))
  | .error _ => .next (s.trapTurn .illegalInstruction (wordOf (leNat bs)))

/-! ### What comes before an instruction -/

/-- A drained fault delivered before the first instruction after a restore (R399, R406). -/
def State.deliverDrained (s : State) (a : Actor) (d : AsyncTrap) : State :=
  let t := s.thrOf a
  let s := s.setThrOf a { t with drained := none }
  match d.cause with
  | .checkFault => s.takeTrap a .checkFault d.tval t.pc true
  | .poison => s.consumePoison a d.tval
  | c => s.setThrOf a { t with drained := none, async := { cause := c, tval := d.tval } :: t.async }

/-- The PAGE_FAULT of a record that was abandoned, taken (R169). -/
def State.takeAbandoned (s : State) (a : Actor) (va : Nat) : State :=
  let t := s.thrOf a
  let s := match s.partOfCore a.core with
    | some p => s.setPart p { s.part p with openFaults := (s.part p).openFaults.filterMap (fun (o : OpenFault) =>
        let left := o.joined.filter (fun (j : Actor × Nat) => j.1 != a)
        if o.abandoned && left.isEmpty then none else some (if o.abandoned then { o with joined := left } else o)) }
    | none => s
  (s.setThrOf a { t with faultSeq := none }).takeTrap a .pageFault (wordOf va) t.pc false

/-- A pc that fails R89 before its instruction issues (R462): BRANCH_TARGET with THR_TRAPPC and THR_TVAL the pc. -/
def State.badPc (s : State) (a : Actor) : State :=
  let t := s.thrOf a
  (s.setThrOf a { t with startCheck := false, noCode := none }).takeTrap a .branchTarget (wordOf t.pc.toNat) t.pc false

/-- The pc of a slot's thread on a code page of its context, which is pinned then; or the turn in which it is not: the walk it
needs, or the trap (R62, R88, R89, R462). -/
def State.withCode (s : State) (k i : Nat) (go : State → Except State State) : Except State State :=
  let a := Actor.slot k i
  let t := s.thrOf a
  match s.codeLook k t.ctx t.noCode t.pc.toNat with
  | .ok => go ((s.pinCode k t.ctx t.pc.toNat).setThrOf a { t with startCheck := false, noCode := none })
  | .bad => .error (s.badPc a)
  | .miss => .error (startWalk t.pc.toNat 3 s.parkTurn)

/-- The fetch of an instruction: it parks on a line that the instruction cache lacks, and consumes a poisoned word (R63, R411). -/
def State.fetchReady (s : State) (k i : Nat) : Except State State :=
  let a := Actor.slot k i
  let t := s.thrOf a
  if !(s.core k).icache.contains (icacheLine t.ctx t.pc.toNat) then .error s.parkTurn
  else
    match s.tested a 0 0 (s.codePa t.ctx t.pc.toNat) 4 with
    | none => .error (s.consumePoison a (wordOf t.pc.toNat))
    | some s => .ok s

/-- What comes before the fetch once the thread stands at a checked pc: a drained fault (R406), an asynchronous trap, TIMER behind
them (R392), an abandoned data fault (R169). -/
def State.beforeFetch (s : State) (k i : Nat) : Except State State :=
  let a := Actor.slot k i
  let t := s.thrOf a
  match t.drained with
  | some d => .error (s.deliverDrained a d)
  | none =>
    if t.takesAsync then .error (s.asyncTurn a)
    else
      match s.abandonedAt a with
      | some va => .error (if t.runAhead then s else s.takeAbandoned a va)
      | none =>
        if t.faultSeq.isSome || t.walking.isSome then .error s
        else s.withCode k i (fun s => s.fetchReady k i)

/-- What an issuing thread's turn does before an instruction: `.ok` goes on to the fetch, `.error` ends the turn. A pc that no
instruction has checked is checked before anything else (R462). -/
def State.beforeIssue (s : State) (k i : Nat) : Except State State :=
  let a := Actor.slot k i
  let t := s.thrOf a
  let t := if t.timerReached s.tb then { t with timerDue := true } else t
  let s := s.setThrOf a t
  if t.startCheck then
    if t.walking.isSome then .error s else s.withCode k i (fun s => s.beforeFetch k i)
  else s.beforeFetch k i

/-- Whether the thread of a slot may issue at its turn, apart from its own waits: not halted, not swapping, not on its way, and not
held (R61, R336). A held thread that is being saved in a wait it has committed itself to first completes that instruction: what it
owes lands before its image is written (R399). -/
def Thread.issues (t : Thread) : Bool :=
  t.run == .issuing && !t.arriving && (!t.held || (decide (4 ≤ t.stage) && t.saveAt.isSome))

/-- The turn of a slot (R60, R61): a bubble, or one instruction. -/
noncomputable def State.slotTurn (s : State) (k i : Nat) : Out :=
  let t := s.thrOf (.slot k i)
  if t.run = .retiring then .next (if t.held then s else s.retireTurn)
  else if !t.issues then .next s
  else
    match s.beforeIssue k i with
    | .error s' => .next s'
    | .ok s' => s'.runBytes (s'.fetchBytes (.slot k i))

/-- The turn of an episode context (R365): one instruction. Beyond its budget, one that would issue does not: the watchdog ends the
episode (R379). -/
noncomputable def State.episodeTurn (s : State) (x : Nat) : Out :=
  let r := s.runBytes (s.fetchBytes (.episode x))
  if (s.episode x).overrun then .next s
  else if (s.episode x).spent then
    match r with
    | .next s' =>
      .next (if (s'.episode x).running && (s'.episode x).thr.parked then s' else s.setEpisode x { s.episode x with overrun := true })
    | o => o
  else r

/-- The turn of an actor; an empty slot's is a bubble. -/
noncomputable def State.turn (s : State) (a : Actor) : Out :=
  if !s.live a then .next s
  else
    match a with
    | .slot k i => s.slotTurn k i
    | .episode x => s.episodeTurn x

end Sys2Proof.Machine
end

