-- ==== Sys2Proof/Machine/Schedule.lean ====
section
/-! DEFINITION. The package's clock: the turns of an F-cycle (R60, R365), the work of its units where the world outside names none,
and the advance to the next F-cycle. Which unit acts first where the spec gives no order is the order of `State.unitWork`; an
agenda may name any other. -/

namespace Sys2Proof.Machine

/-! ### The work of the units -/

/-- The event that a packet all of whose flits have reached its port waits for. -/
def Packet.event (p : Packet) : Option (State → Out) :=
  if p.waiting then some (execResend p.id)
  else if !p.whole then none
  else
    match p.body with
    | .load .. => some (execLoadReply p.id)
    | .fetch .. => some (execLoadReply p.id)
    | .store .. => some (execHomePierStore p.id)
    | .pstore .. => some (execHomePierStore p.id)
    | .regis .. => some (execRegistration p.id)
    | .regisReply .. => some (execRegistrationReply p.id)
    | .notice .. => some (execDeregistrationNotice p.id)
    | .probe => some (execFenceProbeEcho p.id)
    | .atomic .. => some (execAtomicAtPoint p.id)
    | .spr .. => some (execRemoteScratchpadAccess p.id)
    | .sprAck .. => some (execRemoteAck p.id)
    | .sprRefuse .. => some (execSprRefusalArrival p.id)
    | .lockReq .. => some (execLockRequestHome p.id)
    | .lockRel .. => some (execLockReleaseHome p.id)
    | .lockReply .. => none
    | .qwait .. => some (execQwaitRequestHome p.id)
    | .qwaitReply .. => none
    | .msg _ e _ _ =>
      some (if e.fillReg.isSome then execFillArrival p.id else if e.sendq.isSome then execSendqRequest p.id else execMessageArrival p.id)
    | .msgReturn .. => some (execPacketReturn p.id)
    | .toHome .. => some (execHomeForward p.id)
    | .rankFetch .. => some (execRankEntryFetch p.id)
    | .msgAck .. => some (execMessageAck p.id)
    | .msgRefuse .. => some (execMessageRefusal p.id)
    | .sendqReply .. => some (execSendqReply p.id)
    | .sendqData .. => some (execSendqDelivery p.id)
    | .compFill .. => some (execFillArrival p.id)
    | .hubMsg .. => some (execMessageArrival p.id)
    | .entryWrite .. => some (execHomeEntryWrite p.id)
    | .depart .. => some (execHomeDepart p.id)
    | .token .. => some (execDrainTokenAtSource p.id)
    | .tokenBack .. => some (execPacketReturn p.id)
    | .arrive .. => some (execHomeArrive p.id)
    | .migrant .. => some (execMigrantArrival p.id)
    | .engine (.copy c y) _ _ => some (execCopyPiece c y)
    | .engine (.vec k i _ _) _ _ => some (execVectorAccessPerformed k i)
    | .engine (.vlda k i v g _) _ _ => some (execVldaReadLand k i v g)
    | .collResult c y _ => some (execCopyPiece c y)
    | .poison _ => some (execAtomicAtPoint p.id)
    | .rankAsk _ => some (execRankEntryFetch p.id)
    | .rankTold .. => none
    | .walk .. => some (execTranslationWalkComplete p.id)
    | .succ .. => some (execSuccResultLanding p.id)

/-- The switch outputs that head packets want. -/
def State.wantedOutputs (s : State) : List Nat := (s.packets.filterMap (fun p => p.route.head?.map (·.1))).eraseDups

/-- The work of the network: a grant of each output, then each packet at its port. -/
def State.netWork (s : State) : List (State → Out) := s.wantedOutputs.map execSwitchGrant ++ s.packets.filterMap Packet.event

/-- The work for one slot: its vector instructions, its fetch, its timer, and a save of it. -/
def slotWork (k i : Nat) (t : Thread) : List (State → Out) :=
  (if t.vq.isEmpty && t.pipes.isEmpty then []
   else [execVectorConvoyStart k i, execVectorTrapUnwind k i, execCheckCompare k i true, execCheckReplay k i true, execVectorConfirm k i,
         execVectorAccessPerformed k i, execConvoyDrained k i])
  ++ t.vec.unlanded.map (fun u => execVldaReadLand k i u.v u.group)
  ++ (if t.run == .issuing then [execIcacheRefill k (icacheLine t.ctx t.pc.toNat)] else [])
  ++ (if t.csr.timer = 0 then [] else [execTimerExpiry k i])
  ++ (if t.saveAt.isSome then [execForcedSave k i, execSaveWrite k i] else [])

/-- The work of one core: its dividers, its fill buffer, its arrivals, and its slots. -/
def coreWork (k : Nat) (c : Core) : List (State → Out) :=
  c.divs.map (fun d => execDividerComplete k d.id) ++ (if c.fillbuf.isEmpty then [] else [execFillBufferApply k])
    ++ (if c.arrivals.isEmpty then [] else [execMigrantInstall k]) ++ c.slots.flatMap (fun t => slotWork k t.1 t.2)

/-- The work of one quad: lanes, and its two matrix engines. -/
def quadWork (q : Nat) (x : Quad) : List (State → Out) :=
  (if x.laneWait.isEmpty then [] else [execLaneGrant q])
    ++ (if x.tasks.isEmpty then [] else [execTileTaskComplete q 0 0, execTileTaskComplete q 1 0, execTileTaskStart q 0, execTileTaskStart q 1])

/-- The work of one cluster: its copies. -/
def clusterWork (c : Nat) (x : Cluster) : List (State → Out) :=
  x.copies.flatMap (fun y => [execCopyPiece c y.id, execPromiseRenewal c y.id, execCopyComplete c y.id])

/-- The cores of a cluster that a gang of a launch would take, with first free rows. -/
def State.gangPlace (s : State) (x : Partition) (r : LaunchRec) (cl : Nat) : List (Nat × Nat) :=
  ((List.range 4).flatMap (fun q =>
    ((List.range 4).foldl (fun (acc : List (Nat × Nat)) j =>
      let k := 16 * cl + 4 * q + j
      if s.crewRoom x r k acc.length then
        match (List.range 64).find? (fun b => s.rowsFree x k b r.sprows) with
        | some b => acc ++ [(k, b)]
        | none => acc
      else acc) []))).take r.cores

/-- A place for the next instance of a launch: the first die, clusters and cores with room (R344). -/
def State.findPlace (s : State) (x : Partition) (r : LaunchRec) : List (Nat × Nat) :=
  ((List.range 4).findSome? (fun d =>
    let cls := (List.range 16).filter (fun c =>
      x.quarters.getLsbD (4 * d + c / 4) && decide (r.cores ≤ s.gangRoom x r (16 * d + c)))
    if r.clusters ≤ cls.length then
      some ((cls.take r.clusters).flatMap (fun c => s.gangPlace x r (16 * d + c)))
    else none)).getD []

/-- The counted energy of a completion record: measured, and open (R430). -/
def openEnergy (fresh lid : Nat) : BitVec 32 :=
  Config.freeByte fresh (4 * lid) ++ Config.freeByte fresh (4 * lid + 1) ++ Config.freeByte fresh (4 * lid + 2)
    ++ Config.freeByte fresh (4 * lid + 3)

/-- The work for one launch of the table. -/
def State.launchWork (s : State) (p : Nat) (x : Partition) (l : Launch) : List (State → Out) :=
  (if l.phase == .admitted && decide (l.next < l.lrec.count) then [execInstancePlace p l.lid (s.findPlace x l.lrec)] else [])
    ++ (if l.phase == .recorded then [] else [execCompletionRecordWrite p l.lid (openEnergy s.fresh l.lid)])
    ++ (if l.insts.any (fun n => n.succLid.isSome) then [execSuccessionSequence p l.lid, execSuccessorStart p l.lid] else [])

/-- The first granule that a resize has still to move, with the die it goes to (R421). -/
def granuleWork (p : Nat) (x : Partition) : List (State → Out) :=
  match x.resize with
  | some _ =>
    if x.moving then
      match ((List.range x.granules).map (x.base + ·)).find? x.departs,
            [0, 1, 2, 3].find? (fun d => (x.newHome d).isSome) with
      | some g, some d => [execGranuleMove p g d]
      | _, _ => []
    else [execResizeTimeout p]
  | none => []

/-- The work of a partition's hub units. -/
def State.partWork (s : State) (p : Nat) (x : Partition) : List (State → Out) :=
  [execEnergyAccrual p, execFaultRecordPost p, execLaunchAdmit p] ++ x.graph.flatMap (s.launchWork p x) ++ granuleWork p x
    ++ (match x.killing with
        | some (tag, acks) =>
          ((List.range drainUnits).filter (fun u => !acks.contains u)).map (fun u => execDrainTokenArrival tag u)
            ++ [execKillDrainComplete tag]
        | none => [])

/-- The work of the interfaces, of the collective engine and of the Causeway. -/
def State.hubWork (s : State) : List (State → Out) :=
  s.vis.flatMap (fun v => [execViSwitchComplete v.1, execLaunchRingRead v.1])
    ++ ((s.contribs.map Contribution.group).eraseDups).map execCollectiveResult
    ++ s.episodes.flatMap (fun e => [execEpisodeBudget e.1, execEpisodeDeadline e.1])

/-- Whether a core's quarter-die is in a partition: one in none runs nothing (R29). The dividers of episode core e are listed with
core 1,024 + e. -/
def State.runs (s : State) (k : Nat) : Bool := decide (1024 ≤ k) || (s.partOfCore k).isSome

/-- What the units do in an F-cycle, in order; what cannot happen changes nothing. -/
def State.unitWork (s : State) : List (State → Out) :=
  s.netWork ++ (s.cores.filter (fun c => s.runs c.1)).flatMap (fun c => coreWork c.1 c.2)
    ++ (s.quads.filter (fun q => s.runs (4 * q.1))).flatMap (fun q => quadWork q.1 q.2)
    ++ (s.clusters.filter (fun c => s.runs (16 * c.1))).flatMap (fun c => clusterWork c.1 c.2) ++ s.parts.flatMap (fun p => s.partWork p.1 p.2) ++ s.hubWork

/-- An event performed; one that is refused or faults is not. -/
def performed (s : State) (f : State → Out) : State :=
  match f s with
  | .next s' => s'
  | _ => s

/-- The units' work of an F-cycle done. -/
def State.doWork (s : State) : State :=
  let s' := s.unitWork.foldl performed s
  { s' with fresh := s'.fresh + 1 }

/-! ### The clock -/

/-- The loads whose time has come land (R139, R145). -/
def State.landDue (s : State) : State :=
  (s.packets.filter (fun p => match p.due with | some f => decide (f ≤ s.now) | none => false)).foldl (fun s p =>
    match s.packet? p.id with
    | some q => s.performLoad q
    | none => s) s

/-- Whose turns an F-cycle holds: slot `n` mod 16 of every core that has a thread there, and in the first F-cycle of an A-cycle
the episode contexts whose number is that A-cycle modulo 4 (R60, R365). -/
def State.turnsAt (s : State) (n : Nat) : List Actor :=
  s.cores.filterMap (fun c => if s.runs c.1 && (Tab.find? c.2.slots (n % 16)).isSome then some (Actor.slot c.1 (n % 16)) else none)
    ++ (if n % 2 = 0 then s.episodes.filterMap (fun e => if e.1 % 4 = n / 2 % 4 then some (Actor.episode e.1) else none) else [])

/-- The next F-cycle: what was due has landed, packets that have waited at a head age, body flits follow their heads, and writes to
core-shared state are committed (R73, R273, R277). -/
def State.advance (s : State) : State :=
  let s := s.landDue.agePackets.flowPackets
  let n := s.now + 1
  let s := { s with now := n, cores := s.cores.map (fun (c : Nat × Core) => (c.1, c.2.commit n)) }
  { s with rot := s.turnsAt n }

/-- The turn of the actor at the head of the rotation: a save that lands before its instruction, else its turn (R398). -/
noncomputable def State.headTurn (s : State) (a : Actor) (rest : List Actor) : Out :=
  let s' := { s with rot := rest, cur := a }
  match a with
  | .slot k i =>
    if s.live a && s.mayLand k i then .next (s'.landSlot k i false)
    else if s.live a && s.mayForce k i then .next (s'.landSlot k i ((s.thrOf a).run != .trapped))
    else s'.turn a
  | .episode _ => s'.turn a

/-- One move of the clock: the next turn of this F-cycle, or the next F-cycle. -/
noncomputable def State.clock (s : State) : Out :=
  match s.rot with
  | a :: rest => s.headTurn a rest
  | [] => .next s.advance

/-- One move of the package by itself: a turn, or the units' work of the F-cycle and the next F-cycle. -/
noncomputable def State.alone (s : State) : Out :=
  match s.rot with
  | a :: rest => s.headTurn a rest
  | [] => .next s.doWork.advance

/-- An entry of the agenda: an event, or a move of the clock. An instruction is executed by turns alone. -/
noncomputable def State.agendaMove (s : State) (e : Option Instr) : Out :=
  match e with
  | some i => if i.isEvent then exec i s else .next s
  | none => s.clock

end Sys2Proof.Machine
end

