-- ==== Sys2Proof/Machine/Step.lean ====
section
/-! DEFINITION. The step of the package, and the placing of one instruction where the next step fetches it. -/

namespace Sys2Proof.Machine

/-- Whether an agenda begins with a cold reset. -/
def coldAhead : List (Option Instr) → Bool
  | some (.coldReset _) :: _ => true
  | _ => false

/-- ONE STEP: the head of the agenda where there is one, else the package's own next move. After a thermal trip, or a failed
cold reset, only a cold reset does anything (R425). -/
noncomputable def step (s : State) : Host.Outcome State Fault Refusal :=
  if s.stopped && !coldAhead s.agenda then .fault .clocksStopped
  else
    match s.agenda with
    | e :: rest => State.agendaMove { s with agenda := rest } e
    | [] => s.alone

/-! ### Placing an instruction -/

/-- The page tables of the context that a placed instruction runs in: its root at 0x20000, one table of each further level, and
a leaf at level 3 that maps virtual page 1 to the frame at 0x50000 with R, X and PIN (R163, R164). -/
def placedTables (m : Memory) : Memory :=
  let m := Memory.writeLE m 0x20000 8 (1 + 0x40000)
  let m := Memory.writeLE m 0x40000 8 (1 + 0x41000)
  let m := Memory.writeLE m 0x41000 8 (1 + 0x42000)
  Memory.writeLE m 0x42008 8 (1 + 2 + 4 + 16 + 256 + 5 * 2 ^ 20)

/-- Where the placed instruction stands: virtually, and in memory. -/
def placedPc : Nat := 0x10000
def placedPa : Nat := 0x50000

/-- The bytes of an instruction: its bits above `nbits` are 0. -/
def placedBytes (nbits w : Nat) : List Byte := tableBytes (w % 2 ^ nbits)

/-- Whether a word is an instruction of episode cores only (R378). -/
def onEpisode (nbits w : Nat) : Bool :=
  let x := w % 2 ^ nbits
  fld x 6 0 == 0x53 && (fld x 31 25 == 6 || fld x 31 25 == 7 || fld x 31 25 == 8)

/-- The thread that runs a placed instruction: slot 0's own, free of every wait. -/
def placedThread (t : Thread) : Thread :=
  { t with ctx := 0, pc := BitVec.ofNat 53 placedPc, loops := [], run := .issuing, parked := false, held := false,
           arriving := false, startCheck := false, stage := 0, vals := [], arg := 0, popped := [], reserved := [], async := [],
           timerDue := false, csr := { t.csr with timer := 0 }, faultSeq := none, walking := none, noCode := none, saveAt := none,
           drained := none, vq := [], sending := [] }

/-- The package with an instruction placed: partition 0 holds quarter 0 of die 0 and 1 GiB, core 0 is its supervisor core, and
slot 0 of core 0 stands at the instruction, on a pinned code page with the line in its instruction cache. An instruction of episode cores stands at
offset 0x10000 of the local store of episode context 0. It is that actor's turn. -/
def State.withFetchWord (s : State) (nbits w : Nat) : State :=
  let bs := placedBytes nbits w
  if onEpisode nbits w then
    { s with stopped := false, agenda := [], rot := [.episode 0]
             parts := Tab.set s.parts 0 { s.part 0 with quarters := 1 }
             episodes := Tab.set s.episodes 0 { (s.episode 0) with
               thr := placedThread { (s.episode 0).thr with pc := 0 }, store := Memory.writeBytes (s.episode 0).store placedPc bs,
               part := 0, textLen := placedPc + 8, ended := none, closed := false, instr := 0, budget := 2 ^ 48 } }
  else
    { s with stopped := false, agenda := [], rot := [.slot 0 0]
             mem := Memory.writeBytes (placedTables s.mem) placedPa bs
             poison := [], flawed := []
             parts := Tab.set s.parts 0 { s.part 0 with quarters := 1, base := 0, granules := 16384, keys := 0xFFFF, supcore := 0 }
             ctxs := Tab.set s.ctxs 0 { s.ctx 0 with part := 0, root := 0x20000, code := [(placedPc / 65536, 16, placedPa)] }
             cores := Tab.set s.cores 0 { s.core 0 with
               slots := Tab.set (s.core 0).slots 0 (placedThread (s.thrOf (.slot 0 0)))
               icache := icacheLine 0 placedPc :: (s.core 0).icache } }

end Sys2Proof.Machine
end

