-- ==== Sys2Proof/Safety.lean ====
section
/-! DEFINITION. The terms in which the statements speak of the package: canonical memories, properties that every step keeps, and
when an instruction issues and completes. -/

namespace Sys2Proof.Machine

/-! ### Steps -/

/-- The memories of the package that addresses reach, HBM4 with the home piers and the Deck vaults (R100, R152), are in canonical
form. -/
def State.memoryWf (s : State) : Bool := s.mem.wf && s.vaults.all (fun v => Memory.wf v.2)

/-- A property that every step keeps. -/
def KeptByStep (P : State → Prop) : Prop := ∀ s t : State, P s → step s = .next t → P t

/-- States that steps lead to from `s`. -/
inductive State.Reaches (s : State) : State → Prop where
  | here : State.Reaches s s
  | next {t u : State} : State.Reaches s t → step t = .next u → State.Reaches s u

/-! ### Issue and completion of an instruction -/

/-- The operands an instruction reads, in the order of its fields (R68, R70). -/
def State.operands (s : State) (srcs : List Reg) : List Word := (s.readSrcs srcs).1

/-- The i-th of them. -/
def State.operand (s : State) (srcs : List Reg) (i : Nat) : Word := (s.operands srcs).getD i 0

/-- The state in which they have been read: the heads of queues that they name are popped (R70). -/
def State.opened (s : State) (srcs : List Reg) : State := (s.readSrcs srcs).2

/-- An instruction that reads `srcs` and writes `dsts` issues on this turn (R61, R68, R71, R181): nothing of an earlier
instruction is left, every operand is there, every destination has room; in run-ahead it names no queue and its effect does not
leave the thread. -/
def State.canIssue (s : State) (srcs dsts : List Reg) (leaves : Bool) : Prop :=
  s.thr.stage = 0 ∧ s.operandsReady srcs dsts = true ∧
    (s.thr.runAhead = true → leaves = false ∧ ∀ r ∈ srcs ++ dsts, s.thr.mapped r = none)

/-- The scalar shadow log of 16 entries has room for `k` more (R181). -/
def State.hasRoom (s : State) (k : Nat) : Prop := s.thr.log.length + k ≤ 16

/-- The next instruction in sequence may be reached (R85, R89). -/
def State.nextOk (s : State) : Prop := s.seqOk s.cur = true

/-- The state after an instruction that reads `srcs`, writes `v` to `d`, and goes on in sequence. -/
def State.writes (s : State) (srcs : List Reg) (d : Reg) (v : Word) : State :=
  ((s.opened srcs).putDst d v 3).complete s.cur

/-- Instruction `i` reads `srcs` and completes with `f` of their values in `d`. -/
def Gives (i : Instr) (srcs : List Reg) (d : Reg) (f : State → List Word → Word) : Prop :=
  ∀ s : State, s.canIssue srcs [d] false → s.nextOk → s.hasRoom 1 →
    exec i s = .next (s.writes srcs d (f s (s.operands srcs)))

/-- Instruction `i` completes with `f a` in `d`. -/
def Gives1 (i : Instr) (a d : Reg) (f : Word → Word) : Prop := Gives i [a] d (fun _ xs => f (xs.getD 0 0))

/-- Instruction `i` completes with `f a b` in `d`. -/
def Gives2 (i : Instr) (a b d : Reg) (f : Word → Word → Word) : Prop := Gives i [a, b] d (fun _ xs => f (xs.getD 0 0) (xs.getD 1 0))

/-- Instruction `i` completes with a value in `d`, landing ten F-cycles later, and floating-point flags raised (R127, R129). -/
def GivesFlags (i : Instr) (srcs : List Reg) (d : Reg) (f : Thread → List Word → Word × Nat) : Prop :=
  ∀ s : State, s.canIssue srcs [d] false → s.nextOk → s.hasRoom 2 →
    let r := f s.thr (s.operands srcs)
    exec i s = .next ((((s.opened srcs).setThr (s.thr.raise r.2)).putDst d r.1 10).complete s.cur)

/-- Instruction `i` completes with a value in `d` and flags that satisfy `P`, as GivesFlags says (R127, R129). -/
def GivesFloat (i : Instr) (srcs : List Reg) (d : Reg) (P : Thread → List Word → Word × Nat → Prop) : Prop :=
  ∀ s : State, s.canIssue srcs [d] false → s.nextOk → s.hasRoom 2 →
    ∃ r, P s.thr (s.operands srcs) r ∧ exec i s = .next ((((s.opened srcs).setThr (s.thr.raise r.2)).putDst d r.1 10).complete s.cur)

/-- The state after an instruction that has sent something off: `k` is given the destination that waits for the answer (R67, R71). -/
def State.sends (s : State) (srcs : List Reg) (d : Reg) (k : State → Dest → State) : State :=
  let w := (s.opened srcs).awaitDst d
  (k w.2 w.1).complete s.cur

/-- A divide in one of the two dividers of the core, an episode core's too: its result is known and lands later (R65, R129). -/
def State.divideSent (s : State) (v : Word) (flags : Nat) (float : Bool) (d : Dest) : State :=
  { (s.setCore s.cur.divCore { s.core s.cur.divCore with
      divs := (s.core s.cur.divCore).divs ++ [{ id := s.nextId, slot := s.cur.divSlot, dst := d, val := v, flags := flags, float := float,
                                                after := s.thr.vseq }] }) with nextId := s.nextId + 1 }

/-- Instruction `i` is a divide: with a free divider it completes with its result on the way, and parks while both are busy. -/
def Divides (i : Instr) (srcs : List Reg) (d : Reg) (float : Bool) (f : Thread → List Word → Word × Nat) : Prop :=
  ∀ s : State, s.canIssue srcs [d] false →
    let r := f s.thr (s.operands srcs)
    ((s.core s.cur.divCore).divs.length < 2 → s.nextOk → s.hasRoom 2 →
      exec i s = .next (s.sends srcs d (fun t w => t.divideSent r.1 r.2 float w))) ∧
    (2 ≤ (s.core s.cur.divCore).divs.length → exec i s = .next s.parkTurn)

/-- Instruction `i` is a divide, as Divides says, whose result and flags satisfy `P`. -/
def DividesFloat (i : Instr) (srcs : List Reg) (d : Reg) (P : Thread → List Word → Word × Nat → Prop) : Prop :=
  ∀ s : State, s.canIssue srcs [d] false →
    ((s.core s.cur.divCore).divs.length < 2 → s.nextOk → s.hasRoom 2 →
      ∃ r, P s.thr (s.operands srcs) r ∧ exec i s = .next (s.sends srcs d (fun t w => t.divideSent r.1 r.2 true w))) ∧
    (2 ≤ (s.core s.cur.divCore).divs.length → exec i s = .next s.parkTurn)

/-- A turn of the thread whose turn it is in `s` that leads to `t` changes no byte of memory, of the vaults or of a scratchpad, no packet,
partition or context, no other thread, no vector register, and of its own registers none but those of `ds`. -/
def State.keepsBut (s t : State) (ds : List Reg) : Prop :=
  (∀ a, t.mem.byte a = s.mem.byte a) ∧ t.vaults = s.vaults ∧ (∀ k, (t.core k).spad = (s.core k).spad) ∧ t.packets = s.packets ∧
    t.parts = s.parts ∧ t.ctxs = s.ctxs ∧ (∀ b, b ≠ s.cur → t.thrOf b = s.thrOf b) ∧ t.thr.vec = s.thr.vec ∧
    ∀ r, r ∉ ds → t.thr.getG r = s.thr.getG r ∧ t.thr.full r = s.thr.full r

/-! ### Floating-point results -/

/-- The exact number x × 2^e rounded once to a format; `zero` is the sign of a zero (R120, R131). -/
def FFmt.once (f : FFmt) (mode : Nat) (x e : Int) (zero : Bool) : Nat × Nat :=
  if x = 0 then (f.pack zero 0, 0) else f.round (.mode mode) (decide (x < 0)) x.natAbs e false

/-- NV where some value is a signalling NaN. -/
def nvIf (vs : List FVal) : Nat := if vs.any FVal.isSNaN then flagNV else 0

/-- R131's row of FADD: `q` is a + b with its flags. An exact zero sum of opposite signs is +0, or −0 under RDN. -/
def AddsTo (f : FFmt) (mode : Nat) (a b : FVal) (q : Nat × Nat) : Prop :=
  (a.isNaN = true ∨ b.isNaN = true → q = (f.nan, nvIf [a, b])) ∧
  (∀ x y, a = .inf x → b = .inf y → q = if x = y then (f.pack x f.inf, 0) else (f.nan, flagNV)) ∧
  (∀ x n m e, a = .inf x ∧ b = .num n m e ∨ a = .num n m e ∧ b = .inf x → q = (f.pack x f.inf, 0)) ∧
  (∀ n m e n' m' e', a = .num n m e → b = .num n' m' e' →
    let k := min e e'
    q = f.once mode (signed n (m * 2 ^ (e - k).toNat) + signed n' (m' * 2 ^ (e' - k).toNat)) k (if n = n' then n else mode == 3))

/-- R131's row of FMUL: `q` is a × b with its flags. -/
def MultipliesTo (f : FFmt) (mode : Nat) (a b : FVal) (q : Nat × Nat) : Prop :=
  (a.isNaN = true ∨ b.isNaN = true → q = (f.nan, nvIf [a, b])) ∧
  (∀ x y, a = .inf x → b = .inf y → q = (f.pack (x != y) f.inf, 0)) ∧
  (∀ x n m e, a = .inf x ∧ b = .num n m e ∨ a = .num n m e ∧ b = .inf x →
    q = if m = 0 then (f.nan, flagNV) else (f.pack (x != n) f.inf, 0)) ∧
  (∀ n m e n' m' e', a = .num n m e → b = .num n' m' e' →
    q = f.once mode (signed (n != n') (m * m')) (e + e') (n != n'))

/-- R131's row of FDIV: `q` is a / b with its flags. The quotient of two numbers is taken to more places than the format has, and
rounded knowing whether something was left. -/
def DividesTo (f : FFmt) (mode : Nat) (a b : FVal) (q : Nat × Nat) : Prop :=
  (a.isNaN = true ∨ b.isNaN = true → q = (f.nan, nvIf [a, b])) ∧
  (∀ x y, a = .inf x → b = .inf y → q = (f.nan, flagNV)) ∧
  (∀ x n m e, a = .inf x → b = .num n m e → q = (f.pack (x != n) f.inf, 0)) ∧
  (∀ x n m e, a = .num n m e → b = .inf x → q = (f.pack (n != x) 0, 0)) ∧
  (∀ n m e n' m' e', a = .num n m e → b = .num n' m' e' →
    (m' = 0 → q = if m = 0 then (f.nan, flagNV) else (f.pack (n != n') f.inf, flagDZ)) ∧
    (m' ≠ 0 → ∃ k : Nat, (m ≠ 0 → 2 ^ (f.fw + 2) ≤ m * 2 ^ k / m') ∧
      q = f.round (.mode mode) (n != n') (m * 2 ^ k / m') (e - e' - k) (m * 2 ^ k % m' != 0)))

/-- R131's row of FSQRT: `q` is the root of a with its flags; the root of a number is taken to more places than the format has. -/
def RootsTo (f : FFmt) (mode : Nat) (a : FVal) (q : Nat × Nat) : Prop :=
  (a.isNaN = true → q = (f.nan, nvIf [a])) ∧
  (∀ x, a = .inf x → q = if x then (f.nan, flagNV) else (f.inf, 0)) ∧
  (∀ n m e, a = .num n m e →
    (m = 0 → q = (f.pack n 0, 0)) ∧ (m ≠ 0 → n = true → q = (f.nan, flagNV)) ∧
    (m ≠ 0 → n = false → ∃ k root : Nat, (e - k) % 2 = 0 ∧ root * root ≤ m * 2 ^ k ∧ m * 2 ^ k < (root + 1) * (root + 1) ∧
      2 ^ (f.fw + 2) ≤ root ∧ q = f.round (.mode mode) false root ((e - k) / 2) (root * root != m * 2 ^ k)))

/-- R131's row of FMA: `q` is a × b + c, rounded once, with its flags. 0 × ∞ is invalid whatever the addend. -/
def FusesTo (f : FFmt) (mode : Nat) (a b c : FVal) (q : Nat × Nat) : Prop :=
  let invalid := ∃ x n e, a = .inf x ∧ b = .num n 0 e ∨ a = .num n 0 e ∧ b = .inf x
  let infinite := fun (p : Bool) => (∃ x y, a = .inf x ∧ b = .inf y ∧ p = (x != y)) ∨
    ∃ x n m e, m ≠ 0 ∧ p = (x != n) ∧ (a = .inf x ∧ b = .num n m e ∨ a = .num n m e ∧ b = .inf x)
  (invalid → q = (f.nan, flagNV)) ∧
  (a.isNaN = true ∨ b.isNaN = true ∨ c.isNaN = true → ¬ invalid → q = (f.nan, nvIf [a, b, c])) ∧
  (∀ p x, infinite p → c = .inf x → q = if p = x then (f.pack x f.inf, 0) else (f.nan, flagNV)) ∧
  (∀ p n m e, infinite p → c = .num n m e → q = (f.pack p f.inf, 0)) ∧
  (∀ n m e n' m' e' x, a = .num n m e → b = .num n' m' e' → c = .inf x → q = (f.pack x f.inf, 0)) ∧
  (∀ n m e n' m' e' l o g, a = .num n m e → b = .num n' m' e' → c = .num l o g →
    let k := min (e + e') g
    q = f.once mode (signed (n != n') (m * m' * 2 ^ (e + e' - k).toNat) + signed l (o * 2 ^ (g - k).toNat)) k
      (if (n != n') = l then l else mode == 3))

/-- R132: `q` is the smaller, or the larger, of the values of the bits x and y, with its flags; −0 orders below +0. -/
def MinMaxTo (f : FFmt) (large : Bool) (x y : Nat) (q : Nat × Nat) : Prop :=
  let a := f.unpack x
  let b := f.unpack y
  q.2 = nvIf [a, b] ∧
  (a.isNaN = true → b.isNaN = true → q.1 = f.nan) ∧ (a.isNaN = true → b.isNaN = false → q.1 = y) ∧
  (a.isNaN = false → b.isNaN = true → q.1 = x) ∧
  (fCmp a b = some .lt → q.1 = if large then y else x) ∧ (fCmp a b = some .gt → q.1 = if large then x else y) ∧
  (fCmp a b = some .eq → (q.1 = x ∨ q.1 = y) ∧ (f.signBit x ≠ f.signBit y → f.signBit q.1 = !large))

/-- R122, R136: `q` is a value converted to an IEEE format, with its flags. -/
def ConvertsTo (g : FFmt) (r : Rnd) (v : FVal) (q : Nat × Nat) : Prop :=
  (v.isNaN = true → q = (g.nan, nvIf [v])) ∧ (∀ n, v = .inf n → q = (g.pack n g.inf, 0)) ∧
  (∀ n m e, v = .num n m e → q = if m = 0 then (g.pack n 0, 0) else g.round r n m e false)

/-! ### Words -/

/-- The word of an I form: imm12, a, f3, d and the bits [6:0] of its major (R35). -/
def formI (imm : Nat) (a : Reg) (f3 : Nat) (d : Reg) (low : Nat) : Nat :=
  imm * 2 ^ 20 + a.toNat * 2 ^ 15 + f3 * 2 ^ 12 + d.toNat * 2 ^ 7 + low

/-- The word of a K form: f7, b, a, f3, d and the bits [6:0] of its major (R35). -/
def formK (f7 : Nat) (b a : Reg) (f3 : Nat) (d : Reg) (low : Nat) : Nat :=
  f7 * 2 ^ 25 + b.toNat * 2 ^ 20 + a.toNat * 2 ^ 15 + f3 * 2 ^ 12 + d.toNat * 2 ^ 7 + low

/-- The word of a B form: off[11:5], b, a, f3, off[4:0] and the bits [6:0] of its major (R35). -/
def formB (off : BitVec 12) (b a : Reg) (f3 low : Nat) : Nat :=
  off.toNat / 32 * 2 ^ 25 + b.toNat * 2 ^ 20 + a.toNat * 2 ^ 15 + f3 * 2 ^ 12 + off.toNat % 32 * 2 ^ 7 + low

/-! ### Control flow -/

/-- The thread whose turn it is at another position, its turn counted. -/
def State.goesTo (s : State) (pc : BitVec 53) (loops : List LoopLevel) (landing : Bool) : State :=
  (s.setThr (s.thr.goTo pc loops landing)).countIssue s.cur

/-- Instruction `i` reads `srcs` and branches by `off` where `taken` says so (R90): to a target that passes R89, else it raises
BRANCH_TARGET, or parks on the walk that the target's translation needs (R62, R89); not taken, it goes on in sequence. -/
def Branches (i : Instr) (srcs : List Reg) (off : BitVec 12) (taken : State → List Word → Bool) : Prop :=
  ∀ s : State, s.canIssue srcs [] false → s.hasRoom 0 →
    let target := BitVec.ofInt 53 (s.thr.pc.toNat + 4 * off.toInt)
    (taken s (s.operands srcs) = true → s.targetOk s.cur target = true →
      exec i s = .next ((s.opened srcs).goesTo target s.thr.loops false)) ∧
    (taken s (s.operands srcs) = true → s.targetLook s.cur target = .bad →
      exec i s = .next (s.trapTurn .branchTarget (wordOf target.toNat))) ∧
    (taken s (s.operands srcs) = true → s.targetLook s.cur target = .miss → exec i s = .next (startWalk target.toNat 3 s.parkTurn)) ∧
    (taken s (s.operands srcs) = false → s.nextOk → exec i s = .next ((s.opened srcs).complete s.cur))

/-! ### Scalar accesses -/

/-- The scalar loads with their sizes, and whether they extend the sign (R137). -/
def loads (imm : BitVec 12) (a d : Reg) : List (Instr × Nat × Bool) :=
  [(.ldb imm a d, 1, true), (.ldh imm a d, 2, true), (.ldw imm a d, 4, true), (.ldd imm a d, 8, false), (.ldbu imm a d, 1, false),
   (.ldhu imm a d, 2, false), (.ldwu imm a d, 4, false)]

/-- The scalar stores with their sizes (R137). -/
def stores (imm : BitVec 12) (b a : Reg) : List (Instr × Nat) :=
  [(.stb imm b a, 1), (.sth imm b a, 2), (.stw imm b a, 4), (.std imm b a, 8)]

/-- `v` of `n` bytes as a load extends it (R137). -/
def loaded (signed : Bool) (n v : Nat) : Word :=
  if signed then (BitVec.ofNat (8 * n) v).signExtend 64 else BitVec.ofNat 64 v

/-- An access of the thread whose turn it is, sent as a packet on its way to its place. -/
def State.sendsAccess (s : State) (net : Net) (dst : Nat) (due : Option Nat) (body : Body) : State :=
  s.send { net := net, owner := some s.cur, ctx := s.curCtx, cls := 1, src := s.curCore, dst := dst, due := due, body := body }

/-- From `s` to `t` one packet is sent: for the thread whose turn it is, in its context, from its core, on `net` to `dst`, to land at `due`
where that is known. -/
def State.sendsOne (s t : State) (net : Net) (dst : Nat) (due : Option Nat) (b : Body) : Prop :=
  ∃ p : Packet, t.packets = s.packets ++ [p] ∧ p.net = net ∧ p.src = s.curCore ∧ p.dst = dst ∧ p.due = due ∧ p.owner = some s.cur ∧
    p.ctx = s.curCtx ∧ p.body = b

/-- The thread whose turn it is in `s` has completed its instruction in `t`, in sequence (R85): no g register, no vector register, no other
thread and no scratchpad has changed. -/
def State.goesOn (s t : State) : Prop :=
  t.cur = s.cur ∧ t.thr.pc = s.thr.seqNext.1 ∧ t.thr.loops = s.thr.seqNext.2.1 ∧ t.thr.stage = 0 ∧ (∀ r, t.thr.getG r = s.thr.getG r) ∧
    t.thr.vec = s.thr.vec ∧ (∀ b, b ≠ s.cur → t.thrOf b = s.thrOf b) ∧ (∀ k, (t.core k).spad = (s.core k).spad)

/-- As `goesOn`, and every byte of memory and of the vaults is as it was. -/
def State.goesOnly (s t : State) : Prop := s.goesOn t ∧ t.mem = s.mem ∧ t.vaults = s.vaults

/-- A rank resolves to `w` on this turn, in the state `t` that leaves (R285): it names no thread; or the core's interface has its pinned
entry cached; or the core is its home; or the answer to a fetch of the home's entry is there, which a pinned entry that has not departed
leaves cached. -/
def State.resolves (s : State) (rank : Nat) (w : Where) (t : State) : Prop :=
  let ctx := s.curCtx
  let key := homeKey ctx rank
  let cached := Tab.find? (s.core s.curCore).rankCache key
  (s.rankHome ctx rank = none ∧ w = .nowhere ∧ t = s) ∨
  (∃ e x, s.rankHome ctx rank = some (s.pkg, x) ∧ cached = some e ∧ w = s.placeOf ctx rank e false ∧ w ≠ .nowhere ∧ t = s) ∨
  (s.rankHome ctx rank = some (s.pkg, s.curCore) ∧ cached = none ∧ t = s ∧
    w = s.placeOf ctx rank (s.homeEntry s.curCore ctx rank).word (s.homeEntry s.curCore ctx rank).transit) ∨
  (∃ x id e m, s.rankHome ctx rank = some (s.pkg, x) ∧ x ≠ s.curCore ∧ cached = none ∧ s.rankAnswer rank = some (id, e, m) ∧
    t = (if coordV e && coordPin e && !m then
      (s.dropPacket id).setCore s.curCore { s.core s.curCore with rankCache := Tab.set (s.core s.curCore).rankCache key e }
      else s.dropPacket id) ∧ w = t.placeOf ctx rank e m)

/-! ### Vector instructions -/

/-- The instructions of VINT with the operation each dispatches: majors and f5 of R44; a comparison's destination is a mask register. -/
def vectorIntegers (cb mk : Bool) (vb va : Reg) (kind : BitVec 2) (vd : Reg) (md : BitVec 3) : List (Instr × Nat × Nat) :=
  [(.vadd cb mk vb va kind vd, 0, vd.toNat), (.vsub cb mk vb va kind vd, 1, vd.toNat), (.vmul cb mk vb va kind vd, 2, vd.toNat),
   (.vmulh cb mk vb va kind vd, 3, vd.toNat), (.vmulhu cb mk vb va kind vd, 4, vd.toNat), (.vmadd cb mk vb va kind vd, 5, vd.toNat),
   (.vmin cb mk vb va kind vd, 6, vd.toNat), (.vmax cb mk vb va kind vd, 7, vd.toNat), (.vminu cb mk vb va kind vd, 8, vd.toNat),
   (.vmaxu cb mk vb va kind vd, 9, vd.toNat), (.vand cb mk vb va kind vd, 10, vd.toNat), (.vor cb mk vb va kind vd, 11, vd.toNat),
   (.vxor cb mk vb va kind vd, 12, vd.toNat), (.vsll cb mk vb va kind vd, 13, vd.toNat), (.vsrl cb mk vb va kind vd, 14, vd.toNat),
   (.vsra cb mk vb va kind vd, 15, vd.toNat), (.vsadd cb mk vb va kind vd, 16, vd.toNat), (.vssub cb mk vb va kind vd, 17, vd.toNat),
   (.vceq cb mk vb va kind md, 18, md.toNat), (.vcne cb mk vb va kind md, 19, md.toNat), (.vclt cb mk vb va kind md, 20, md.toNat),
   (.vcle cb mk vb va kind md, 21, md.toNat), (.vcltu cb mk vb va kind md, 22, md.toNat), (.vcleu cb mk vb va kind md, 23, md.toNat)]

/-- The instructions of VFP with two vector operands (R45). -/
def vectorFloats (cb mk : Bool) (vb va : Reg) (kind : BitVec 2) (vd : Reg) (md : BitVec 3) : List (Instr × Nat × Nat) :=
  [(.vfadd cb mk vb va kind vd, 0, vd.toNat), (.vfsub cb mk vb va kind vd, 1, vd.toNat), (.vfmul cb mk vb va kind vd, 2, vd.toNat),
   (.vfdiv cb mk vb va kind vd, 3, vd.toNat), (.vfma cb mk vb va kind vd, 5, vd.toNat), (.vfms cb mk vb va kind vd, 6, vd.toNat),
   (.vfnma cb mk vb va kind vd, 7, vd.toNat), (.vfmin cb mk vb va kind vd, 8, vd.toNat), (.vfmax cb mk vb va kind vd, 9, vd.toNat),
   (.vfceq cb mk vb va kind md, 15, md.toNat), (.vfclt cb mk vb va kind md, 16, md.toNat), (.vfcle cb mk vb va kind md, 17, md.toNat)]

/-- The instructions of VFP with one (R45). -/
def vectorUnaryFloats (cb mk : Bool) (va vd : Reg) : List (Instr × Nat) :=
  [(.vfsqrt cb mk va vd, 4), (.vfabs cb mk va vd, 10), (.vfneg cb mk va vd, 11), (.vfrcp cb mk va vd, 12), (.vfrsq cb mk va vd, 13),
   (.vfexp2 cb mk va vd, 14), (.vfcls cb mk va vd, 18)]

/-- The register a kind makes vb name: the scalar of kind 1, and of kind 3 where the kind reverses the operands (R38, R196). -/
def scalarOf (kind : BitVec 2) (vb : Reg) : List Reg := if kind = 1 ∨ kind = 3 then [vb] else []

/-- The instructions of VPERM that dispatch without a scalar result, with what each dispatches and the register it reads (R46). -/
def vectorPermutes (cb mk : Bool) (vb va : Reg) (kind : BitVec 2) (vd : Reg) (f : BitVec 5) (mb ma md : BitVec 3) :
    List (Instr × VOp × List Reg) :=
  let ks : List Reg := if kind = 1 then [vb] else []
  let op := fun (f5 : Nat) => ({ major := 16, f5 := f5, masked := mk, vb := vb.toNat, va := va.toNat, kind := kind.toNat, vd := vd.toNat } : VOp)
  [(.vcvt cb mk f va vd, { op 2 with vb := f.toNat, kind := 0 }, []), (.vcvtSr cb mk f va vd, { op 2 with vb := f.toNat, kind := 3 }, []),
   (.vsplat cb mk vb kind vd, { op 3 with va := 0 }, ks), (.vmvv cb mk va vd, { op 5 with vb := 0, kind := 0 }, []),
   (.viota cb mk vd, { op 6 with vb := 0, va := 0, kind := 0 }, []), (.vslup cb mk vb va kind vd, op 7, ks),
   (.vsldn cb mk vb va kind vd, op 8, ks), (.vgathr cb vb va kind vd, { op 9 with masked := false }, []),
   (.vcompr cb va vd, { op 10 with masked := false, vb := 0, kind := 0 }, []), (.vmerge cb vb va kind vd, { op 11 with masked := true }, ks),
   (.vredsum cb mk vb va vd, { op 12 with kind := 0 }, []), (.vredmin cb mk vb va vd, { op 13 with kind := 0 }, []),
   (.vredmax cb mk vb va vd, { op 14 with kind := 0 }, []), (.vfredsum cb mk vb va vd, { op 15 with kind := 0 }, []),
   (.vfredmin cb mk vb va vd, { op 16 with kind := 0 }, []), (.vfredmax cb mk vb va vd, { op 17 with kind := 0 }, []),
   (.mlog cb mb ma kind md, { major := 16, f5 := 18, vb := mb.toNat, va := ma.toNat, kind := kind.toNat, vd := md.toNat }, [])]

/-- The synchronising instructions of VPERM (R46, R182). -/
def vectorSyncs (cb : Bool) (vb va : Reg) (kind : BitVec 2) (ma : BitVec 3) (d : Reg) : List (Instr × VOp × List Reg) :=
  [(.vgrant cb d, { major := 16, f5 := 1, vd := d.toNat }, []),
   (.vmvs cb vb va kind d, { major := 16, f5 := 4, vb := vb.toNat, va := va.toNat, kind := kind.toNat, vd := d.toNat }, if kind = 1 then [vb] else []),
   (.mpop cb ma d, { major := 16, f5 := 19, va := ma.toNat, vd := d.toNat }, []),
   (.mfirst cb ma d, { major := 16, f5 := 20, va := ma.toNat, vd := d.toNat }, []),
   (.vhwm cb va d, { major := 16, f5 := 21, va := va.toNat, vd := d.toNat }, []),
   (.vhwmClr cb va d, { major := 16, f5 := 21, va := va.toNat, kind := 3, vd := d.toNat }, [])]

/-- The vector memory instructions (R43, R193). -/
def vectorAccesses (cb mk : Bool) (b vb a : Reg) (vd : Reg) (md : BitVec 3) : List (Instr × VOp × List Reg) :=
  let op := fun (f5 : Nat) => ({ major := 13, f5 := f5, masked := mk, va := a.toNat, vd := vd.toNat } : VOp)
  [(.vld cb mk a vd, op 0, [a]), (.vlds cb mk b a vd, { op 1 with vb := b.toNat, kind := 1 }, [a, b]),
   (.vldx cb mk vb a vd, { op 2 with vb := vb.toNat }, [a]), (.vst cb mk a vd, op 3, [a]),
   (.vsts cb mk b a vd, { op 4 with vb := b.toNat, kind := 1 }, [a, b]), (.vstx cb mk vb a vd, { op 5 with vb := vb.toNat }, [a]),
   (.vlda cb mk vb a vd, { op 6 with vb := vb.toNat }, [a]), (.vldm cb a md, { op 7 with masked := false, vd := md.toNat }, [a]),
   (.vstm cb a md, { op 8 with masked := false, vd := md.toNat }, [a])]

/-- A vector instruction may be dispatched on this turn (R171, R177, R178, R185): the thread has a vector context, no VGRANT of it is
outstanding, the dispatch queue of its core has an entry free, and the instruction begins a convoy or may join the open one. -/
def State.canDispatch (s : State) (k : Nat) (o : VOp) (cb : Bool) : Prop :=
  s.thr.laneReq ≠ 0 ∧ (∀ e ∈ s.thr.vq, e.op.major = 16 → e.op.f5 = 1 → e.confirmed = true) ∧ s.dispatched k < 8 ∧
    (o.alone = true ∨ cb = true ∨ s.thr.restored = true ∨ s.thr.convoyOpen = true ∧ o.pipe ∉ s.thr.pipes)

/-- Instruction `i`, which reads `srcs`, completes with one entry more in its thread's line of dispatched vector instructions (R178, R179,
R185): it holds the operation, the position, the loop stack, the values of the g operands, THR_VL, THR_VTYPE and RM as they are, and
whether it begins a convoy; `dst` is the destination of a synchronising instruction. Registers, CSRs, memories and packets stay. -/
def State.dispatches (s : State) (i : Instr) (srcs : List Reg) (o : VOp) (cb : Bool) (dst : Option Reg) : Prop :=
  ∃ t e, exec i s = .next t ∧ s.goesOnly t ∧ t.packets = s.packets ∧ t.thr.csr = s.thr.csr ∧
    t.thr.vq.getLast? = some e ∧ t.thr.vq.length = s.thr.vq.length + 1 ∧ (∀ x ∈ s.thr.vq, x.seq ≠ s.thr.vseq + 1 → x ∈ t.thr.vq) ∧
    e.seq = s.thr.vseq + 1 ∧ e.op = o ∧ e.pc = s.thr.pc ∧ e.loops = s.thr.loops ∧ e.xs = s.operands srcs ∧
    e.vl = s.thr.csr.vl.toNat % 2048 ∧ e.vtype = s.thr.csr.vtype ∧ e.rm = s.thr.csr.fpctl.toNat % 8 ∧ e.stage = .queued ∧
    e.confirmed = false ∧ e.head = (o.alone || cb || s.thr.restored) ∧ t.thr.convoyOpen = !o.alone ∧ t.thr.restored = false ∧
    (∀ d, dst = some d → (s.thr.mapped d = none → d ≠ 0 → t.thr.isPending d = true) ∧
      e.dst = match s.thr.mapped d with
        | some q => .queue q (s.nextId + 1)
        | none => if d = 0 then .none else .reg d)

/-- A dispatched instruction of majors 14 to 17 that VECTOR_CONFIRM confirms (R180, R210): the oldest unconfirmed one of its thread, started,
its registers there, no format fault, none of its words poisoned, and its check passed where it has one. -/
def State.confirms (s : State) (k i : Nat) (e : VEntry) : Prop :=
  s.vecHead k i = some e ∧ e.op.major ≠ 13 ∧ e.formatFault = false ∧ (s.thrOf (.slot k i)).readsBad e = false ∧
    (e.stage = .checked ∨ e.stage = .started ∧ (s.thrOf (.slot k i)).unitsOf e = [])

/-- What confirmation of `e` leaves as it was: the position, memories, packets and every other thread; `e` is no longer listed. -/
def State.confirmed (s t : State) (k i : Nat) (e : VEntry) : Prop :=
  let a := Actor.slot k i
  (t.thrOf a).pc = (s.thrOf a).pc ∧ (t.thrOf a).loops = (s.thrOf a).loops ∧
    (t.thrOf a).vq = (s.thrOf a).vq.filter (fun x => x.seq != e.seq) ∧
    t.mem = s.mem ∧ t.vaults = s.vaults ∧ t.packets = s.packets ∧ (∀ b, b ≠ a → t.thrOf b = s.thrOf b)

/-- VECTOR_CONFIRM of `e` writes `f j` to the elements of vd that `has` names, and leaves every other element and every mask and g register
(R187, R199). -/
def State.confirmsElems (s : State) (k i : Nat) (e : VEntry) (has : Nat → Bool) (f : Nat → Nat) : Prop :=
  ∃ t, exec (.vectorConfirm k i) s = .next t ∧ s.confirmed t k i e ∧
    (∀ v j, (t.thrOf (.slot k i)).vec.elem v j e.size =
      if v = e.op.vd ∧ has j = true then f j % 2 ^ (8 * e.size) else (s.thrOf (.slot k i)).vec.elem v j e.size) ∧
    (t.thrOf (.slot k i)).vec.m = (s.thrOf (.slot k i)).vec.m ∧ (∀ r, (t.thrOf (.slot k i)).getG r = (s.thrOf (.slot k i)).getG r) ∧
    (∀ n, n ≠ 0x012 → n ≠ 0x019 → (t.thrOf (.slot k i)).csr.get n = (s.thrOf (.slot k i)).csr.get n)

/-- VECTOR_CONFIRM of `e` writes `f j` to the bits of mask register vd that `has` names, and leaves the others and every vector and g
register (R201). -/
def State.confirmsMask (s : State) (k i : Nat) (e : VEntry) (has : Nat → Bool) (f : Nat → Bool) : Prop :=
  ∃ t, exec (.vectorConfirm k i) s = .next t ∧ s.confirmed t k i e ∧
    (∀ m j, j < 2048 → ((t.thrOf (.slot k i)).vec.mask m).getLsbD j =
      if m = e.op.vd ∧ has j = true then f j else ((s.thrOf (.slot k i)).vec.mask m).getLsbD j) ∧
    (t.thrOf (.slot k i)).vec.v = (s.thrOf (.slot k i)).vec.v ∧ (∀ r, (t.thrOf (.slot k i)).getG r = (s.thrOf (.slot k i)).getG r) ∧
    (∀ n, n ≠ 0x012 → n ≠ 0x019 → (t.thrOf (.slot k i)).csr.get n = (s.thrOf (.slot k i)).csr.get n)

/-- VECTOR_CONFIRM of a synchronising `e` lands `v` in its destination (R182); its vector and mask registers stay. -/
def State.confirmsScalar (s : State) (k i : Nat) (e : VEntry) (v : Word) : Prop :=
  ∃ u : State, exec (.vectorConfirm k i) s = .next (u.land (.slot k i) e.dst v) ∧ s.confirmed u k i e ∧
    (u.thrOf (.slot k i)).vec.v = (s.thrOf (.slot k i)).vec.v ∧ (u.thrOf (.slot k i)).vec.m = (s.thrOf (.slot k i)).vec.m ∧
    (∀ r, (u.thrOf (.slot k i)).getG r = (s.thrOf (.slot k i)).getG r)

/-! ### Vector accesses -/

/-- The entries of a thread with one of them changed. -/
def changeEntry (q : List VEntry) (n : Nat) (f : VEntry → VEntry) : List VEntry := q.map (fun x => if x.seq = n then f x else x)

/-- Memories, positions and registers are as they were. -/
def State.unmoved (s t : State) : Prop :=
  t.mem = s.mem ∧ t.vaults = s.vaults ∧ (∀ k, (t.core k).spad = (s.core k).spad) ∧ (∀ a r, (t.thrOf a).getG r = (s.thrOf a).getG r) ∧
    (∀ a, (t.thrOf a).pc = (s.thrOf a).pc ∧ (t.thrOf a).loops = (s.thrOf a).loops)

/-! ### Atomics -/

/-- The atomics with their functions (R317). -/
def atomics (scope : BitVec 2) (b a : Reg) (ord : BitVec 2) (w : Bool) (d : Reg) : List (Instr × Nat) :=
  [(.amoadd scope b a ord w d, 0), (.amoswp scope b a ord w d, 1), (.amocas scope b a ord w d, 2), (.amomin scope b a ord w d, 3),
   (.amomax scope b a ord w d, 4), (.amominu scope b a ord w d, 5), (.amomaxu scope b a ord w d, 6), (.amoand scope b a ord w d, 7),
   (.amoor scope b a ord w d, 8), (.amoxor scope b a ord w d, 9)]

/-- What an atomic of `m` bits leaves in its word: `old` is the word, `v` the operand, `cmp` the comparand of AMOCAS (R317). -/
def atomicLeaves (fn : Nat) {m : Nat} (old v cmp : BitVec m) : BitVec m :=
  match fn with
  | 0 => old + v
  | 1 => v
  | 2 => if old = cmp then v else old
  | 3 => if v.slt old then v else old
  | 4 => if old.slt v then v else old
  | 5 => if v.ult old then v else old
  | 6 => if old.ult v then v else old
  | 7 => old &&& v
  | 8 => old ||| v
  | _ => old ^^^ v

end Sys2Proof.Machine
end

