-- ==== Sys2Proof/Certificates/Slice0/Obligations.lean ====
section
/-! DEFINITION. The statements for the provers: what the instructions and events of the spec's rules do, what they leave, and what holds of
the whole machine. Each names the rules it rests on; those of basis 'stated' in OBLIGATIONS.json state the rules cited there whole. -/

open Sys2Proof Sys2Proof.Machine

/-- What reset leaves, where the spec gives it: TB 0, no partition, no thread, the reset column of every thread register (R69, R98, R126,
R156, R175, R209, R284, R308, R309, R376, R385), of a partition's (R279, R341, R350, R395, R397, R429) and of an interface's (R417). The
registers g1 to g31 are full and hold 0. That memory reads 0 is the model's choice (assumption 3). -/
def Obligations.ResetValues : Prop :=
  let s := State.reset
  let t : Thread := {}
  let p : Partition := {}
  let v : Vi := {}
  s.tb = 0 ∧ s.parts = [] ∧ s.ctxs = [] ∧ s.packets = [] ∧ (∀ a, s.live a = false) ∧ (∀ a, s.mem.byte a = 0) ∧
  (∀ r, t.getG r = 0 ∧ t.full r = true) ∧ t.loops = [] ∧
  (∀ n, t.csr.get n = if n = 0x011 then 0xFF else if n = 0x012 then 0x0000000100000001 else if n = 0x015 then 3 else if n = 0x019 then 1
    else if n = 0x01B then 0xFFFE else if n = 0x01C then 0xFFFFFFFFFFFFFFFE else 0) ∧
  (∀ k i, (s.core k).xctl = 0 ∧ (s.core k).migslot = 0 ∧ Tab.get 0 (s.core k).win i = 0 ∧ Tab.get 0 (s.core k).stat i = 0 ∧
    (s.core k).boundTo (1 + i % 14) = none ∧ (s.cluster k).errcnt = 0) ∧
  p.trcal = 0x1348 ∧ p.lwgt = 0x1348 ∧ p.featmask = 0 ∧ p.fqbase = 0 ∧ p.fqhead = 0 ∧ p.fqtail = 0 ∧ p.supcore = 0 ∧ p.trapval = 0 ∧ p.capw = 0 ∧ p.bal = 0 ∧
  (∀ off, v.regRead off = 0)

/-- The memories of the package, HBM4 and the Deck vaults, are in canonical form at reset. Canonical form is the form of this model's memory
lists (assumption 3). -/
def Obligations.ResetMemoryCanonical : Prop :=
  State.reset.memoryWf = true

/-- Every step that answers a next state keeps the memories of the package, HBM4 and the Deck vaults, in canonical form: addresses strictly
rising, and no entry equal to what an unlisted address reads as (assumption 3). -/
def Obligations.StepKeepsMemoryCanonical : Prop :=
  KeptByStep (fun s => s.memoryWf = true)

/-- A step at a slot's turn runs the instruction whose word stands at the thread's pc: `exec` of it, in the state that the turn's checks
leave, which keeps the thread, memory and packets; a word that is none traps under R49 and R50. The word is the one on the pinned code
page of the pc; a line that the instruction cache lacks is a bubble, a pc on no code page raises BRANCH_TARGET, and one that no TLB maps
waits for a walk (R62, R63, R88, R89, R462). A waiting event is performed, and an actor without a thread does nothing. -/
def Obligations.StepRunsDecodedInstruction : Prop :=
  (∀ (s : State) (k i : Nat) (rest : List Actor), s.stopped = false → s.agenda = [] → s.rot = .slot k i :: rest →
    let a := Actor.slot k i
    let t := s.thrOf a
    let s0 := { s with rot := rest, cur := a }
    s.live a = true → t.saveAt = none → t.run = .issuing → t.held = false → t.arriving = false →
    (∀ s1 j tail, s0.beforeIssue k i = .ok s1 → decodeBytes (s1.fetchBytes a) = .ok (j, tail) → step s = exec j s1) ∧
    (∀ s1, s0.beforeIssue k i = .ok s1 → decodeBytes (s1.fetchBytes a) = .error .future →
      step s = .next (s1.trapTurn .futureInstruction (BitVec.ofNat 64 (leNat (s1.fetchBytes a))))) ∧
    (∀ s1 e, s0.beforeIssue k i = .ok s1 → decodeBytes (s1.fetchBytes a) = .error e → e ≠ .future →
      step s = .next (s1.trapTurn .illegalInstruction (BitVec.ofNat 64 (leNat (s1.fetchBytes a))))) ∧
    (∀ s1, s0.beforeIssue k i = .error s1 → step s = .next s1) ∧
    (∀ page shift frame, t.async = [] → t.timerDue = false → t.csr.timer = 0 → t.drained = none → t.startCheck = false → t.faultSeq = none →
      t.walking = none → t.pc.toNat % 4 = 0 → (s.ctx t.ctx).code.find? (fun x => t.pc.toNat / 2 ^ x.2.1 == x.1) = some (page, shift, frame) →
      icacheLine t.ctx t.pc.toNat ∈ (s.core k).icache → s.poison = [] → s.flawed = [] →
      ∃ s1, s0.beforeIssue k i = .ok s1 ∧ s1.cur = a ∧ (∀ b, s1.thrOf b = if b = a then { t with noCode := none } else s.thrOf b) ∧
        s1.mem = s.mem ∧ s1.vaults = s.vaults ∧ s1.packets = s.packets ∧ s1.parts = s.parts ∧ s1.ctxs = s.ctxs ∧ s1.now = s.now ∧
        s1.fetchBytes a = (List.range 4).map (fun j => s.mem.byte (frame + t.pc.toNat % 2 ^ shift + j))) ∧
    (t.async = [] → t.timerDue = false → t.csr.timer = 0 → t.drained = none → t.startCheck = false → t.faultSeq = none → t.walking = none →
      s.targetLook a t.pc = .ok → icacheLine t.ctx t.pc.toNat ∉ (s.core k).icache →
      ∃ t1, step s = .next t1 ∧ (t1.thrOf a).parked = true ∧ (t1.thrOf a).pc = t.pc ∧ (∀ b, b ≠ a → t1.thrOf b = s.thrOf b) ∧
        t1.mem = s.mem ∧ t1.packets = s.packets) ∧
    (t.async = [] → t.timerDue = false → t.csr.timer = 0 → t.drained = none → t.faultSeq = none → t.walking = none →
      (s.targetLook a t.pc = .bad →
        step s = .next ((s0.setThrOf a { t with startCheck := false, noCode := none }).takeTrap a .branchTarget (wordOf t.pc.toNat) t.pc false)) ∧
      (s.targetLook a t.pc = .miss → ∃ t1, step s = .next t1 ∧ (t1.thrOf a).parked = true ∧ (t1.thrOf a).pc = t.pc ∧
        (∀ b, b ≠ a → t1.thrOf b = s.thrOf b) ∧ t1.mem = s.mem))) ∧
  (∀ (s : State) (x : Nat) (rest : List Actor) (e : Episode) (j : Instr) (tail : List Byte), s.stopped = false → s.agenda = [] →
    s.rot = .episode x :: rest → Tab.find? s.episodes x = some e → s.live (.episode x) = true → e.overrun = false → e.instr < e.budget →
    decodeBytes (e.store.readBytes e.thr.pc.toNat 4) = .ok (j, tail) → step s = exec j { s with rot := rest, cur := .episode x }) ∧
  (∀ (s : State) (e : Instr) (rest : List (Option Instr)), s.stopped = false → s.agenda = some e :: rest → e.isEvent = true →
    step s = exec e { s with agenda := rest }) ∧
  (∀ (s : State) (a : Actor) (rest : List Actor), s.stopped = false → s.agenda = [] → s.rot = a :: rest → s.live a = false →
    step s = .next { s with rot := rest, cur := a })

/-- From R60, R365: the clock. When the turns of an F-cycle are over, the next F-cycle begins: its turns are those of slot n mod 16 of every
core of a partition with a thread there (R29), and in the first F-cycle of an A-cycle those of the episode contexts whose number is the
A-cycle modulo 4. Writes to core-shared state that are due are committed (R73). -/
def Obligations.ClockRotatesSlots : Prop :=
  ∀ (s : State) (rest : List (Option Instr)), s.stopped = false → s.agenda = none :: rest → s.rot = [] →
    ∃ t, step s = .next t ∧ t.now = s.now + 1 ∧ t.agenda = rest ∧
      (∀ k i, (.slot k i) ∈ t.rot ↔ i = t.now % 16 ∧ (1024 ≤ k ∨ (s.partOfCore k).isSome = true) ∧
        (∃ c, (k, c) ∈ t.cores ∧ (Tab.find? c.slots i).isSome = true)) ∧
      (∀ x, (.episode x) ∈ t.rot ↔ t.now % 2 = 0 ∧ x % 4 = t.now / 2 % 4 ∧ ∃ e, (x, e) ∈ t.episodes) ∧
      ((∀ p ∈ s.packets, p.due = none) → (∀ k, t.core k = (s.core k).commit (s.now + 1)) ∧ t.mem = s.mem ∧ t.episodes = s.episodes)

/-- Words that the spec works out, read as it reads them. -/
def Obligations.DecodeSampleWords : Prop :=
  ∀ x ∈ [(0x0003B303, Instr.ldd 0 7 6), (0x0083B807, .std 16 8 7), (0x0402F083, .pref 64 5 1), (0x00F7070F, .add 15 14 14), (0x0052019F, .beq 3 5 4),
      (0x000400A3, .jal 64 1), (0x00008027, .jalr 0 1 0), (0x009283AF, .padd 9 5 7), (0x005201B3, .fadd 5 4 0 3), (0x040004C3, .vgrant false 9),
      (0x000001C7, .mclaim 3), (0x100A025B, .take 20 4), (0x1463F2D7, .amocas 2 6 7 3 true 5), (0x000202DF, .tstart 4 5), (0x000202D3, .epopen 4 5),
      (0x000002E3, .csrr 0 5), (0x00504063, .sysc 5), (0x00006063, .tret)],
    decodeTableWord 32 x.1 = some x.2

/-- From R49: the words that no instruction has. Bits [1:0] other than 0b11 and the word of all ones are illegal, the majors 25 to 31 are
the future's, and a word that decodes is well-formed and no step without an encoding. -/
def Obligations.ReservedWordsRefused : Prop :=
  ∀ w : BitVec 32,
    (w.toNat % 4 ≠ 3 → decode w = .error .lowBits) ∧ (w = BitVec.allOnes 32 → decode w = .error .allOnes) ∧
    (w.toNat % 4 = 3 → w ≠ BitVec.allOnes 32 → 25 ≤ w.toNat / 4 % 32 → decode w = .error .future) ∧
    (∀ i, decode w = .ok i → i.wellFormed = true ∧ i.isEvent = false ∧ w.toNat % 4 = 3 ∧ w.toNat / 4 % 32 ≤ 24) ∧
    (∀ e, decode w = .error e → w.toNat % 4 = 3 → w.toNat / 4 % 32 ≤ 24 → e = .unassigned ∨ e = .badField)

/-- From R34 to R48: every well-formed instruction with an encoding is what its word decodes to, every operand at every value, and every
word that decodes is the word of the instruction it decodes to. -/
def Obligations.DecodeEncodeAgree : Prop :=
  (∀ i : Instr, i.isEvent = false → i.wellFormed = true → ∃ x, encodeNat i = some x ∧ x < 2 ^ 32 ∧ decodeTableWord 32 x = some i) ∧
  (∀ (x : Nat) (i : Instr), x < 2 ^ 32 → decodeTableWord 32 x = some i → encodeNat i = some x)

/-- The frame of the instructions that other statements say Gives, GivesFlags, Divides, Branches, JAL, JALR and the loop instructions: ADDI
to REMU, LUI and APC, PADD to PCHK, FADD to FCLS and CSRR. No byte of memory, vault or scratchpad, no packet, no other thread, no vector
register, and no g register but the destination changes; no CSR does, but the flags of THR_FPCTL where the instruction raises some; the
destination takes the result, and g0 and a register mapped to a queue keep their own. A thread that parks keeps everything. -/
def Obligations.TurnFrames : Prop :=
  (∀ (i : Instr) (srcs : List Reg) (d : Reg) (f : State → List Word → Word), Gives i srcs d f →
    ∀ s : State, s.canIssue srcs [d] false → s.nextOk → s.hasRoom 1 →
      ∃ t, exec i s = .next t ∧ s.keepsBut t [d] ∧ t.thr.csr = s.thr.csr ∧ t.thr.pc = s.thr.seqNext.1 ∧ t.thr.loops = s.thr.seqNext.2.1 ∧
        (s.thr.mapped d = none → t.thr.full d = true ∧ t.thr.getG d = if d = 0 then 0 else f s (s.operands srcs)) ∧
        ((s.thr.mapped d).isSome = true → s.keepsBut t [])) ∧
  (∀ (i : Instr) (srcs : List Reg) (d : Reg) (f : Thread → List Word → Word × Nat), GivesFlags i srcs d f →
    ∀ s : State, s.canIssue srcs [d] false → s.nextOk → s.hasRoom 2 →
      ∃ t, exec i s = .next t ∧ s.keepsBut t [d] ∧ t.thr.pc = s.thr.seqNext.1 ∧ t.thr.loops = s.thr.seqNext.2.1 ∧
        (∀ n, n ≠ 0x012 → t.thr.csr.get n = s.thr.csr.get n) ∧
        t.thr.csr.fpctl = s.thr.csr.fpctl ||| wordOf ((f s.thr (s.operands srcs)).2 * 8) ∧
        (s.thr.mapped d = none → t.thr.full d = true ∧ t.thr.getG d = if d = 0 then 0 else (f s.thr (s.operands srcs)).1)) ∧
  (∀ (i : Instr) (srcs : List Reg) (d : Reg) (float : Bool) (f : Thread → List Word → Word × Nat), Divides i srcs d float f →
    ∀ s : State, s.canIssue srcs [d] false → s.nextOk → s.hasRoom 2 → (s.core s.cur.divCore).divs.length < 2 →
      ∃ t, exec i s = .next t ∧ s.keepsBut t [d] ∧ t.thr.csr = s.thr.csr ∧ t.thr.pc = s.thr.seqNext.1 ∧ t.thr.loops = s.thr.seqNext.2.1 ∧
        t.thr.getG d = s.thr.getG d) ∧
  (∀ (i : Instr) (srcs : List Reg) (off : BitVec 12) (taken : State → List Word → Bool), Branches i srcs off taken →
    ∀ s : State, s.canIssue srcs [] false → s.hasRoom 0 →
      (taken s (s.operands srcs) = true → s.targetOk s.cur (BitVec.ofInt 53 (s.thr.pc.toNat + 4 * off.toInt)) = true) →
      (taken s (s.operands srcs) = false → s.nextOk) →
      ∃ t, exec i s = .next t ∧ s.keepsBut t [] ∧ t.thr.csr = s.thr.csr) ∧
  (∀ (s : State) (srcs : List Reg) (d : Reg) (link : Word) (pc : BitVec 53) (loops : List LoopLevel) (l : Bool),
    let t := ((s.opened srcs).putDst d link 3).goesTo pc loops l
    s.keepsBut t [d] ∧ t.thr.csr = s.thr.csr ∧ t.thr.pc = pc ∧ t.thr.loops = loops ∧
      (s.thr.mapped d = none → t.thr.full d = true ∧ t.thr.getG d = if d = 0 then 0 else link)) ∧
  (∀ (s : State) (srcs : List Reg) (pc : BitVec 53) (loops : List LoopLevel) (l : Bool),
    let t := (s.opened srcs).goesTo pc loops l
    s.keepsBut t [] ∧ t.thr.csr = s.thr.csr ∧ t.thr.pc = pc ∧ t.thr.loops = loops) ∧
  (∀ s : State, s.keepsBut s.parkTurn [] ∧ s.parkTurn.thr.csr = s.thr.csr ∧ s.parkTurn.thr.pc = s.thr.pc ∧
    s.parkTurn.thr.loops = s.thr.loops ∧ s.parkTurn.thr.parked = true)

/-- R75 to R78, R81, R82: the words and the results of OPI, OP, LUI and APC for every immediate, source and destination; shift and extend
words with a field that must be 0 not 0 are refused, as are the unary ones with b not 0, and extends 6 and 7. The results of the OPW
instructions but its divides. -/
def Obligations.IntegerInstructionResults : Prop :=
  (∀ a d : Reg,
      (∀ imm : BitVec 12,
        Gives1 (.addi imm a d) a d (fun x => x + imm.signExtend 64) ∧
        Gives1 (.andi imm a d) a d (fun x => x &&& imm.signExtend 64) ∧
        Gives1 (.ori imm a d) a d (fun x => x ||| imm.signExtend 64) ∧
        Gives1 (.xori imm a d) a d (fun x => x ^^^ imm.signExtend 64) ∧
        Gives1 (.slti imm a d) a d (fun x => if x.toInt < imm.toInt then 1 else 0) ∧
        Gives1 (.sltiu imm a d) a d (fun x => if x.toNat < (imm.signExtend 64).toNat then 1 else 0)) ∧
      (∀ n : BitVec 6,
        Gives1 (.slli n a d) a d (fun x => BitVec.ofNat 64 (x.toNat * 2 ^ n.toNat)) ∧
        Gives1 (.srli n a d) a d (fun x => BitVec.ofNat 64 (x.toNat / 2 ^ n.toNat)) ∧
        Gives1 (.srai n a d) a d (fun x => BitVec.ofInt 64 (x.toInt / 2 ^ n.toNat)) ∧
        Gives1 (.rori n a d) a d (fun x => (x >>> n.toNat) ||| (x <<< (64 - n.toNat)))) ∧
      Gives1 (.sextb a d) a d (fun x => (x.setWidth 8).signExtend 64) ∧
      Gives1 (.sexth a d) a d (fun x => (x.setWidth 16).signExtend 64) ∧
      Gives1 (.sextw a d) a d (fun x => (x.setWidth 32).signExtend 64) ∧
      Gives1 (.zextb a d) a d (fun x => (x.setWidth 8).setWidth 64) ∧
      Gives1 (.zexth a d) a d (fun x => (x.setWidth 16).setWidth 64) ∧
      Gives1 (.zextw a d) a d (fun x => (x.setWidth 32).setWidth 64)) ∧
  (∀ a b d : Reg,
      Gives2 (.add b a d) a b d (fun x y => x + y) ∧
      Gives2 (.sub b a d) a b d (fun x y => x - y) ∧
      Gives2 (.and b a d) a b d (fun x y => x &&& y) ∧
      Gives2 (.or b a d) a b d (fun x y => x ||| y) ∧
      Gives2 (.xor b a d) a b d (fun x y => x ^^^ y) ∧
      Gives2 (.sll b a d) a b d (fun x y => BitVec.ofNat 64 (x.toNat * 2 ^ (y.toNat % 64))) ∧
      Gives2 (.srl b a d) a b d (fun x y => BitVec.ofNat 64 (x.toNat / 2 ^ (y.toNat % 64))) ∧
      Gives2 (.sra b a d) a b d (fun x y => BitVec.ofInt 64 (x.toInt / 2 ^ (y.toNat % 64))) ∧
      Gives2 (.ror b a d) a b d (fun x y => (x >>> (y.toNat % 64)) ||| (x <<< (64 - y.toNat % 64))) ∧
      Gives2 (.slt b a d) a b d (fun x y => if x.toInt < y.toInt then 1 else 0) ∧
      Gives2 (.sltu b a d) a b d (fun x y => if x.toNat < y.toNat then 1 else 0) ∧
      Gives2 (.min b a d) a b d (fun x y => BitVec.ofInt 64 (Min.min x.toInt y.toInt)) ∧
      Gives2 (.max b a d) a b d (fun x y => BitVec.ofInt 64 (Max.max x.toInt y.toInt)) ∧
      Gives2 (.minu b a d) a b d (fun x y => BitVec.ofNat 64 (Min.min x.toNat y.toNat)) ∧
      Gives2 (.maxu b a d) a b d (fun x y => BitVec.ofNat 64 (Max.max x.toNat y.toNat)) ∧
      Gives2 (.mul b a d) a b d (fun x y => x * y) ∧
      Gives2 (.mulh b a d) a b d (fun x y => BitVec.ofInt 64 (x.toInt * y.toInt / 2 ^ 64)) ∧
      Gives2 (.mulhu b a d) a b d (fun x y => BitVec.ofNat 64 (x.toNat * y.toNat / 2 ^ 64)) ∧
      Gives2 (.andn b a d) a b d (fun x y => x &&& ~~~ y) ∧
      Gives1 (.clz a d) a d (fun x => BitVec.ofNat 64 ((List.range 64).takeWhile (fun i => !x.getLsbD (63 - i))).length) ∧
      Gives1 (.ctz a d) a d (fun x => BitVec.ofNat 64 ((List.range 64).takeWhile (fun i => !x.getLsbD i)).length) ∧
      Gives1 (.popc a d) a d (fun x => BitVec.ofNat 64 ((List.range 64).countP (fun i => x.getLsbD i))) ∧
      Gives1 (.bswap a d) a d (fun x => BitVec.ofNat 64 (((List.range 8).map (fun k => x.toNat / 256 ^ k % 256 * 256 ^ (7 - k))).sum)) ∧
      Gives (.sel b a d) [a, b, d] d (fun _ xs => if xs.getD 2 0 ≠ 0 then xs.getD 0 0 else xs.getD 1 0)) ∧
  (∀ a b d : Reg,
      Gives2 (.addw b a d) a b d (fun x y => (x.setWidth 32 + y.setWidth 32 : BitVec 32).signExtend 64) ∧
      Gives2 (.subw b a d) a b d (fun x y => (x.setWidth 32 - y.setWidth 32 : BitVec 32).signExtend 64) ∧
      Gives2 (.mulw b a d) a b d (fun x y => (x.setWidth 32 * y.setWidth 32 : BitVec 32).signExtend 64) ∧
      Gives2 (.sllw b a d) a b d (fun x y => (BitVec.ofNat 32 (x.toNat * 2 ^ (y.toNat % 32))).signExtend 64) ∧
      Gives2 (.srlw b a d) a b d (fun x y => (BitVec.ofNat 32 ((x.setWidth 32).toNat / 2 ^ (y.toNat % 32))).signExtend 64) ∧
      Gives2 (.sraw b a d) a b d (fun x y => BitVec.ofInt 64 ((x.setWidth 32).toInt / 2 ^ (y.toNat % 32))) ∧
      (∀ imm : BitVec 20,
        Gives (.lui imm d) [] d (fun _ _ => (imm ++ (0 : BitVec 12)).signExtend 64) ∧
        Gives (.apc imm d) [] d (fun s _ => BitVec.ofInt 64 ((s.thr.pc.toNat + imm.toInt * 4096) % 2 ^ 53)))) ∧
  (∀ (a b d : Reg),
      (∀ imm : BitVec 12,
        encodeNat (.addi imm a d) = some (formI imm.toNat a 0 d 0x0B) ∧ encodeNat (.andi imm a d) = some (formI imm.toNat a 1 d 0x0B) ∧
        encodeNat (.ori imm a d) = some (formI imm.toNat a 2 d 0x0B) ∧ encodeNat (.xori imm a d) = some (formI imm.toNat a 3 d 0x0B) ∧
        encodeNat (.slti imm a d) = some (formI imm.toNat a 4 d 0x0B) ∧ encodeNat (.sltiu imm a d) = some (formI imm.toNat a 5 d 0x0B)) ∧
      (∀ n : BitVec 6,
        encodeNat (.slli n a d) = some (formI n.toNat a 6 d 0x0B) ∧ encodeNat (.srli n a d) = some (formI (1024 + n.toNat) a 6 d 0x0B) ∧
        encodeNat (.srai n a d) = some (formI (2048 + n.toNat) a 6 d 0x0B) ∧ encodeNat (.rori n a d) = some (formI (3072 + n.toNat) a 6 d 0x0B)) ∧
      (∀ x ∈ [(Instr.sextb a d, 0), (.sexth a d, 1), (.sextw a d, 2), (.zextb a d, 3), (.zexth a d, 4), (.zextw a d, 5)],
        encodeNat x.1 = some (formI (x.2 * 512) a 7 d 0x0B)) ∧
      (∀ op low, op < 4 → low < 1024 → low / 64 ≠ 0 → decodeNat (formI (op * 1024 + low) a 6 d 0x0B) = .error .badField) ∧
      (∀ op low, op < 8 → low < 512 → 6 ≤ op ∨ low ≠ 0 → decodeNat (formI (op * 512 + low) a 7 d 0x0B) = .error .badField) ∧
      (∀ x ∈ [(Instr.add b a d, 0), (.sub b a d, 1), (.and b a d, 2), (.or b a d, 3), (.xor b a d, 4), (.sll b a d, 5), (.srl b a d, 6),
          (.sra b a d, 7), (.ror b a d, 8), (.slt b a d, 9), (.sltu b a d, 10), (.min b a d, 11), (.max b a d, 12), (.minu b a d, 13),
          (.maxu b a d, 14), (.mul b a d, 15), (.mulh b a d, 16), (.mulhu b a d, 17), (.div b a d, 18), (.divu b a d, 19), (.rem b a d, 20),
          (.remu b a d, 21), (.sel b a d, 26), (.andn b a d, 27)], encodeNat x.1 = some (formK x.2 b a 0 d 0x0F)) ∧
      (∀ x ∈ [(Instr.clz a d, 22), (.ctz a d, 23), (.popc a d, 24), (.bswap a d, 25)],
        encodeNat x.1 = some (formK x.2 0 a 0 d 0x0F) ∧ (b ≠ 0 → decodeNat (formK x.2 b a 0 d 0x0F) = .error .badField)) ∧
      (∀ imm : BitVec 20, encodeNat (.lui imm d) = some (imm.toNat * 2 ^ 12 + d.toNat * 2 ^ 7 + 0x17) ∧
        encodeNat (.apc imm d) = some (imm.toNat * 2 ^ 12 + d.toNat * 2 ^ 7 + 0x1B)))

/-- R79 and R80, the integer divides: they truncate toward zero; a divisor of 0 gives all ones and leaves the dividend as the remainder; the
most negative number divided by −1 gives itself and the remainder 0. R65: a divide reads its operands at issue and its result lands
later; it parks while both dividers are busy. DIVIDER_COMPLETE frees the divider, raises the flags of the divide in its thread, and lands
its result there, which turns see from the next F-cycle on (R62). -/
def Obligations.IntegerDivideResults : Prop :=
  (∀ a b d : Reg,
      Divides (.div b a d) [a, b] d false (fun _ xs =>
        (if xs.getD 1 0 = 0 then -1 else BitVec.ofInt 64 ((xs.getD 0 0).toInt.tdiv (xs.getD 1 0).toInt), 0)) ∧
      Divides (.rem b a d) [a, b] d false (fun _ xs =>
        (if xs.getD 1 0 = 0 then xs.getD 0 0 else BitVec.ofInt 64 ((xs.getD 0 0).toInt.tmod (xs.getD 1 0).toInt), 0)) ∧
      Divides (.divu b a d) [a, b] d false (fun _ xs =>
        (if xs.getD 1 0 = 0 then -1 else BitVec.ofNat 64 ((xs.getD 0 0).toNat / (xs.getD 1 0).toNat), 0)) ∧
      Divides (.remu b a d) [a, b] d false (fun _ xs =>
        (if xs.getD 1 0 = 0 then xs.getD 0 0 else BitVec.ofNat 64 ((xs.getD 0 0).toNat % (xs.getD 1 0).toNat), 0)) ∧
      Divides (.divw b a d) [a, b] d false (fun _ xs =>
        let x : BitVec 32 := (xs.getD 0 0).setWidth 32
        let y : BitVec 32 := (xs.getD 1 0).setWidth 32
        (if y = 0 then -1 else (BitVec.ofInt 32 (x.toInt.tdiv y.toInt)).signExtend 64, 0)) ∧
      Divides (.remw b a d) [a, b] d false (fun _ xs =>
        let x : BitVec 32 := (xs.getD 0 0).setWidth 32
        let y : BitVec 32 := (xs.getD 1 0).setWidth 32
        ((if y = 0 then x else BitVec.ofInt 32 (x.toInt.tmod y.toInt)).signExtend 64, 0))) ∧
  (∀ (s : State) (k id : Nat) (j : DivJob) (r : Reg), (s.core k).divs.find? (fun x => x.id == id) = some j → k < 1024 → j.dst = .reg r → r ≠ 0 →
      s.live (.slot k j.slot) = true →
      let a := Actor.slot k j.slot
      ∃ t, exec (.dividerComplete k id) s = .next t ∧ (t.core k).divs = (s.core k).divs.filter (fun x => x.id != id) ∧
        (t.thrOf a).getG r = j.val ∧ (t.thrOf a).full r = true ∧ (t.thrOf a).seenFull s.now r = false ∧ (t.thrOf a).seenFull (s.now + 1) r = true ∧
        (∀ q, q ≠ r → (t.thrOf a).getG q = (s.thrOf a).getG q ∧ (t.thrOf a).full q = (s.thrOf a).full q) ∧
        (t.thrOf a).csr.fpctl = (s.thrOf a).csr.fpctl ||| wordOf (j.flags * 8) ∧
        (∀ n, n ≠ 0x012 → (t.thrOf a).csr.get n = (s.thrOf a).csr.get n) ∧ (t.thrOf a).pc = (s.thrOf a).pc ∧
        (∀ b, b ≠ a → t.thrOf b = s.thrOf b) ∧ t.mem = s.mem ∧ t.packets = s.packets)

/-- R90, R91: the branches and JAL. A branch goes to its own address plus four times the signed offset modulo 2^53 where its condition
holds, else in sequence; BFULL and BEMPTY test the full bit, or the queue of a mapped register, and never park on it, and their words
need b = 0. JAL and JALR write the link, pc + 4 modulo 2^53, and go to the target; JALR reads its base before the link is written. A
target that fails R89 raises BRANCH_TARGET with the target, and no link is written; one that no TLB maps parks the thread on a walk
(R62). -/
def Obligations.BranchesAndJumps : Prop :=
  (∀ (off : BitVec 12) (a b : Reg),
      Branches (.beq off b a) [a, b] off (fun _ xs => decide (xs.getD 0 0 = xs.getD 1 0)) ∧
      Branches (.bne off b a) [a, b] off (fun _ xs => decide (xs.getD 0 0 ≠ xs.getD 1 0)) ∧
      Branches (.blt off b a) [a, b] off (fun _ xs => decide ((xs.getD 0 0).toInt < (xs.getD 1 0).toInt)) ∧
      Branches (.bge off b a) [a, b] off (fun _ xs => decide ((xs.getD 1 0).toInt ≤ (xs.getD 0 0).toInt)) ∧
      Branches (.bltu off b a) [a, b] off (fun _ xs => decide ((xs.getD 0 0).toNat < (xs.getD 1 0).toNat)) ∧
      Branches (.bgeu off b a) [a, b] off (fun _ xs => decide ((xs.getD 1 0).toNat ≤ (xs.getD 0 0).toNat)) ∧
      Branches (.bfull off a) [] off (fun s _ => match s.thr.mapped a with
        | some i => ((s.core s.curCore).queue i).canPop s.now 1
        | none => s.thr.seenFull s.now a) ∧
      Branches (.bempty off a) [] off (fun s _ => match s.thr.mapped a with
        | some i => !((s.core s.curCore).queue i).canPop s.now 1
        | none => !s.thr.seenFull s.now a)) ∧
  (∀ (s : State) (d : Reg), s.hasRoom 1 →
      let link : Word := BitVec.ofNat 64 ((s.thr.pc.toNat + 4) % 2 ^ 53)
      (∀ off : BitVec 20, s.canIssue [] [d] false →
        s.targetOk s.cur (BitVec.ofInt 53 (s.thr.pc.toNat + 4 * off.toInt)) = true →
        exec (.jal off d) s = .next ((s.putDst d link 3).goesTo (BitVec.ofInt 53 (s.thr.pc.toNat + 4 * off.toInt)) s.thr.loops false)) ∧
      (∀ (imm : BitVec 12) (a : Reg), s.canIssue [a] [d] false →
        s.targetOk s.cur (BitVec.ofInt 53 ((s.operand [a] 0).toNat + imm.toInt)) = true →
        exec (.jalr imm a d) s = .next (((s.opened [a]).putDst d link 3).goesTo
          (BitVec.ofInt 53 ((s.operand [a] 0).toNat + imm.toInt)) s.thr.loops false))) ∧
  ((∀ (off : BitVec 12) (a b : Reg),
      (∀ x ∈ [(Instr.beq off b a, 0), (.bne off b a, 1), (.blt off b a, 2), (.bge off b a, 3), (.bltu off b a, 4), (.bgeu off b a, 5)],
        encodeNat x.1 = some (formB off b a x.2 0x1F)) ∧
      (∀ x ∈ [(Instr.bfull off a, 6), (.bempty off a, 7)], encodeNat x.1 = some (formB off 0 a x.2 0x1F) ∧
        (b ≠ 0 → decodeNat (formB off b a x.2 0x1F) = .error .badField))) ∧
    (∀ (off : BitVec 20) (d : Reg), encodeNat (.jal off d) = some (off.toNat * 2 ^ 12 + d.toNat * 2 ^ 7 + 0x23)) ∧
    (∀ (imm : BitVec 12) (a d : Reg), encodeNat (.jalr imm a d) = some (formI imm.toNat a 0 d 0x27)) ∧
    (∀ (s : State) (d : Reg), s.hasRoom 1 →
      (∀ off : BitVec 20, s.canIssue [] [d] false →
        let target : BitVec 53 := BitVec.ofInt 53 (s.thr.pc.toNat + 4 * off.toInt)
        (s.targetLook s.cur target = .bad → exec (.jal off d) s = .next (s.trapTurn .branchTarget (wordOf target.toNat))) ∧
        (s.targetLook s.cur target = .miss → exec (.jal off d) s = .next (startWalk target.toNat 3 s.parkTurn))) ∧
      (∀ (imm : BitVec 12) (a : Reg), s.canIssue [a] [d] false →
        let target : BitVec 53 := BitVec.ofInt 53 ((s.operand [a] 0).toNat + imm.toInt)
        (s.targetLook s.cur target = .bad → exec (.jalr imm a d) s = .next (s.trapTurn .branchTarget (wordOf target.toNat))) ∧
        (s.targetLook s.cur target = .miss → exec (.jalr imm a d) s = .next (startWalk target.toNat 3 s.parkTurn)))))

/-- R85: where a completed instruction goes. With no level, or away from the end of level 0, to pc + 4; at its end, back to its start with
the index raised while iterations remain, a landing point; else the level is left, and a level outside it that ends there takes its own
step. Completion puts the thread there; YIELD makes it a landing point too. -/
def Obligations.SequencingStepsLoops : Prop :=
  (∀ t : Thread,
      (t.loops = [] → t.seqNext = (t.pc + 4, [], false)) ∧
      (∀ l rest, t.loops = l :: rest →
        (l.stop ≠ t.pc → t.seqNext = (t.pc + 4, l :: rest, false)) ∧
        (l.stop = t.pc → l.index.toNat + 1 < l.count.toNat →
          t.seqNext = (l.start, { l with index := l.index + 1 } :: rest, true)) ∧
        (l.stop = t.pc → l.count.toNat ≤ l.index.toNat + 1 → t.seqNext = ({ t with loops := rest } : Thread).seqNext))) ∧
  (∀ (s : State) (a : Actor) (yields : Bool), let n := (s.thrOf a).seqNext
      let t := s.complete a yields
      (t.thrOf a).pc = n.1 ∧ (t.thrOf a).loops = n.2.1 ∧ (t.thrOf a).landing = (n.2.2 || yields))

/-- R93: LOOP and LOOPI open a level of `n` iterations of the `len` instructions that follow them; a seventh level raises LOOP_FAULT 1, a
count of 2^32 or more LOOP_FAULT 2; a count of 0 skips the body, with the step of R85 where the enclosing level ends at its last
instruction. LOOPI's count is its two fields. R94 to R96: LBRK leaves level 0 and goes to the instruction after its end; LNEXT takes the
step of R85 from its end; LIDX gives the index of a level. Without a level they raise LOOP_FAULT 3, and LIDX of a level at or beyond the
depth LOOP_FAULT 4. R97: YIELD sets THR_LIVETILE, and its completion is a landing point. The words of LBRK and LNEXT are those the spec
gives. -/
def Obligations.LoopInstructionResults : Prop :=
  (∀ (s : State) (len : BitVec 12) (i : Instr) (srcs : List Reg) (n : Nat),
      ((∃ a, i = .loop len a ∧ srcs = [a] ∧ n = (s.operand [a] 0).toNat) ∨ (∃ c : BitVec 10, i = .loopi len c ∧ srcs = [] ∧ n = c.toNat)) →
      s.canIssue srcs [] false → s.hasRoom 0 →
      let last : BitVec 53 := s.thr.pc + BitVec.ofNat 53 (4 * len.toNat)
      (2 ^ 32 ≤ n → exec i s = .next (s.trapTurn .loopFault 2)) ∧
      (0 < n → n < 2 ^ 32 → s.thr.loops.length = 6 → exec i s = .next (s.trapTurn .loopFault 1)) ∧
      (0 < n → n < 2 ^ 32 → s.thr.loops.length ≠ 6 → (s.stepChecked = true → s.targetOk s.cur (s.thr.pc + 4) = true) →
        exec i s = .next ((s.opened srcs).goesTo (s.thr.pc + 4)
          ({ count := BitVec.ofNat 32 n, index := 0, start := s.thr.pc + 4, stop := last } :: s.thr.loops) false)) ∧
      (n = 0 → (∀ l rest, s.thr.loops = l :: rest → l.stop ≠ last) → s.targetOk s.cur (last + 4) = true →
        exec i s = .next ((s.opened srcs).goesTo (last + 4) s.thr.loops false)) ∧
      (n = 0 → ∀ l rest, s.thr.loops = l :: rest → l.stop = last →
        let q := ({ s.thr with pc := last } : Thread).seqNext
        (q.2.2 = false → s.targetOk s.cur q.1 = true) → exec i s = .next ((s.opened srcs).goesTo q.1 q.2.1 q.2.2))) ∧
  (∀ s : State, s.canIssue [] [] false → s.hasRoom 0 →
      (s.thr.loops = [] → exec .lbrk s = .next (s.trapTurn .loopFault 3) ∧ exec .lnext s = .next (s.trapTurn .loopFault 3)) ∧
      (∀ l rest, s.thr.loops = l :: rest → s.targetOk s.cur (l.stop + 4) = true → (∀ m r, rest = m :: r → m.stop ≠ l.stop) →
        exec .lbrk s = .next (s.goesTo (l.stop + 4) rest false)) ∧
      (∀ l m r, s.thr.loops = l :: m :: r → s.targetOk s.cur (l.stop + 4) = true → m.stop = l.stop →
        let q := ({ s.thr with pc := l.stop, loops := m :: r } : Thread).seqNext
        (q.2.2 = false → s.targetOk s.cur q.1 = true) → exec .lbrk s = .next (s.goesTo q.1 q.2.1 q.2.2)) ∧
      (∀ l rest, s.thr.loops = l :: rest → s.targetLook s.cur (l.stop + 4) = .bad →
        exec .lbrk s = .next (s.trapTurn .branchTarget (wordOf (l.stop + 4).toNat))) ∧
      (∀ l rest, s.thr.loops = l :: rest →
        let q := ({ s.thr with pc := l.stop } : Thread).seqNext
        (q.2.2 = false → s.targetOk s.cur q.1 = true) → exec .lnext s = .next (s.goesTo q.1 q.2.1 q.2.2)) ∧
      (∀ (level : BitVec 3) (d : Reg), s.canIssue [] [d] false → s.nextOk → s.hasRoom 1 →
        (∀ l, s.thr.loops[level.toNat]? = some l → exec (.lidx level d) s = .next (s.writes [] d (l.index.setWidth 64))) ∧
        (s.thr.loops.length ≤ level.toNat → exec (.lidx level d) s = .next (s.trapTurn .loopFault 4))) ∧
      (∀ mask : BitVec 8, s.nextOk → s.hasRoom 1 →
        ∃ t, exec (.yield mask) s = .next t ∧ t.thr.csr.livetile = mask.setWidth 64 ∧ t.thr.landing = true ∧
          t.thr.pc = s.thr.seqNext.1 ∧ (∀ r, t.thr.getG r = s.thr.getG r) ∧ t.mem = s.mem)) ∧
  (encodeNat .lbrk = some 0x0000202B ∧ encodeNat .lnext = some 0x0000302B)

/-- R106 to R108, PTR: PADD, PADDI and PSUB move the address field by an exact integer and raise POINTER_FAULT, with the pointer and nothing
written, where it would leave 0 to 2^53 − 1; PSETF, PSETP and PGETF set and read the upper fields; PCHK answers with the first code of
its table that matches. R108: the codes of PCHK, in the order of its table. `n` is b[52:0]; the bounds of the paths are those of R100.
The words of R106 and R107. -/
def Obligations.PointerInstructionResults : Prop :=
  (∀ (a b d : Reg),
      (∀ (s : State) (i : Instr) (srcs : List Reg) (off : Int),
        ((i = .padd b a d ∧ srcs = [a, b] ∧ off = (s.operand [a, b] 1).toInt) ∨
          (∃ imm : BitVec 12, i = .paddi imm a d ∧ srcs = [a] ∧ off = imm.toInt) ∨
          (i = .psub b a d ∧ srcs = [a, b] ∧ off = -(s.operand [a, b] 1).toInt)) →
        s.canIssue srcs [d] false → s.nextOk → s.hasRoom 1 →
        let p := s.operand srcs 0
        let t := ((p.toNat % 2 ^ 53 : Nat) : Int) + off
        (0 ≤ t → t < 2 ^ 53 → exec i s = .next (s.writes srcs d (BitVec.ofNat 64 (p.toNat / 2 ^ 53 * 2 ^ 53 + t.toNat)))) ∧
        (t < 0 ∨ 2 ^ 53 ≤ t → exec i s = .next (s.trapTurn .pointerFault p))) ∧
      (∀ (l : BitVec 3) (f : BitVec 5),
        Gives1 (.psetf l f a d) a d (fun p => p.extractLsb' 61 3 ++ f ++ l ++ p.extractLsb' 0 53)) ∧
      (∀ path : BitVec 3, Gives1 (.psetp path a d) a d (fun p => path ++ p.extractLsb' 0 61)) ∧
      Gives1 (.pgetf a d) a d (fun p => (p.extractLsb' 61 3 ++ p.extractLsb' 53 3 ++ p.extractLsb' 56 5 : BitVec 11).setWidth 64) ∧
      Gives (.pchk b a d) [a, b] d (fun s xs => wordOf (pchkCode (s.privilege s.cur == 0) (xs.getD 0 0) (xs.getD 1 0)))) ∧
  (∀ (user : Bool) (p b : Word),
      let path := p.toNat / 2 ^ 61
      let fmt := p.toNat / 2 ^ 56 % 32
      let l := p.toNat / 2 ^ 53 % 8
      let addr := p.toNat % 2 ^ 53
      let n := b.toNat % 2 ^ 53
      let w := b.getLsbD 63
      let v := b.getLsbD 62
      let dirty := (path = 2 ∧ 2 ^ 19 ≤ addr) ∨ (path = 3 ∧ addr / 2 ^ 19 % 2 ^ 14 ≠ 0) ∨ (path = 4 ∧ 2 ^ 33 ≤ addr)
      let beyond := (path = 2 ∧ 2 ^ 19 < addr % 2 ^ 19 + n) ∨ (path = 3 ∧ 2 ^ 19 < addr % 2 ^ 19 + n) ∨
        (path = 4 ∧ 2 ^ 27 < addr % 2 ^ 27 + n) ∨ (path ≠ 2 ∧ path ≠ 3 ∧ path ≠ 4 ∧ 2 ^ 53 < addr + n)
      let badL := (fmt = 14 ∧ l ≠ 0) ∨ ((fmt = 15 ∨ fmt = 16) ∧ 6 ≤ l)
      pchkCode user p b =
        if path = 5 ∨ path = 6 then 1
        else if 19 ≤ fmt then 2
        else if badL then 3
        else if dirty then 4
        else if beyond then 5
        else if path = 7 ∧ user = true then 6
        else if w = true ∧ path = 1 then 7
        else if v = true ∧ fmt = 17 then 8
        else 0) ∧
  (∀ (a b d : Reg),
      encodeNat (.padd b a d) = some (formK 0 b a 0 d 0x2F) ∧ encodeNat (.psub b a d) = some (formK 0 b a 2 d 0x2F) ∧
      encodeNat (.pgetf a d) = some (formK 0 0 a 5 d 0x2F) ∧ encodeNat (.pchk b a d) = some (formK 0 b a 6 d 0x2F) ∧
      (∀ imm : BitVec 12, encodeNat (.paddi imm a d) = some (formI imm.toNat a 1 d 0x2F)) ∧
      (∀ (l : BitVec 3) (f : BitVec 5), encodeNat (.psetf l f a d) = some (formI (f.toNat + 32 * l.toNat) a 3 d 0x2F)) ∧
      (∀ path : BitVec 3, encodeNat (.psetp path a d) = some (formI path.toNat a 4 d 0x2F)))

/-- R133, R134: FNEG, FABS and FSGN act on the sign bit alone and raise no flag; the compares give 1 or 0, 0 with a NaN, and raise NV for a
signalling NaN, FLT and FLE for any NaN; FCLS gives the class mask. -/
def Obligations.FloatSignAndCompareResults : Prop :=
  ∀ (a b d : Reg) (fmt : BitVec 2),
    let f := fpuFmt fmt
    let low := fun (x : Word) => x.toNat % 2 ^ f.width
    let top := 2 ^ (f.width - 1)
    let v := fun (x : Word) => f.unpack (low x)
    let nv := fun (any : Bool) (xs : List Word) =>
      if (v (xs.getD 0 0)).isSNaN || (v (xs.getD 1 0)).isSNaN || (any && ((v (xs.getD 0 0)).isNaN || (v (xs.getD 1 0)).isNaN)) then flagNV else 0
    GivesFlags (.fneg a fmt d) [a] d (fun _ xs => (BitVec.ofNat 64 ((low (xs.getD 0 0) + top) % (2 * top)), 0)) ∧
    GivesFlags (.fabs a fmt d) [a] d (fun _ xs => (BitVec.ofNat 64 (low (xs.getD 0 0) % top), 0)) ∧
    GivesFlags (.fsgn b a fmt d) [a, b] d (fun _ xs =>
      (BitVec.ofNat 64 (low (xs.getD 0 0) % top + low (xs.getD 1 0) / top * top), 0)) ∧
    GivesFlags (.feq b a fmt d) [a, b] d (fun _ xs =>
      (if fCmp (v (xs.getD 0 0)) (v (xs.getD 1 0)) = some .eq then 1 else 0, nv false xs)) ∧
    GivesFlags (.flt b a fmt d) [a, b] d (fun _ xs =>
      (if fCmp (v (xs.getD 0 0)) (v (xs.getD 1 0)) = some .lt then 1 else 0, nv true xs)) ∧
    GivesFlags (.fle b a fmt d) [a, b] d (fun _ xs =>
      (if fCmp (v (xs.getD 0 0)) (v (xs.getD 1 0)) = some .lt ∨ fCmp (v (xs.getD 0 0)) (v (xs.getD 1 0)) = some .eq then 1 else 0,
        nv true xs)) ∧
    GivesFlags (.fcls a fmt d) [a] d (fun _ xs => (BitVec.ofNat 64 (fClass f (low (xs.getD 0 0))), 0))

/-- From R128 to R132: the arithmetic of the scalar FPU completes. Each source is the low bits of its register; the exact result is rounded
once by RM and written zero-extended, the special cases are those of R131 and R132, and the flags are ORed into THR_FPCTL. FDIV and FSQRT
take a divider, and their results land later (R129). R127, R135, R136: the conversions. A rounding code of 0 takes RM; an integer result
is rounded first and held to its range; FCVTFF with code 6 rounds stochastically and steps SRSEED once, parking while a vector instruction
that steps it is not confirmed. RoundingTakesNeighbour says what a rounding answers. -/
def Obligations.FloatArithmeticResults : Prop :=
  (∀ (a b d : Reg) (fmt : BitVec 2),
      let f := fpuFmt fmt
      let low := fun (xs : List Word) (i : Nat) => (xs.getD i 0).toNat % 2 ^ f.width
      let v := fun (xs : List Word) (i : Nat) => f.unpack (low xs i)
      let word := fun (P : Nat × Nat → Prop) (r : Word × Nat) => ∃ q, P q ∧ r = (BitVec.ofNat 64 q.1, q.2)
      GivesFloat (.fadd b a fmt d) [a, b] d (fun t xs => word (AddsTo f t.rm (v xs 0) (v xs 1))) ∧
      GivesFloat (.fsub b a fmt d) [a, b] d (fun t xs => word (AddsTo f t.rm (v xs 0) (v xs 1).neg)) ∧
      GivesFloat (.fmul b a fmt d) [a, b] d (fun t xs => word (MultipliesTo f t.rm (v xs 0) (v xs 1))) ∧
      GivesFloat (.fma b a fmt d) [a, b, d] d (fun t xs => word (FusesTo f t.rm (v xs 0) (v xs 1) (v xs 2))) ∧
      GivesFloat (.fmin b a fmt d) [a, b] d (fun _ xs => word (MinMaxTo f false (low xs 0) (low xs 1))) ∧
      GivesFloat (.fmax b a fmt d) [a, b] d (fun _ xs => word (MinMaxTo f true (low xs 0) (low xs 1))) ∧
      DividesFloat (.fdiv b a fmt d) [a, b] d (fun t xs => word (DividesTo f t.rm (v xs 0) (v xs 1))) ∧
      DividesFloat (.fsqrt a fmt d) [a] d (fun t xs => word (RootsTo f t.rm (v xs 0)))) ∧
  (∀ (c : BitVec 5) (a d : Reg) (fmt : BitVec 2),
      let f := fpuFmt fmt
      let g := fpuFmt (c.setWidth 2)
      let v := fun (x : Word) => f.unpack (x.toNat % 2 ^ f.width)
      let mode := fun (t : Thread) => if c.toNat / 4 = 0 then t.rm else c.toNat / 4
      let w : Nat := if c.getLsbD 1 then 32 else 64
      let lo : Int := if c.getLsbD 0 then 0 else -(2 ^ (w - 1))
      let hi : Int := if c.getLsbD 0 then 2 ^ w - 1 else 2 ^ (w - 1) - 1
      GivesFloat (.fcvti c a fmt d) [a] d (fun t xs r =>
        ((v (xs.getD 0 0)).isNaN = true → r = (0, flagNV)) ∧
        (∀ n, v (xs.getD 0 0) = .inf n → r = (BitVec.ofInt 64 (if n then lo else hi), flagNV)) ∧
        (∀ n m e, v (xs.getD 0 0) = .num n m e →
          let q := roundAt (.mode (mode t)) n m e 0 false
          let x := signed n q.1
          r = if x < lo then (BitVec.ofInt 64 lo, flagNV) else if hi < x then (BitVec.ofInt 64 hi, flagNV)
            else (BitVec.ofInt 64 x, if q.2 then flagNX else 0))) ∧
      GivesFloat (.fcvtf c a fmt d) [a] d (fun t xs r =>
        let x := (xs.getD 0 0).toNat % 2 ^ w
        let n : Int := if c.getLsbD 0 = false ∧ 2 ^ (w - 1) ≤ x then (x : Int) - 2 ^ w else x
        ∃ q, q = f.once (mode t) n 0 false ∧ r = (BitVec.ofNat 64 q.1, q.2)) ∧
      (c.toNat / 4 ≠ 6 → GivesFloat (.fcvtff c a fmt d) [a] d (fun t xs r =>
        ∃ q, ConvertsTo g (.mode (mode t)) (v (xs.getD 0 0)) q ∧ r = (BitVec.ofNat 64 q.1, q.2))) ∧
      (c.toNat / 4 = 6 → ∀ s : State, s.canIssue [a] [d] false → s.nextOk → s.hasRoom 2 →
        (s.thr.srPending = true → exec (.fcvtff c a fmt d) s = .next s.parkTurn) ∧
        (s.thr.srPending = false →
          let seed := galois s.thr.srseed
          ∃ q, ConvertsTo g (.sr (seed.toNat / 65536)) (v (s.operand [a] 0)) q ∧
            exec (.fcvtff c a fmt d) s = .next ((((s.opened [a]).setThr
              (s.thr.setCsr 0x012 (withSeed s.thr.csr.fpctl seed ||| BitVec.ofNat 64 (q.2 * 8)))).putDst d (BitVec.ofNat 64 q.1) 10).complete
                s.cur))))

/-- From R120: rounding to a whole number of units 2^q. Every mode answers with the value itself where it is a whole number of units, else
with one of the two multiples beside it, and says that it was inexact; RTZ takes the nearer to zero, and RNE, a tie apart, the nearer
one. R120 to R122, rounding to a format: the bits name the rounded multiple of the unit in the last place, the least subnormal's at
least, NX says that it was inexact, and a number beyond the format's range becomes the infinity or the largest finite value by the mode,
with OF and NX. -/
def Obligations.RoundingTakesNeighbour : Prop :=
  (∀ (mode : Nat) (neg : Bool) (m sh : Nat), 1 ≤ mode → mode ≤ 5 →
    let r := roundAt (.mode mode) neg m (-(sh : Int)) 0 false
    (2 ^ sh ∣ m → r = (m / 2 ^ sh, false)) ∧
    (¬ 2 ^ sh ∣ m → (r.1 = m / 2 ^ sh ∨ r.1 = m / 2 ^ sh + 1) ∧ r.2 = true) ∧
    (mode = 2 → r.1 = m / 2 ^ sh) ∧
    (mode = 1 → 2 * (m % 2 ^ sh) < 2 ^ sh → r.1 = m / 2 ^ sh) ∧
    (mode = 1 → 2 ^ sh < 2 * (m % 2 ^ sh) → r.1 = m / 2 ^ sh + 1) ∧
    (mode = 1 → 2 * (m % 2 ^ sh) = 2 ^ sh → 2 ∣ r.1)) ∧
  (∀ (fmt : BitVec 2) (mode : Nat) (neg : Bool) (m : Nat) (e : Int) (sticky : Bool), 1 ≤ mode → mode ≤ 5 → m ≠ 0 →
    let f := fpuFmt fmt
    let r := f.round (.mode mode) neg m e sticky
    let top : Int := (Nat.log2 m : Int) + e
    let q := max top (1 - (f.bias : Int)) - f.fw
    let n := roundAt (.mode mode) neg m e q sticky
    (top < f.bias → (∃ m' e', f.unpack r.1 = .num neg m' e' ∧ (m' : ℚ) * 2 ^ e' = (n.1 : ℚ) * 2 ^ q) ∧
      (r.2 % 2 = 1 ↔ n.2 = true) ∧ r.2 / 4 = 0) ∧
    ((f.bias : Int) < top → r.2 = flagOF + flagNX ∧
      r.1 = f.pack neg (if mode = 2 ∨ mode = 3 ∧ neg = false ∨ mode = 4 ∧ neg = true then f.maxBits else f.inf)))

/-- From R101, R138: a load or a store whose pointer fails a check raises the cause of that check, and does nothing else. R138: the pointer
of an access. The base's address field moves by the signed offset without wrapping, the path and format stay, and the offset that R100
gives for the path must be a multiple of the access size; on the GEN path that is all. -/
def Obligations.AccessPointerChecks : Prop :=
  (∀ (s : State) (imm : BitVec 12) (a b : Reg) (c : Cause) (v : Word),
      (∀ x ∈ loads imm a b, s.canIssue [a] [b] false → s.formPtr (s.operand [a] 0) imm.toInt x.2.1 false = .error (c, v) →
        exec x.1 s = .next (s.trapTurn c v)) ∧
      (∀ x ∈ stores imm b a, s.canIssue [a, b] [] true → s.formPtr (s.operand [a, b] 0) imm.toInt x.2 true = .error (c, v) →
        exec x.1 s = .next (s.trapTurn c v))) ∧
  (∀ (s : State) (base : Word) (imm : Int) (n : Nat) (writes : Bool),
      let ea := ((base.toNat % 2 ^ 53 : Nat) : Int) + imm
      let p : Word := BitVec.ofNat 64 (base.toNat / 2 ^ 53 * 2 ^ 53 + ea.toNat)
      (ea < 0 ∨ 2 ^ 53 ≤ ea → s.formPtr base imm n writes = .error (.pointerFault, base)) ∧
      (0 ≤ ea → ea < 2 ^ 53 → base.toNat / 2 ^ 61 = 0 → 0 < n →
        s.formPtr base imm n writes = if ea.toNat % n = 0 then .ok p else .error (.pointerFault, p)))

/-- From R137, R144, R153 to R155: scalar loads of the crew's scratchpad. Inside the crew's rows the value is read at issue and lands eight
F-cycles later; outside them it is 0, and THR_OORFLAG and THR_OORADDR note the pointer. R144, R147 to R151, R167: scalar loads through GEN
and RO. A translation that no TLB holds parks the thread on a walk; a leaf that denies the read parks it on a fault record; a hit in the
L1, with nothing of the thread before it, lands twelve F-cycles later; any other load leaves with its physical address once a miss
register is free, for its home pier on a SYNC or CA 2 page, else for the cluster cache that has it or its pier slice, and parks before.
R143, R158, R161, R162: scalar loads through VLT and IOR. A vault access needs a grant of the context, and one without it raises
VAULT_FAULT; an IOR access is a doubleword. Each leaves once a miss register is free. R67: the destination is pending. R411: a load of
poisoned words is their consumption. -/
def Obligations.ScalarLoadResults : Prop :=
  (∀ (s : State) (imm : BitVec 12) (a d : Reg) (k i : Nat) (ptr : Word), ∀ x ∈ loads imm a d,
      s.cur = .slot k i → s.canIssue [a] [d] false → s.nextOk → s.hasRoom 3 → s.thr.vecStoresOut = false →
      s.formPtr (s.operand [a] 0) imm.toInt x.2.1 false = .ok ptr →
      let path := ptr.toNat / 2 ^ 61
      let n := x.2.1
      let w := ((s.opened [a]).awaitDst d).1
      let waits := fun (t : State) => exec x.1 s = .next t ∧ s.goesOnly t ∧ (s.thr.mapped d = none → d ≠ 0 → t.thr.isPending d = true)
      (path = 2 →
        (∀ o, (s.crewOf k i).phys (ptr.toNat % 2 ^ 19) = some o → s.poisoned 1 k o n = false →
          ∃ t, waits t ∧ t.thr.csr = s.thr.csr ∧ s.sendsOne t .local k (some (s.now + 8))
            (.load w ptr n x.2.2 none false (some (loaded x.2.2 n ((s.core k).spad.readLE o n))))) ∧
        (∀ o, (s.crewOf k i).phys (ptr.toNat % 2 ^ 19) = some o → s.poisoned 1 k o n = true →
          exec x.1 s = .next (s.consumePoison s.cur ptr)) ∧
        ((s.crewOf k i).phys (ptr.toNat % 2 ^ 19) = none →
          ∃ t, waits t ∧ t.thr.csr = (s.thr.noteOor ptr).csr ∧
            s.sendsOne t .local k (some (s.now + 8)) (.load w ptr n x.2.2 none false (some 0)))) ∧
      (path ≤ 1 →
        let ro := decide (path = 1)
        let va := ptr.toNat % 2 ^ 53
        (s.tlbLookup k s.thr.ctx va = none → exec x.1 s = .next (startWalk va 0 s.parkTurn)) ∧
        (∀ e, s.tlbLookup k s.thr.ctx va = some e → leafR e.leaf = false →
          exec x.1 s = .next (s.parkTurn.dataFault s.cur s.thr.ctx va 2 (if e.shift = 30 then 1 else if e.shift = 21 then 2 else 3)
            (if e.shift = 16 then 0 else if e.shift = 21 then 1 else 2) 1 0)) ∧
        (∀ e, s.tlbLookup k s.thr.ctx va = some e → leafR e.leaf = true →
          let pa := leafPa e.leaf e.shift va
          let ca := if leafCA e.leaf = 0 && !s.canAlloc 0 k (pa / 256) then 1 else leafCA e.leaf
          let acc : PAccess := { pa := pa, n := n, region := leafRegion e.leaf, sync := leafSync e.leaf, ca := ca }
          let direct := leafSync e.leaf = true ∨ leafCA e.leaf = 2
          let hit := leafSync e.leaf = false ∧ leafCA e.leaf = 0 ∧ s.l1Hit k pa n ro = true ∧ s.clearFor s.cur acc.place = true
          let free := s.missFree k (if leafSync e.leaf = false ∧ ca = 0 then .line (pa / 256) else .own)
          let near := s.hitAt 1 (k / 16) pa n ro
          (hit → s.poisoned 3 k pa n = false → ∃ t, waits t ∧ s.sendsOne t .local k (some (s.now + 12))
            (.load w ptr n x.2.2 none ro (some (loaded x.2.2 n (s.readSector 0 k pa n))))) ∧
          (hit → s.poisoned 3 k pa n = true → exec x.1 s = .next (s.consumePoison s.cur ptr)) ∧
          (¬ hit → free = false → exec x.1 s = .next s.parkTurn) ∧
          (¬ hit → free = true → direct → ∃ t, waits t ∧
            s.sendsOne t .req (pierPort s k (s.homeDie pa) pa) none (.load w ptr n x.2.2 (some acc) ro none)) ∧
          (¬ hit → free = true → ¬ direct → ∃ t, waits t ∧
            s.sendsOne t (if near then .local else .req) (if near then k else pierPort s k (k / 256) pa) none
              (.load w ptr n x.2.2 (some acc) ro none)))) ∧
      (path = 4 → s.vaultGrant s.thr.ctx ptr n false = false → exec x.1 s = .next (s.trapTurn .vaultFault ptr)) ∧
      (path = 4 → s.vaultGrant s.thr.ctx ptr n false = true → s.missFree k .own = true → ∃ t, waits t ∧
        s.sendsOne t (vaultPort k (vaultOf ptr)).1 (vaultPort k (vaultOf ptr)).2 none (.load w ptr n x.2.2 none false none)) ∧
      (path = 4 → s.vaultGrant s.thr.ctx ptr n false = true → s.missFree k .own = false → exec x.1 s = .next s.parkTurn) ∧
      (path = 7 → s.thr.runAhead = false → n ≠ 8 → exec x.1 s = .next (s.trapTurn .pointerFault ptr)) ∧
      (path = 7 → s.thr.runAhead = false → n = 8 → s.missFree k .own = true → ∃ t, waits t ∧ t.thr.csr = s.thr.csr ∧
        s.sendsOne t .req hubPort none (.load w ptr 8 false none false none)))

/-- From R139, R147, R150, R161: LOAD_REPLY. A load whose value is known lands it; one of a SYNC or CA 2 page that has come back reads HBM4
at its home, and one of a vault the vault's bytes, when it is performed; its packet is gone. A request at its port is answered on RSP
(R270). R62, R67, R68, R71: where a result lands. In a register it is written and set full, which turns see from the next F-cycle on; in a
queue it becomes the value of the entry that was reserved for it; g0 takes nothing. No other register of the thread, no other thread and
no memory changes. -/
def Obligations.LandingWritesDestination : Prop :=
  (∀ (s : State) (id : Nat) (p : Packet) (a : Actor) (dst : Dest) (ptr : Word) (n : Nat) (signed ro : Bool),
      s.packet? id = some p → p.owner = some a → p.vseq = none → p.net ≠ .req → s.loadDue p = true → s.flawed = [] →
      (∀ acc v, p.body = .load dst ptr n signed acc ro (some v) → exec (.loadReply id) s = .next ((s.dropPacket id).land a dst v)) ∧
      (∀ acc, p.body = .load dst ptr n signed (some acc) ro none → (acc.sync = true ∨ acc.ca = 2) → s.poisoned 0 0 acc.pa n = false →
        exec (.loadReply id) s = .next ((s.dropPacket id).land a dst (loaded signed n (s.mem.readLE acc.pa n)))) ∧
      (p.body = .load dst ptr n signed none ro none → ptr.toNat / 2 ^ 61 = 4 → s.poisoned 2 (vaultOf ptr) (ptr.toNat % 2 ^ 27) n = false →
        exec (.loadReply id) s = .next ((s.dropPacket id).land a dst
          (loaded signed n ((Tab.get [] s.vaults (vaultOf ptr) : Memory).readLE (ptr.toNat % 2 ^ 27) n))))) ∧
  (∀ (s : State) (id : Nat) (p : Packet) (dst : Dest) (ptr : Word) (n : Nat) (signed ro : Bool) (acc : Option PAccess) (v : Option Word),
      s.packet? id = some p → p.body = .load dst ptr n signed acc ro v → p.net = .req →
      exec (.loadReply id) s = .next (if s.ready p then s.reply p .rsp p.body else s)) ∧
  (∀ (s : State) (a : Actor) (v : Word),
      s.land a .none v = s ∧
      (∀ r t, r ≠ 0 → t = s.land a (.reg r) v →
        (t.thrOf a).getG r = v ∧ (t.thrOf a).full r = true ∧ (t.thrOf a).seenFull s.now r = false ∧
        (∀ n, n ≠ s.now → (t.thrOf a).seenFull n r = true) ∧
        (∀ q, q ≠ r → (t.thrOf a).getG q = (s.thrOf a).getG q ∧ (t.thrOf a).full q = (s.thrOf a).full q ∧
          (t.thrOf a).seenFull s.now q = (s.thrOf a).seenFull s.now q) ∧
        (t.thrOf a).csr = (s.thrOf a).csr ∧ (t.thrOf a).pc = (s.thrOf a).pc ∧ t.mem = s.mem ∧ t.vaults = s.vaults ∧
        (∀ b, b ≠ a → t.thrOf b = s.thrOf b)) ∧
      (∀ t, t = s.land a (.reg 0) v → t.mem = s.mem ∧ (∀ b r, (t.thrOf b).getG r = (s.thrOf b).getG r ∧ (t.thrOf b).full r = (s.thrOf b).full r)) ∧
      (∀ i tag t, t = s.land a (.queue i tag) v →
        ((t.core a.core).queue i).ents = ((s.core a.core).queue i).ents.map (fun e => if e.tag = tag then { e with val := some (v, s.now) } else e) ∧
        (∀ j, j ≠ i → (t.core a.core).queue j = (s.core a.core).queue j) ∧ t.mem = s.mem ∧ (∀ b, t.thrOf b = s.thrOf b)))

/-- From R137, R140, R153, R155: scalar stores to the crew's scratchpad. The low bytes of the operand stand at the offset, least significant
first, every other byte of every scratchpad and memory is as before, and no register changes; outside the crew's rows nothing is stored,
and THR_OORFLAG and THR_OORADDR note the pointer. R140, R147, R150, R162, R143: scalar stores on the other paths. A store to a SYNC or
CA 2 page leaves for its home pier with its physical address and bytes, one through VLT for its vault if the context has a grant, one
through IOR for the hub. A cached one is written in the cache; a narrow one whose word is not there fetches its line first, once a miss
register is free, and one behind an access of its thread to the same bytes follows it. In a line the L1 holds it writes its bytes and
marks their words dirty, and memory is as before. R150, R162: HOME_PIER_STORE. A store that has reached its home, with nothing of its
thread to be performed before it, writes its bytes there, and only there. -/
def Obligations.ScalarStoreResults : Prop :=
  (∀ (s : State) (imm : BitVec 12) (a b : Reg) (k i : Nat) (ptr : Word), ∀ x ∈ stores imm b a,
      s.cur = .slot k i → s.canIssue [a, b] [] true → s.nextOk → s.hasRoom 2 → s.thr.vecAccessesOut = false →
      s.formPtr (s.operand [a, b] 0) imm.toInt x.2 true = .ok ptr → ptr.toNat / 2 ^ 61 = 2 →
      (∀ o, (s.crewOf k i).phys (ptr.toNat % 2 ^ 19) = some o →
        ∃ t, exec x.1 s = .next t ∧
          (∀ j, j < x.2 → (t.core k).spad.byte (o + j) = BitVec.ofNat 8 ((s.operand [a, b] 1).toNat / 256 ^ j)) ∧
          (∀ p, p < o ∨ o + x.2 ≤ p → (t.core k).spad.byte p = (s.core k).spad.byte p) ∧
          (∀ c, c ≠ k → (t.core c).spad = (s.core c).spad) ∧ t.mem = s.mem ∧ t.vaults = s.vaults ∧
          (∀ r, t.thr.getG r = s.thr.getG r) ∧ t.thr.csr = s.thr.csr ∧ t.thr.pc = s.thr.seqNext.1 ∧ t.cur = s.cur) ∧
      ((s.crewOf k i).phys (ptr.toNat % 2 ^ 19) = none →
        exec x.1 s = .next (((s.opened [a, b]).setThr (s.thr.noteOor ptr)).complete s.cur))) ∧
  (∀ (s : State) (imm : BitVec 12) (a b : Reg) (k i : Nat) (ptr : Word), ∀ x ∈ stores imm b a,
      s.cur = .slot k i → s.canIssue [a, b] [] true → s.nextOk → s.hasRoom 2 → s.thr.vecAccessesOut = false →
      s.formPtr (s.operand [a, b] 0) imm.toInt x.2 true = .ok ptr →
      let n := x.2
      let v := (s.operand [a, b] 1).toNat % 2 ^ (8 * n)
      let va := ptr.toNat % 2 ^ 53
      (ptr.toNat / 2 ^ 61 = 0 → s.tlbLookup k s.thr.ctx va = none → exec x.1 s = .next (startWalk va 1 s.parkTurn)) ∧
      (∀ e, ptr.toNat / 2 ^ 61 = 0 → s.tlbLookup k s.thr.ctx va = some e → s.allows e.leaf e.shift va 1 = false →
        exec x.1 s = .next (s.parkTurn.dataFault s.cur s.thr.ctx va 2 (if e.shift = 30 then 1 else if e.shift = 21 then 2 else 3)
          (if e.shift = 16 then 0 else if e.shift = 21 then 1 else 2) 2 0)) ∧
      (∀ e, ptr.toNat / 2 ^ 61 = 0 → s.tlbLookup k s.thr.ctx va = some e → s.allows e.leaf e.shift va 1 = true →
        let pa := leafPa e.leaf e.shift va
        let acc : PAccess := { pa := pa, n := n, region := leafRegion e.leaf, sync := leafSync e.leaf, ca := leafCA e.leaf }
        ((leafSync e.leaf = true ∨ leafCA e.leaf = 2) →
          ∃ t, exec x.1 s = .next t ∧ s.goesOnly t ∧ s.sendsOne t .req (pierPort s k (s.homeDie pa) pa) none (.store acc v)) ∧
        (leafSync e.leaf = false → leafCA e.leaf ≠ 2 →
          let level := if leafCA e.leaf = 0 && s.canAlloc 0 k (pa / 256) then 0 else 1
          let hit := (s.sectorAt level (if level = 0 then k else k / 16) (pa / 256) (pa / 128 % 2)).hit (pa % 128) n
          let near := s.hitAt 1 (k / 16) pa n false
          let free := s.missFree k (if level = 0 then .line (pa / 256) else .own)
          let clear := s.clearFor s.cur (.cached pa n)
          (n < 4 → hit = false → free = false → exec x.1 s = .next s.parkTurn) ∧
          (n < 4 → hit = false → free = true → ∃ t, exec x.1 s = .next t ∧ s.goesOnly t ∧
            s.sendsOne t (if near then .local else .req) (if near then k else pierPort s k (k / 256) pa) none
              (.fetch { acc with ca := level } false (some v))) ∧
          (4 ≤ n ∨ hit = true → clear = false → ∃ t, exec x.1 s = .next t ∧ s.goesOnly t ∧
            s.sendsOne t .local k none (.fetch { acc with ca := level } false (some v))) ∧
          (4 ≤ n ∨ hit = true → clear = true → ∃ t, exec x.1 s = .next t ∧ s.goesOn t ∧
            t = ((s.opened [a, b]).cachedStore k pa n v (leafCA e.leaf) (leafRegion e.leaf) s.thr.ctx).complete s.cur) ∧
          (leafCA e.leaf = 0 → 4 ≤ n ∨ hit = true → clear = true → (∃ l, findLine (s.core k).l1 (pa / 256) = some l ∧ l.ro = false) →
            ∃ t, exec x.1 s = .next t ∧ t.mem = s.mem ∧ t.vaults = s.vaults ∧
              (t.sectorAt 0 k (pa / 256) (pa / 128 % 2)).data = (s.sectorAt 0 k (pa / 256) (pa / 128 % 2)).data.writeLE (pa % 128) n v ∧
              (t.sectorAt 0 k (pa / 256) (pa / 128 % 2)).dirty =
                (s.sectorAt 0 k (pa / 256) (pa / 128 % 2)).dirty ||| wordMask (pa % 128) n))) ∧
      (ptr.toNat / 2 ^ 61 = 4 → s.vaultGrant s.thr.ctx ptr n true = false → exec x.1 s = .next (s.trapTurn .vaultFault ptr)) ∧
      (ptr.toNat / 2 ^ 61 = 4 → s.vaultGrant s.thr.ctx ptr n true = true → ∃ t, exec x.1 s = .next t ∧ s.goesOnly t ∧
        s.sendsOne t (vaultPort k (vaultOf ptr)).1 (vaultPort k (vaultOf ptr)).2 none (.pstore ptr n v)) ∧
      (ptr.toNat / 2 ^ 61 = 7 → n ≠ 8 → exec x.1 s = .next (s.trapTurn .pointerFault ptr)) ∧
      (ptr.toNat / 2 ^ 61 = 7 → n = 8 → (2 ≤ s.privilege s.cur ∨ iorSystem va = false) →
        ∃ t, exec x.1 s = .next t ∧ s.goesOnly t ∧ s.sendsOne t .req hubPort none (.pstore ptr 8 v))) ∧
  (∀ (s : State) (id : Nat) (p : Packet), s.arrived? id = some p → s.orderClear p = true →
      (∀ acc v, p.body = .store acc v → ∃ t, exec (.homePierStore id) s = .next t ∧
        (∀ j, j < acc.n → t.mem.byte (acc.pa + j) = BitVec.ofNat 8 (v / 256 ^ j)) ∧
        (∀ x, x < acc.pa ∨ acc.pa + acc.n ≤ x → t.mem.byte x = s.mem.byte x) ∧
        t.vaults = s.vaults ∧ t.cores = s.cores ∧ t.packet? id = none) ∧
      (∀ ptr n v, p.body = .pstore ptr n v → ptr.toNat / 2 ^ 61 = 4 → ∃ t, exec (.homePierStore id) s = .next t ∧
        (Tab.get [] t.vaults (vaultOf ptr) : Memory) = (Tab.get [] s.vaults (vaultOf ptr) : Memory).writeLE (ptr.toNat % 2 ^ 27) n v ∧
        (∀ w, w ≠ vaultOf ptr → Tab.get [] t.vaults w = Tab.get [] s.vaults w) ∧ t.mem = s.mem ∧ t.cores = s.cores) ∧
      (∀ ptr n v, p.body = .pstore ptr n v → ptr.toNat / 2 ^ 61 ≠ 4 →
        exec (.homePierStore id) s = .next ((s.dropPacket id).iorWrite (ptr.toNat % 2 ^ 53) (BitVec.ofNat 64 v))))

/-- From R366, R381: the loads and stores of an episode. Inside its window or its local store they are performed at once, a store never in
the text; elsewhere they raise POINTER_FAULT. A load of the window makes its destination pending and lands later (R67), after R366's
typical time, the model's choice (assumption 41). -/
def Obligations.EpisodeAccessResults : Prop :=
  ∀ (s : State) (imm : BitVec 12) (a b : Reg) (e : Nat) (ptr : Word), s.cur = .episode e → s.nextOk → s.hasRoom 1 →
    (∀ x ∈ loads imm a b, s.canIssue [a] [b] false → s.formPtr (s.operand [a] 0) imm.toInt x.2.1 false = .ok ptr →
      ((s.episode e).admits ptr x.2.1 false = false → exec x.1 s = .next (s.trapTurn .pointerFault ptr)) ∧
      ((s.episode e).admits ptr x.2.1 false = true → ptr.toNat / 2 ^ 61 = 2 →
        exec x.1 s = .next (s.writes [a] b (loaded x.2.2 x.2.1 ((s.episode e).store.readLE (ptr.toNat % 2 ^ 53) x.2.1)))) ∧
      ((s.episode e).admits ptr x.2.1 false = true → ptr.toNat / 2 ^ 61 = 0 →
        s.poisoned 0 0 ((s.episode e).winPa (ptr.toNat % 2 ^ 53)) x.2.1 = false →
        ∃ t, exec x.1 s = .next t ∧ s.goesOnly t ∧ (s.thr.mapped b = none → b ≠ 0 → t.thr.isPending b = true) ∧
          s.sendsOne t .local 0 (some (s.now + 460)) (.load ((s.opened [a]).awaitDst b).1 ptr x.2.1 x.2.2 none false
            (some (loaded x.2.2 x.2.1 (s.mem.readLE ((s.episode e).winPa (ptr.toNat % 2 ^ 53)) x.2.1)))))) ∧
    (∀ x ∈ stores imm b a, s.canIssue [a, b] [] true → s.formPtr (s.operand [a, b] 0) imm.toInt x.2 true = .ok ptr →
      ((s.episode e).admits ptr x.2 true = false → exec x.1 s = .next (s.trapTurn .pointerFault ptr)) ∧
      ((s.episode e).admits ptr x.2 true = true → ptr.toNat / 2 ^ 61 = 2 →
        ∃ t, exec x.1 s = .next t ∧
          (t.episode e).store = (s.episode e).store.writeLE (ptr.toNat % 2 ^ 53) x.2 ((s.operand [a, b] 1).toNat % 2 ^ (8 * x.2)) ∧
          t.mem = s.mem ∧ (∀ r, t.thr.getG r = s.thr.getG r) ∧ t.thr.csr = s.thr.csr ∧ t.cores = (s.opened [a, b]).cores) ∧
      ((s.episode e).admits ptr x.2 true = true → ptr.toNat / 2 ^ 61 = 0 →
        exec x.1 s = .next (((s.opened [a, b]).homeWrite ((s.episode e).winPa (ptr.toNat % 2 ^ 53))
          (bytesLE x.2 ((s.operand [a, b] 1).toNat % 2 ^ (8 * x.2)))).complete s.cur)))

/-- From R141: PREF completes and changes no register, whatever its pointer; where no TLB holds its page it waits for the walk (R167). With
the pointer of GEN or RO, the right to read, no SYNC and a CA other than 2 it has the line fetched, if a miss register is free and the
line is not there: into the L1 at level 0 with CA 0 and a set not fully pinned, into the cluster cache at level 1 and at level 0 else,
into the visitor slice at level 2 of a line with another home die. It sends nothing else. R142: CPIN, CUNPIN and CFLUSH complete. On a
SYNC page or one with CA other than 0 they only go on. CPIN sets the pin of a present line, allocates and pins an absent one and has it
fetched, and does nothing where every way of its set is pinned; CUNPIN clears the pin; after CFLUSH the cluster cache does not have the
line, nor the L1 unless it is pinned there. An episode's PREF, CPIN, CUNPIN and CFLUSH have no effect (R367). -/
def Obligations.LineAndPrefetchResults : Prop :=
  (∀ (s : State) (imm : BitVec 12) (a level : Reg) (k i : Nat), s.cur = .slot k i → s.canIssue [a] [] false → s.nextOk → s.hasRoom 2 →
      let path := fun (ptr : Word) => ptr.toNat / 2 ^ 61
      let look := fun (ptr : Word) => s.tlbLookup k s.thr.ctx (ptr.toNat % 2 ^ 53)
      (∀ ptr, s.formPtr (s.operand [a] 0) imm.toInt 0 false = .ok ptr → path ptr ≤ 1 → look ptr = none →
        s.thr.noCode ≠ some (ptr.toNat % 2 ^ 53 / 65536) → exec (.pref imm a level) s = .next (startWalk (ptr.toNat % 2 ^ 53) 3 s.parkTurn)) ∧
      ((∀ ptr, s.formPtr (s.operand [a] 0) imm.toInt 0 false = .ok ptr → path ptr ≤ 1 → look ptr = none →
          s.thr.noCode = some (ptr.toNat % 2 ^ 53 / 65536)) →
        ∃ t, exec (.pref imm a level) s = .next t ∧ s.goesOnly t ∧ (∀ c, (t.core c).l1 = (s.core c).l1) ∧
          (∀ c, (t.cluster c).cc = (s.cluster c).cc) ∧ t.piers = s.piers ∧
          (∀ n, n ≠ 0x01D → n ≠ 0x01E → t.thr.csr.get n = s.thr.csr.get n) ∧
          ((∃ e, s.formPtr (s.operand [a] 0) imm.toInt 0 false = .error e) → t.packets = s.packets) ∧
          (∀ ptr, s.formPtr (s.operand [a] 0) imm.toInt 0 false = .ok ptr →
            (1 < path ptr ∨ look ptr = none → t.packets = s.packets) ∧
            (∀ e, path ptr ≤ 1 → look ptr = some e →
              let pa := leafPa e.leaf e.shift (ptr.toNat % 2 ^ 53)
              let line := pa / 256
              let ro := decide (path ptr = 1)
              let l1 := leafCA e.leaf = 0 ∧ s.canAlloc 0 k line = true
              let near := s.wholeAt 1 (k / 16) line ro
              let fetch := fun (ca : Nat) => Body.fetch { pa := pa, n := 1, region := leafRegion e.leaf, sync := false, ca := ca } ro none
              (leafR e.leaf = false ∨ leafSync e.leaf = true ∨ leafCA e.leaf = 2 → t.packets = s.packets) ∧
              (leafR e.leaf = true → leafSync e.leaf = false → leafCA e.leaf ≠ 2 →
                (level = 0 → l1 →
                  if s.wholeAt 0 k line ro = false ∧ s.missFree k (.line line) = true then
                    s.sendsOne t (if near then .local else .req) (if near then k else pierPort s k (k / 256) pa) none (fetch 0)
                  else t.packets = s.packets) ∧
                (level = 1 ∨ level = 0 ∧ ¬ l1 →
                  if near = false ∧ s.missFree k .own = true then s.sendsOne t .req (pierPort s k (k / 256) pa) none (fetch 1)
                  else t.packets = s.packets) ∧
                (level = 2 →
                  if s.homeDie (256 * line) ≠ k / 256 ∧ s.wholeAt 2 (s.visitSlice k (256 * line)) line ro = false ∧ s.missFree k .own = true then
                    s.sendsOne t .req (pierPort s k (k / 256) pa) none (fetch 2)
                  else t.packets = s.packets)))))) ∧
  (∀ (s : State) (imm : BitVec 12) (a : Reg) (k i : Nat) (ptr : Word) (e : TlbEntry),
      s.cur = .slot k i → s.canIssue [a] [] true → s.nextOk → s.hasRoom 2 →
      s.formPtr (s.operand [a] 0) imm.toInt 0 false = .ok ptr → ptr.toNat / 2 ^ 61 ≤ 1 →
      s.tlbLookup k s.thr.ctx (ptr.toNat % 2 ^ 53) = some e → leafR e.leaf = true →
      let pa := leafPa e.leaf e.shift (ptr.toNat % 2 ^ 53)
      let line := pa / 256
      let ro := decide (ptr.toNat / 2 ^ 61 = 1)
      let near := s.wholeAt 1 (k / 16) line ro
      let o := s.opened [a]
      ((leafSync e.leaf = true ∨ leafCA e.leaf ≠ 0) → ∀ x ∈ [Instr.cpin imm a, .cunpin imm a, .cflush imm a], exec x s = .next (o.complete s.cur)) ∧
      (leafSync e.leaf = false → leafCA e.leaf = 0 →
        (∃ t, exec (.cunpin imm a) s = .next t ∧ s.goesOnly t ∧ t.packets = s.packets ∧ t.thr.csr = s.thr.csr ∧
          findLine (t.core k).l1 line = (findLine (s.core k).l1 line).map (fun l => { l with pin := false })) ∧
        (∀ l, findLine (s.core k).l1 line = some l → ∃ t, exec (.cpin imm a) s = .next t ∧ s.goesOnly t ∧ t.packets = s.packets ∧
          t.thr.csr = s.thr.csr ∧ findLine (t.core k).l1 line = some { l with pin := true, ctx := s.thr.ctx }) ∧
        (findLine (s.core k).l1 line = none → s.canAlloc 0 k line = false → exec (.cpin imm a) s = .next (o.complete s.cur)) ∧
        (findLine (s.core k).l1 line = none → s.canAlloc 0 k line = true → s.missFree k (.line line) = false →
          exec (.cpin imm a) s = .next s.parkTurn) ∧
        (findLine (s.core k).l1 line = none → s.canAlloc 0 k line = true → s.missFree k (.line line) = true →
          ∃ t, exec (.cpin imm a) s = .next t ∧ s.goesOn t ∧
            (∃ l, findLine (t.core k).l1 line = some l ∧ l.pin = true ∧ l.ctx = s.thr.ctx) ∧
            ∃ q ∈ t.packets, q.owner = some s.cur ∧ q.net = (if near then .local else .req) ∧
              q.dst = (if near then k else pierPort s k (k / 256) pa) ∧
              q.body = .fetch { pa := pa, n := 1, region := leafRegion e.leaf, sync := false, ca := 0 } ro none) ∧
        (∃ t, exec (.cflush imm a) s = .next t ∧ s.goesOn t ∧ findLine (t.cluster (k / 16)).cc line = none ∧
          ((∀ l, findLine (s.core k).l1 line = some l → l.pin = false) → findLine (t.core k).l1 line = none)))) ∧
  (∀ (s : State) (imm : BitVec 12) (a level : Reg) (x : Nat), s.cur = .episode x → s.nextOk → s.hasRoom 0 →
      (s.canIssue [a] [] false → exec (.pref imm a level) s = .next ((s.opened [a]).complete s.cur)) ∧
      (s.canIssue [a] [] true →
        ∀ y ∈ [Instr.cpin imm a, .cunpin imm a, .cflush imm a], exec y s = .next ((s.opened [a]).complete s.cur)))

/-- From R167: TRANSLATION_WALK_COMPLETE. A walk that has read its entries at the pier comes back on RSP (R270). One that ends in a leaf puts
it into the TLB of the core of every thread that waited for it, where every address of the page finds it, and they try again; one that
ends badly parks each on a fault record of its own address, and one that looked for a pc or a target leaves its page known as no code
page (R89). R168: a data fault without an unresolved record of its page posts one, with the kind, the address, the context, the access,
the level and the size found, and with core, slot and class; the thread parks on its sequence number. With such a record it joins it.
R63: ICACHE_REFILL makes the line present, and changes nothing else. -/
def Obligations.TranslationAndFaultResults : Prop :=
  (∀ (s : State) (id ctx va acc : Nat) (p : Packet), s.arrived? id = some p → p.body = .walk ctx va acc →
      (p.net ≠ .rsp → exec (.translationWalkComplete id) s = .next (s.reply p .rsp p.body)) ∧
      (∀ leaf shift level, p.net = .rsp → s.walk ctx va = .leaf leaf shift level → ∃ t, exec (.translationWalkComplete id) s = .next t ∧
        (∀ a ∈ s.walkers id, (t.thrOf a).walking = none ∧ (t.thrOf a).pc = (s.thrOf a).pc ∧
          (∀ r, (t.thrOf a).getG r = (s.thrOf a).getG r) ∧
          (∀ w, w / 2 ^ shift = va / 2 ^ shift →
            t.tlbLookup a.core ctx w = some { ctx := ctx, page := va / 2 ^ shift, shift := shift, leaf := leaf })) ∧
        (∀ a, a ∉ s.walkers id → t.thrOf a = s.thrOf a) ∧ t.mem = s.mem ∧ t.vaults = s.vaults ∧ t.packet? id = none) ∧
      (∀ a kind level, p.net = .rsp → s.walkers id = [a] → s.walk ctx va = .bad kind level →
        let w := (s.thrOf a).walkVa
        ((s.thrOf a).walkAcc ≠ 0 →
          exec (.translationWalkComplete id) s = .next ((s.dropPacket id).dataFault a ctx w kind level 255 (s.thrOf a).walkAcc 0)) ∧
        ((s.thrOf a).walkAcc = 0 →
          exec (.translationWalkComplete id) s =
            .next ((s.dropPacket id).setThrOf a { s.thrOf a with walking := none, noCode := some (w / 65536) })))) ∧
  (∀ (s : State) (a : Actor) (ctx va kind level size access cls : Nat),
      let p := (s.ctx ctx).part
      let t := s.dataFault a ctx va kind level size access cls
      let same := fun (o : OpenFault) => o.ctx == ctx && o.page == va / 2 ^ o.shift && !o.abandoned
      ((s.part p).openFaults.find? same = none →
        (t.part p).waiting = (s.part p).waiting ++
          [{ kind := kind, addr := BitVec.ofNat 64 va, ctx := ctx, b11 := access, b12 := level, b13 := size,
             core := a.core, slot := a.slotNum + 16 * cls, seq := (s.part p).seqNext }] ∧
        (t.part p).seqNext = ((s.part p).seqNext + 1) % 2 ^ 32 ∧
        (t.thrOf a).faultSeq = some (s.part p).seqNext ∧ (t.thrOf a).parked = true ∧ t.mem = s.mem) ∧
      (∀ o, (s.part p).openFaults.find? same = some o →
        (t.part p).waiting = (s.part p).waiting ∧ (t.thrOf a).faultSeq = some o.seq ∧ (t.thrOf a).parked = true ∧ t.mem = s.mem)) ∧
  (∀ (s : State) (k line : Nat), ∃ t, exec (.icacheRefill k line) s = .next t ∧ line ∈ (t.core k).icache ∧
      (∀ x, x ∈ (s.core k).icache → x ∈ (t.core k).icache) ∧ (∀ x ∈ (t.core k).icache, x = line ∨ x ∈ (s.core k).icache) ∧
      (∀ a, t.thrOf a = s.thrOf a) ∧ t.mem = s.mem ∧ t.vaults = s.vaults ∧ t.packets = s.packets)

/-- From R158 to R160: SPR accesses of the issuing thread, once its rank is resolved (R285). A load whose rank lies on the same core reads its
crew's rows where a window admits it and raises SCRATCHPAD_REFUSAL where none does or the rank names no thread; a load of another core
raises MIGRATION_FAULT where the thread may not leave. A store to the own core is performed at issue: admitted it writes its bytes, out of
range it notes the pointer, and refused it leaves a deferred SCRATCHPAD_REFUSAL pending; any other store leaves for the core of its rank,
or for its own where the rank names no thread. R158, R159: REMOTE_SCRATCHPAD_ACCESS at the core of its rank. A store admitted by a window
writes its bytes and only those; one that no window admits, or whose rank names no thread, is refused and writes nothing; one outside the
crew's rows is answered as out of range. R155, R158, R159: the answers of a remote scratchpad access at its thread. REMOTE_ACK of a store
only ends it, of one out of range notes the pointer, and of an atomic lands the old value, sign-extended; SPR_REFUSAL_ARRIVAL of a store
leaves a deferred SCRATCHPAD_REFUSAL pending, behind those already there. -/
def Obligations.RemoteScratchpadResults : Prop :=
  (∀ (s o : State) (imm : BitVec 12) (a b : Reg) (k i : Nat) (ptr : Word) (where_ : Where), s.cur = .slot k i → s.thr.runAhead = false →
      let rank := ptr.toNat / 2 ^ 33 % 2 ^ 20
      let off := ptr.toNat % 2 ^ 19
      (∀ x ∈ loads imm a b, s.canIssue [a] [b] false → s.nextOk → s.hasRoom 1 → s.thr.vecStoresOut = false →
        s.formPtr (s.operand [a] 0) imm.toInt x.2.1 false = .ok ptr → ptr.toNat / 2 ^ 61 = 3 → (s.opened [a]).resolves rank where_ o →
        (where_ = .nowhere → exec x.1 s = .next (s.trapTurn .scratchpadRefusal ptr)) ∧
        (where_ = .moving → exec x.1 s = .next s.parkTurn) ∧
        (∀ j, where_ = .here k j → s.windowAdmits k j off x.2.1 0 s.cur = false → exec x.1 s = .next (s.trapTurn .scratchpadRefusal ptr)) ∧
        (∀ j p, where_ = .here k j → s.windowAdmits k j off x.2.1 0 s.cur = true →
          (s.crewOf k j).phys off = some p → s.poisoned 1 k p x.2.1 = false →
          ∃ t, exec x.1 s = .next t ∧ s.goesOnly t ∧ t.thr.csr = s.thr.csr ∧ (s.thr.mapped b = none → b ≠ 0 → t.thr.isPending b = true) ∧
            o.sendsOne t .local k (some (s.now + 8)) (.load ((s.opened [a]).awaitDst b).1 ptr x.2.1 x.2.2 none false
              (some (loaded x.2.2 x.2.1 ((s.core k).spad.readLE p x.2.1))))) ∧
        (∀ c j n, where_ = .here c j → c ≠ k → s.departBar k i = some n →
          exec x.1 s = .next (s.trapTurn .migrationFault (BitVec.ofNat 64 n)))) ∧
      (∀ x ∈ stores imm b a, s.canIssue [a, b] [] true → s.nextOk → s.hasRoom 0 → s.thr.vecAccessesOut = false →
        s.formPtr (s.operand [a, b] 0) imm.toInt x.2 true = .ok ptr → ptr.toNat / 2 ^ 61 = 3 → (s.opened [a, b]).resolves rank where_ o →
        let v := (s.operand [a, b] 1).toNat % 2 ^ (8 * x.2)
        let body : Body := .spr 0 ptr x.2 v 0 0 .none
        (where_ = .moving → exec x.1 s = .next s.parkTurn) ∧
        (where_ = .nowhere → ∃ t, exec x.1 s = .next t ∧ s.goesOnly t ∧ o.sendsOne t .local k none body) ∧
        (∀ c j, where_ = .here c j → c ≠ k → ∃ t, exec x.1 s = .next t ∧ s.goesOnly t ∧ o.sendsOne t .req c none body) ∧
        (∀ j, where_ = .here k j →
          (s.windowAdmits k j off x.2 1 s.cur = false → ∃ t, exec x.1 s = .next t ∧ s.goesOnly t ∧ t.packets = o.packets ∧
            t.thr.async = s.thr.async ++ [{ cause := .scratchpadRefusal, tval := ptr }]) ∧
          (s.windowAdmits k j off x.2 1 s.cur = true → (s.crewOf k j).phys off = none → ∃ t, exec x.1 s = .next t ∧ s.goesOnly t ∧
            t.packets = o.packets ∧ t.thr.csr = (s.thr.noteOor ptr).csr) ∧
          (∀ p, s.windowAdmits k j off x.2 1 s.cur = true → (s.crewOf k j).phys off = some p → ∃ t, exec x.1 s = .next t ∧
            (∀ n, n < x.2 → (t.core k).spad.byte (p + n) = BitVec.ofNat 8 (v / 256 ^ n)) ∧
            (∀ y, y < p ∨ p + x.2 ≤ y → (t.core k).spad.byte y = (s.core k).spad.byte y) ∧
            (∀ c, c ≠ k → (t.core c).spad = (s.core c).spad) ∧ t.mem = s.mem ∧ t.vaults = s.vaults ∧ t.packets = o.packets ∧
            (∀ r, t.thr.getG r = s.thr.getG r) ∧ t.thr.csr = s.thr.csr ∧ t.thr.pc = s.thr.seqNext.1)))) ∧
  (∀ (s : State) (id : Nat) (p : Packet) (kind n val fn cmp k i : Nat) (ptr : Word) (dst : Dest),
      s.arrived? id = some p → p.body = .spr kind ptr n val fn cmp dst →
      let back := if p.src = p.dst then Net.local else .rsp
      let off := ptr.toNat % 2 ^ 19
      let who := p.owner.getD (.slot p.src 0)
      let right := if kind = 1 then 2 else 1
      ptr.toNat / 2 ^ 61 = 3 →
      (s.resolveRank p.ctx (ptr.toNat / 2 ^ 33 % 2 ^ 20) = .nowhere →
        exec (.remoteScratchpadAccess id) s = .next (s.reply p back (.sprRefuse kind ptr dst))) ∧
      (s.resolveRank p.ctx (ptr.toNat / 2 ^ 33 % 2 ^ 20) = .here k i → k = p.dst →
        (s.windowAdmits k i off n right who = false → exec (.remoteScratchpadAccess id) s = .next (s.reply p back (.sprRefuse kind ptr dst))) ∧
        (s.windowAdmits k i off n right who = true → (s.crewOf k i).phys off = none →
          exec (.remoteScratchpadAccess id) s = .next (s.reply p back (.sprAck kind ptr n 0 true dst))) ∧
        (∀ o, s.windowAdmits k i off n right who = true → (s.crewOf k i).phys off = some o → (kind = 1 → s.poisoned 1 k o n = false) →
          s.flawed = [] →
          let old := (s.core k).spad.readLE o n
          let new := if kind = 1 then atomicResult fn n old val cmp else val
          ∃ t, exec (.remoteScratchpadAccess id) s = .next t ∧
            (∀ j, j < n → (t.core k).spad.byte (o + j) = BitVec.ofNat 8 (new / 256 ^ j)) ∧
            (∀ x, x < o ∨ o + n ≤ x → (t.core k).spad.byte x = (s.core k).spad.byte x) ∧
            (∀ c, c ≠ k → t.core c = s.core c) ∧ t.mem = s.mem ∧ t.vaults = s.vaults ∧ (∀ a, t.thrOf a = s.thrOf a) ∧
            t.packets.map Packet.body = s.packets.map (fun q => if q.id = p.id then .sprAck kind ptr n old false dst else q.body)))) ∧
  (∀ (s : State) (id : Nat) (p : Packet) (a : Actor) (kind n v : Nat) (ptr : Word) (dst : Dest),
      s.arrived? id = some p → p.owner = some a →
      (p.body = .sprAck 1 ptr n v false dst →
        exec (.remoteAck id) s = .next ((s.dropPacket id).land a dst (loaded true n v))) ∧
      (kind ≠ 1 → p.body = .sprAck kind ptr n v false dst → exec (.remoteAck id) s = .next (s.dropPacket id)) ∧
      (kind ≠ 1 → p.body = .sprAck kind ptr n v true dst →
        exec (.remoteAck id) s = .next ((s.dropPacket id).setThrOf a ((s.thrOf a).noteOor ptr))) ∧
      (kind ≠ 1 → p.body = .sprRefuse kind ptr dst →
        ∃ t, exec (.sprRefusalArrival id) s = .next t ∧ (t.thrOf a).async = (s.thrOf a).async ++ [{ cause := .scratchpadRefusal, tval := ptr }] ∧
          (t.thrOf a).pc = (s.thrOf a).pc ∧ (∀ r, (t.thrOf a).getG r = (s.thrOf a).getG r) ∧ t.mem = s.mem ∧ t.packet? id = none) ∧
      (p.body = .sprRefuse 1 ptr dst →
        ∃ u : State, exec (.sprRefusalArrival id) s = .next (u.takeTrap a .scratchpadRefusal ptr (s.thrOf a).pc false) ∧
          (∀ r, (u.thrOf a).getG r = (s.thrOf a).getG r) ∧ u.mem = s.mem ∧
          (∀ r, dst = .reg r → (u.thrOf a).isPending r = false)))

/-- From R178, R179, R182, R185: a vector instruction that may be dispatched completes with its entry in the line of dispatched instructions,
whatever its fields; a synchronising one makes its destination pending and gives it to its entry. While a VGRANT of the thread is
outstanding or the dispatch queue is full it parks. R101, R104: a pointer that fails a check raises its cause, and a format that VLS does
not have FORMAT_FAULT. R171, R185: a thread without a vector context raises VECTOR_ABSENT at every vector instruction; one that neither
begins a convoy nor may join the open one raises ILLEGAL_INSTRUCTION. R176: VCFG writes THR_VTYPE, and THR_VL and its destination with the
least of the count asked for, the elements of a register and those of THR_VLCEIL; a type it does not have raises FORMAT_FAULT. -/
def Obligations.VectorDispatchResults : Prop :=
  (∀ (s : State) (k j : Nat) (cb mk : Bool) (b vb va : Reg) (kind : BitVec 2) (vd : Reg) (f : BitVec 5) (mb ma md : BitVec 3),
      s.cur = .slot k j → s.nextOk →
      let op := fun (major f5 d : Nat) =>
        ({ major := major, f5 := f5, masked := mk, vb := vb.toNat, va := va.toNat, kind := kind.toNat, vd := d } : VOp)
      let waits := fun (i : Instr) => s.thr.laneReq ≠ 0 → cb = true →
        (s.thr.grantPending = true ∨ 8 ≤ s.dispatched k) → exec i s = .next s.parkTurn
      (∀ x ∈ vectorIntegers cb mk vb va kind vd md, s.canIssue (scalarOf kind vb) [] false → s.hasRoom 0 →
        (s.canDispatch k (op 14 x.2.1 x.2.2) cb → s.dispatches x.1 (scalarOf kind vb) (op 14 x.2.1 x.2.2) cb none) ∧ waits x.1) ∧
      (∀ x ∈ vectorFloats cb mk vb va kind vd md, s.canIssue (scalarOf kind vb) [] false → s.hasRoom 0 →
        (s.canDispatch k (op 15 x.2.1 x.2.2) cb → s.dispatches x.1 (scalarOf kind vb) (op 15 x.2.1 x.2.2) cb none) ∧ waits x.1) ∧
      (∀ x ∈ vectorUnaryFloats cb mk va vd, s.canIssue [] [] false → s.hasRoom 0 →
        let o : VOp := { op 15 x.2 vd.toNat with vb := 0, kind := 0 }
        (s.canDispatch k o cb → s.dispatches x.1 [] o cb none) ∧ waits x.1) ∧
      (∀ x ∈ vectorPermutes cb mk vb va kind vd f mb ma md, s.canIssue x.2.2 [] false → s.hasRoom 0 →
        (s.canDispatch k x.2.1 cb → s.dispatches x.1 x.2.2 x.2.1 cb none) ∧ waits x.1) ∧
      (∀ x ∈ vectorSyncs cb vb va kind ma vd, s.canIssue x.2.2 [vd] false → s.hasRoom 1 →
        (s.canDispatch k x.2.1 cb → s.dispatches x.1 x.2.2 x.2.1 cb (some vd)) ∧ waits x.1) ∧
      (∀ x ∈ vectorAccesses cb mk b vb va vd md, s.canIssue x.2.2 [] false → s.hasRoom 0 → s.canDispatch k x.2.1 cb →
        let p := s.operand x.2.2 0
        let fmt := p.toNat / 2 ^ 56 % 32
        let l := p.toNat / 2 ^ 53 % 8
        let bad := 19 ≤ fmt ∨ fmt = 17 ∨ fmt = 14 ∧ l ≠ 0 ∨ (fmt = 15 ∨ fmt = 16) ∧ 6 ≤ l
        (∀ c, s.checkPtr x.2.1.isStore p = some c → exec x.1 s = .next (s.trapTurn c p)) ∧
        (s.checkPtr x.2.1.isStore p = none → x.2.1.f5 < 7 → bad → exec x.1 s = .next (s.trapTurn .formatFault p)) ∧
        (s.checkPtr x.2.1.isStore p = none → 7 ≤ x.2.1.f5 ∨ ¬ bad → s.dispatches x.1 x.2.2 x.2.1 cb none))) ∧
  (∀ (s : State) (k j : Nat) (cb mk : Bool) (b vb va : Reg) (kind : BitVec 2) (vd : Reg) (f : BitVec 5) (mb ma md : BitVec 3),
      s.cur = .slot k j → s.thr.stage = 0 →
      (s.thr.laneReq = 0 →
        (∀ x ∈ vectorIntegers cb mk vb va kind vd md ++ vectorFloats cb mk vb va kind vd md, exec x.1 s = .next (s.trapTurn .vectorAbsent 0)) ∧
        (∀ x ∈ vectorUnaryFloats cb mk va vd, exec x.1 s = .next (s.trapTurn .vectorAbsent 0)) ∧
        (∀ x ∈ vectorPermutes cb mk vb va kind vd f mb ma md ++ vectorSyncs cb vb va kind ma vd ++ vectorAccesses cb mk b vb va vd md,
          exec x.1 s = .next (s.trapTurn .vectorAbsent 0)) ∧
        exec (.vcfg cb b va vd) s = .next (s.trapTurn .vectorAbsent 0) ∧
        exec (.mrd b ma vd) s = .next (s.trapTurn .vectorAbsent 0) ∧ exec (.mwr b va ma) s = .next (s.trapTurn .vectorAbsent 0)) ∧
      (s.thr.laneReq ≠ 0 → s.thr.restored = false → ∀ x ∈ vectorIntegers false mk vb va kind vd md,
        (s.thr.convoyOpen = false ∨ 1 ∈ s.thr.pipes) → ∃ w, exec x.1 s = .next (s.trapTurn .illegalInstruction w)) ∧
      (s.thr.laneReq ≠ 0 → (∀ e ∈ s.thr.vq, e.op.major = 16 → e.op.f5 = 1 → e.confirmed = true) → s.canIssue [va, b] [vd] false →
        let n := (s.operand [va, b] 0).toNat
        let y := s.operand [va, b] 1
        (32 ≤ y.toNat ∨ 4 < y.toNat % 16 → exec (.vcfg cb b va vd) s = .next (s.trapTurn .formatFault y)) ∧
        (y.toNat < 32 → y.toNat % 16 ≤ 4 → s.nextOk → s.hasRoom 3 →
          let size := [1, 2, 2, 4, 8].getD (y.toNat % 16) 0
          let vl : Word := BitVec.ofNat 64 (Min.min n (Min.min (1024 / size) (s.thr.csr.vlceil.toNat % 2048 / size)))
          exec (.vcfg cb b va vd) s =
            .next (((((s.opened [va, b]).setThr ((s.thr.setCsr 0x015 y).setCsr 0x016 vl)).putDst vd vl 3)).complete s.cur))))

/-- From R196, R199 to R203: VINT and VFP, once confirmed. Every present element of vd takes the operation's value on its operands, every
other element stays; a comparison writes the bits of its mask register at the present elements. The second operand is vb's element, the
scalar, or the immediate; kind 3 takes the scalar first. -/
def Obligations.VectorArithmeticResults : Prop :=
  (∀ (s : State) (k i : Nat) (e : VEntry), s.confirms k i e →
    let c := (s.thrOf (.slot k i)).vec
    let w := 8 * e.size
    let has := fun j => decide (j < e.vl) && (!e.op.masked || (c.mask 0).getLsbD j)
    let first := fun j => if e.op.kind = 3 then e.scalar.toNat % 2 ^ w else c.elem e.op.va j e.size
    let second := fun (imm : Nat) j => match e.op.kind with
      | 0 => c.elem e.op.vb j e.size
      | 1 => e.scalar.toNat % 2 ^ w
      | 2 => imm
      | _ => c.elem e.op.va j e.size
    let immI := ((BitVec.ofNat 5 e.op.vb).signExtend w).toNat
    let immF := ((etFmt e.et).convert (.mode 1) (ofInt (BitVec.ofNat 5 e.op.vb).toInt)).1
    e.op.kind < 4 →
    (e.op.major = 14 → e.op.f5 < 18 → e.op.vb < 32 →
      s.confirmsElems k i e has (fun j => vintOp e.op.f5 w (first j) (second immI j) (c.elem e.op.vd j e.size))) ∧
    (e.op.major = 14 → 18 ≤ e.op.f5 → e.op.vb < 32 →
      s.confirmsMask k i e has (fun j => vintCmp e.op.f5 w (first j) (second immI j))) ∧
    (e.op.major = 15 → e.op.f5 < 15 ∨ 17 < e.op.f5 → e.op.vb < 32 →
      s.confirmsElems k i e has
        (fun j => (vfpOp e.op.f5 (etFmt e.et) e.rm (first j) (second immF j) (c.elem e.op.vd j e.size)).1)) ∧
    (e.op.major = 15 → 15 ≤ e.op.f5 → e.op.f5 ≤ 17 → e.op.vb < 32 →
      s.confirmsMask k i e has (fun j => (fCompare (etFmt e.et) (e.op.f5 - 15) (first j) (second immF j)).1))) ∧
  (∀ (w : Nat) (x y z : BitVec w), w ∈ [8, 16, 32, 64] →
    let n := y.toNat % w
    let op := fun (f5 : Nat) => BitVec.ofNat w (vintOp f5 w x.toNat y.toNat z.toNat)
    let lo : Int := -2 ^ (w - 1)
    let hi : Int := 2 ^ (w - 1) - 1
    op 0 = x + y ∧ op 1 = x - y ∧ op 2 = x * y ∧ op 3 = BitVec.ofInt w (x.toInt * y.toInt / 2 ^ w) ∧
    op 4 = BitVec.ofNat w (x.toNat * y.toNat / 2 ^ w) ∧ op 5 = x * y + z ∧
    op 6 = BitVec.ofInt w (Min.min x.toInt y.toInt) ∧ op 7 = BitVec.ofInt w (Max.max x.toInt y.toInt) ∧
    op 8 = BitVec.ofNat w (Min.min x.toNat y.toNat) ∧ op 9 = BitVec.ofNat w (Max.max x.toNat y.toNat) ∧
    op 10 = x &&& y ∧ op 11 = x ||| y ∧ op 12 = x ^^^ y ∧ op 13 = x <<< n ∧ op 14 = x >>> n ∧ op 15 = x.sshiftRight n ∧
    op 16 = BitVec.ofInt w (Max.max lo (Min.min hi (x.toInt + y.toInt))) ∧ op 17 = BitVec.ofInt w (Max.max lo (Min.min hi (x.toInt - y.toInt))) ∧
    vintCmp 18 w x.toNat y.toNat = decide (x = y) ∧ vintCmp 19 w x.toNat y.toNat = decide (x ≠ y) ∧
    vintCmp 20 w x.toNat y.toNat = x.slt y ∧ vintCmp 21 w x.toNat y.toNat = x.sle y ∧
    vintCmp 22 w x.toNat y.toNat = x.ult y ∧ vintCmp 23 w x.toNat y.toNat = x.ule y)

/-- From R177, R188, R217, R219 to R228: VPERM, once confirmed, operation by operation. -/
def Obligations.VectorPermuteResults : Prop :=
  ∀ (s : State) (k i : Nat) (e : VEntry), s.confirms k i e → e.op.major = 16 →
    let a := Actor.slot k i
    let c := (s.thrOf a).vec
    let sz := e.size
    let w := 8 * sz
    let here := fun j => decide (j < e.vl) && (!e.op.masked || (c.mask 0).getLsbD j)
    let x := fun j => c.elem e.op.va j sz
    let amount := if e.op.kind = 1 then e.scalar.toNat else e.op.vb
    let is := (List.range e.vl).filter here
    let only0 := fun j => decide (j = 0) && !is.isEmpty
    let init := c.elem e.op.vb 0 sz
    -- VGRANT
    (e.op.f5 = 1 →
      let strip := (s.thrOf a).csr.strip.toNat % 2 ^ 32
      let n := Min.min strip (Min.min (1024 / sz) ((s.thrOf a).csr.vlceil.toNat % 2048 / sz))
      ∃ u : State, exec (.vectorConfirm k i) s = .next (u.land a e.dst (BitVec.ofNat 64 n)) ∧ s.confirmed u k i e ∧
        (u.thrOf a).csr.strip = BitVec.ofNat 64 (strip - n) ∧ (u.thrOf a).csr.vl = BitVec.ofNat 64 n ∧ (u.thrOf a).vec = c) ∧
    -- VCVT of one element each, without SR
    (e.op.f5 = 2 → e.op.kind = 0 → e.op.vb < 14 ∨ e.op.vb = 18 →
      s.confirmsElems k i e here (fun j => (if e.op.vb = 0 then (etFmt e.et).convert (.mode e.rm) (ofInt (readInt w (x j)))
        else toCode e.op.vb w (.mode e.rm) ((etFmt e.et).unpack (x j))).1)) ∧
    -- VCVT with SR: each element in order takes the next stochastic state
    (e.op.f5 = 2 → e.op.kind = 3 → e.op.vb < 14 ∨ e.op.vb = 18 →
      let r := convertAll (fun r j => if e.op.vb = 0 then (etFmt e.et).convert r (ofInt (readInt w (x j)))
        else toCode e.op.vb w r ((etFmt e.et).unpack (x j))) true e.rm is (s.thrOf a).srseed
      s.confirmsElems k i e here (fun j => Tab.get 0 r.1 j)) ∧
    -- VSPLAT, VMVS, VMVV, VIOTA
    (e.op.f5 = 3 → e.op.kind = 1 → s.confirmsElems k i e here (fun _ => e.scalar.toNat)) ∧
    (e.op.f5 = 3 → e.op.kind = 2 → e.op.vb < 32 → s.confirmsElems k i e here (fun _ => ((BitVec.ofNat 5 e.op.vb).signExtend w).toNat)) ∧
    (e.op.f5 = 4 → s.confirmsScalar k i e (if amount < 1024 / sz then BitVec.ofNat 64 (x amount) else 0)) ∧
    (e.op.f5 = 5 → s.confirmsElems k i e here x) ∧
    (e.op.f5 = 6 → s.confirmsElems k i e here (fun j => if e.op.masked then ((List.range j).filter here).length else j)) ∧
    -- VSLUP, VSLDN, VGATHR, VCOMPR, VMERGE
    (e.op.f5 = 7 → s.confirmsElems k i e (fun j => here j && decide (amount ≤ j)) (fun j => x (j - amount))) ∧
    (e.op.f5 = 8 → s.confirmsElems k i e here (fun j => if j + amount < e.vl then x (j + amount) else 0)) ∧
    (e.op.f5 = 9 → s.confirmsElems k i e (fun j => decide (j < e.vl)) (fun j =>
      let t := c.elem e.op.vb j sz
      if t < 2 ^ e.op.kind * (1024 / sz) then c.elem (e.op.va + t / (1024 / sz)) (t % (1024 / sz)) sz else 0)) ∧
    (e.op.f5 = 10 →
      let js := (List.range e.vl).filter (fun j => (c.mask 0).getLsbD j)
      s.confirmsElems k i e (fun j => decide (j < js.length)) (fun j => x (js.getD j 0))) ∧
    (e.op.f5 = 11 → e.op.vb < 32 → s.confirmsElems k i e (fun j => decide (j < e.vl)) (fun j =>
      if (c.mask 0).getLsbD j then
        (match e.op.kind with
         | 0 => c.elem e.op.vb j sz
         | 1 => e.scalar.toNat
         | _ => ((BitVec.ofNat 5 e.op.vb).signExtend w).toNat)
      else x j)) ∧
    -- reductions, into element 0
    (e.op.f5 = 12 → s.confirmsElems k i e only0 (fun _ => init + (is.map x).sum)) ∧
    (e.op.f5 = 13 → s.confirmsElems k i e only0 (fun _ => is.foldl (fun a j => if readInt w a < readInt w (x j) then a else x j) init)) ∧
    (e.op.f5 = 14 → s.confirmsElems k i e only0 (fun _ => is.foldl (fun a j => if readInt w a < readInt w (x j) then x j else a) init)) ∧
    (e.op.f5 = 15 → s.confirmsElems k i e only0 (fun _ =>
      (if bitOf e.vtype 4 then vfredsumLA (etFmt e.et) (fun j => if here j then some (x j) else none) e.vl init
       else vfredsumLanes (etFmt e.et) e.rm (fun j => if here j then some (x j) else none) e.vl
         (64 * (s.thrOf a).lanes.length / sz) init).1)) ∧
    (e.op.f5 = 16 → s.confirmsElems k i e only0 (fun _ => is.foldl (fun a j => (fMinMax (etFmt e.et) false a (x j)).1) init)) ∧
    (e.op.f5 = 17 → s.confirmsElems k i e only0 (fun _ => is.foldl (fun a j => (fMinMax (etFmt e.et) true a (x j)).1) init)) ∧
    -- MLOG, MPOP, MFIRST, VHWM
    (e.op.f5 = 18 → e.op.kind < 4 → s.confirmsMask k i e (fun j => decide (j < e.vl)) (fun j =>
      let p := (c.mask e.op.va).getLsbD j
      let q := (c.mask e.op.vb).getLsbD j
      [p && q, p || q, p != q, p && !q].getD e.op.kind false)) ∧
    (e.op.f5 = 19 → s.confirmsScalar k i e
      (BitVec.ofNat 64 ((List.range e.vl).filter (fun j => (c.mask e.op.va).getLsbD j)).length)) ∧
    (e.op.f5 = 20 →
      (∀ j, j < e.vl → (c.mask e.op.va).getLsbD j = true → (∀ n, n < j → (c.mask e.op.va).getLsbD n = false) →
        s.confirmsScalar k i e (BitVec.ofNat 64 j)) ∧
      ((∀ j, j < e.vl → (c.mask e.op.va).getLsbD j = false) → s.confirmsScalar k i e (-1))) ∧
    (e.op.f5 = 21 → s.confirmsScalar k i e (BitVec.ofNat 64 ((Tab.get 0 c.w e.op.va + sz - 1) / sz)))

/-- From R189, R193: the elements a vector memory instruction accesses, in ascending index: unit stride, a byte stride, or an index for each
element; masks are 32 doublewords. Of a RAW pointer a store writes the element itself. R180, R190: a vector memory instruction whose
checks pass is confirmed, with its accesses to be performed; one whose page no TLB holds begins a walk; one that meets a data fault
stalls, and its thread parks on the record; one that reads poison is its consumption. R190, R193: the accesses of the oldest confirmed
one in the crew's rows are performed in ascending index; a store writes its bytes, a load its elements, and it is then no longer listed.
An access that leaves the cluster is sent on REQ in class 2 (R270, R276). R194: a VLDA's element group lands with VLDA_READ_LAND. -/
def Obligations.VectorAccessResults : Prop :=
  (∀ (e : VEntry) (c : VecCtx),
      let base : Int := ptrOff e.scalar
      let f := ptrFmt e.scalar
      let n := fmtSize f e.size
      let is := (List.range e.vl).filter (fun j => !e.op.masked || (c.mask 0).getLsbD j)
      let stride := (e.xs.getD 1 0).toInt
      let index := fun (j : Nat) => (c.elem e.op.vb j e.size : Int)
      let at_ := fun (j : Nat) => if e.op.f5 = 0 ∨ e.op.f5 = 3 then base + j * n else if e.op.f5 = 1 ∨ e.op.f5 = 4 then base + j * stride
        else base + index j * n
      e.op.major = 13 →
      (e.op.f5 ∈ [0, 1, 2, 6] → f ≤ 13 → (e.accesses c).1 = is.map (fun j => (j, at_ j, n, 0))) ∧
      (e.op.f5 ∈ [3, 4, 5] → f ≤ 13 → (e.accesses c).1.map (fun x => (x.1, x.2.1, x.2.2.1)) = is.map (fun j => (j, at_ j, n))) ∧
      (e.op.f5 ∈ [3, 4, 5] → f = 0 → (e.accesses c).1 = is.map (fun j => (j, at_ j, e.size, c.elem e.op.vd j e.size))) ∧
      (e.op.f5 = 7 → (e.accesses c).1 = (List.range 32).map (fun (j : Nat) => (j, base + 8 * j, 8, 0))) ∧
      (e.op.f5 = 8 → (e.accesses c).1 = (List.range 32).map (fun (j : Nat) => (j, base + 8 * j, 8, ((c.mask e.op.vd >>> (64 * j)).setWidth 64).toNat)))) ∧
  (∀ (s : State) (k i : Nat),
      let a := Actor.slot k i
      let phys := fun (x : VTarget) => (s.crewOf k i).phys (ptrOff x.ptr)
      let inRows := fun (x : VTarget) => ptrPath x.ptr = 2 ∧ ∃ o, phys x = some o ∧ s.poisoned 1 k o x.n = false
      (∀ e ts fl, s.vecHead k i = some e → e.op.major = 13 → e.op.f5 ≠ 6 → s.vlsCheck k i e = .ok ts fl →
        (s.thrOf a).readsBad e = false → ts ≠ [] →
        ∃ t, exec (.vectorConfirm k i) s = .next t ∧
          (t.thrOf a).vq = changeEntry (s.thrOf a).vq e.seq (fun _ => { e with confirmed := true, outs := ts }) ∧
          (t.thrOf a).vec = (s.thrOf a).vec ∧ s.unmoved t) ∧
      (∀ e fl, s.vecHead k i = some e → e.op.major = 13 → e.op.f5 ≠ 6 → s.vlsCheck k i e = .ok [] fl → (s.thrOf a).readsBad e = false →
        ∃ t, exec (.vectorConfirm k i) s = .next t ∧ (t.thrOf a).vq = (s.thrOf a).vq.filter (fun x => x.seq != e.seq) ∧
          (t.thrOf a).vec = (s.thrOf a).vec ∧ s.unmoved t) ∧
      (∀ e ts fl, s.vecHead k i = some e → s.vlsCheck k i e = .ok ts fl → e.op.major = 13 → (s.thrOf a).readsBad e = true →
        exec (.vectorConfirm k i) s = .next (s.consumePoison a 0)) ∧
      (∀ e va, s.vecHead k i = some e → e.op.major = 13 → s.vlsCheck k i e = .walk va →
        exec (.vectorConfirm k i) s = .next (s.needWalk a (s.thrOf a).ctx va (if e.op.isStore then 1 else 0))) ∧
      (∀ e va kind level size, s.vecHead k i = some e → e.op.major = 13 → s.vlsCheck k i e = .fault va kind level size →
        ∃ t u, exec (.vectorConfirm k i) s = .next (t.dataFault a (s.thrOf a).ctx va kind level size (if e.op.isStore then 2 else 1)
            (if e.op.f5 = 6 then 3 else 0)) ∧ t = s.setThrOf a u ∧
          u.vq = changeEntry (s.thrOf a).vq e.seq (fun _ => { e with stalled := true })) ∧
      (∀ e, (s.thrOf a).vq.find? (fun x => x.confirmed) = some e → (s.thrOf a).vq.find? (fun x => x.seq == e.seq) = some e →
        s.unitClear k i e = true → e.got = [] → (∀ j, s.enginePacket (.vec k i e.seq j) = none) →
        (e.op.isStore = true → (∀ x ∈ e.outs, ptrPath x.ptr = 2 ∧ (phys x).isSome = true) →
          ∃ t, exec (.vectorAccessPerformed k i) s = .next t ∧
            (t.core k).spad = e.outs.foldl (fun m x => Memory.writeLE m ((phys x).getD 0) x.n x.val) (s.core k).spad ∧
            (∀ c, c ≠ k → (t.core c).spad = (s.core c).spad) ∧
            (t.thrOf a).vq = (s.thrOf a).vq.filter (fun y => y.seq != e.seq) ∧ (t.thrOf a).vec = (s.thrOf a).vec ∧
            (∀ r, (t.thrOf a).getG r = (s.thrOf a).getG r) ∧ t.mem = s.mem ∧ t.vaults = s.vaults ∧ t.packets = s.packets) ∧
        (e.op.isStore = false → e.op.f5 ≠ 7 → s.flawed = [] → (∀ x ∈ e.outs, inRows x) →
          ∃ t, exec (.vectorAccessPerformed k i) s = .next t ∧
            (t.thrOf a).vec.v = ((loadedElems e.scalar e.vtype e.outs (e.outs.map (fun x => (s.core k).spad.readLE ((phys x).getD 0) x.n))).foldl
              (fun c x => c.putElem e.op.vd e.size x) (s.thrOf a).vec).v ∧
            (t.thrOf a).vec.m = (s.thrOf a).vec.m ∧ (t.thrOf a).vq = (s.thrOf a).vq.filter (fun y => y.seq != e.seq) ∧
            s.unmoved t ∧ t.packets = s.packets) ∧
        (∀ x d, e.outs = [x] → s.unitReach k x e.op.isStore = some d →
          ∃ t p, exec (.vectorAccessPerformed k i) s = .next t ∧ t.packets = s.packets ++ [p] ∧ p.net = .req ∧ p.src = k ∧ p.dst = d ∧
            p.cls = 2 ∧ p.ctx = (s.thrOf a).ctx ∧ p.body = .engine (.vec k i e.seq 0) x.n e.op.isStore ∧
            (t.thrOf a).vq = (s.thrOf a).vq ∧ s.unmoved t)) ∧
      (∀ u, (s.thrOf a).vec.unlanded.find? (fun x => x.v == u.v && x.group == u.group) = some u → u.got = [] → s.flawed = [] →
        (∀ j, s.enginePacket (.vlda k i u.v u.group j) = none) → (∀ x ∈ u.elems, inRows x) →
        ∃ t, exec (.vldaReadLand k i u.v u.group) s = .next t ∧
          (∀ x ∈ (t.thrOf a).vec.unlanded, ¬ (x.v = u.v ∧ x.group = u.group)) ∧ s.unmoved t ∧
          (∀ v, v ≠ u.v → Tab.get [] (t.thrOf a).vec.v v = Tab.get [] (s.thrOf a).vec.v v)))

/-- From R178, R183, R185, R186, R211 to R213: what else the vector unit does. The ready instruction of a slot leaves the dispatch queue and
starts once every shared pipe its convoy lacks is free and its turn; the convoy then holds those pipes, and their round robin moves on.
A drained convoy gives its pipes back, not before its last dispatched member has started. A check that agrees passes, one that does not
leads to a replay; a replay that agrees passes with the verdict corrected, or raises CHECK_FAULT with it tainted. A trap takes back the
trapping instruction and everything after it, with the entries of the shadow log, and is taken at its address with its loop stack. -/
def Obligations.VectorUnitEvents : Prop :=
  ∀ (s : State) (k i : Nat),
    let a := Actor.slot k i
    let t := s.thrOf a
    let q := s.quad (k / 4)
    let next := (k % 4 + 1) % 4
    (∀ e, s.readyHead k i = some e → (∀ p ∈ s.lacks k i, q.holder p = none ∧ s.pipeTurn (k / 4) p = some (k, i)) →
      ∃ u, exec (.vectorConvoyStart k i) s = .next u ∧ (u.thrOf a).vq = changeEntry t.vq e.seq (fun x => { x with stage := .started }) ∧
        (u.quad (k / 4)).vlBusy = (if 0 ∈ s.lacks k i then some (k, i) else q.vlBusy) ∧
        (u.quad (k / 4)).vpBusy = (if 3 ∈ s.lacks k i then some (k, i) else q.vpBusy) ∧
        (u.quad (k / 4)).pipeVL = (if 0 ∈ s.lacks k i then next else q.pipeVL) ∧
        (u.quad (k / 4)).pipeVP = (if 3 ∈ s.lacks k i then next else q.pipeVP) ∧
        (u.quad (k / 4)).tasks = q.tasks ∧ (u.thrOf a).vec = t.vec ∧ s.unmoved u) ∧
    (∀ e, s.readyHead k i = some e → ∀ p ∈ s.lacks k i, q.holder p ≠ none → exec (.vectorConvoyStart k i) s = .next s) ∧
    ((∀ e ∈ t.vq, e.stage = .queued) → (∀ e, t.vq.head? = some e → e.head = true) → ∃ u, exec (.convoyDrained k i) s = .next u ∧
      (u.quad (k / 4)).vlBusy = (if q.vlBusy = some (k, i) then none else q.vlBusy) ∧
      (u.quad (k / 4)).vpBusy = (if q.vpBusy = some (k, i) then none else q.vpBusy) ∧ (∀ b, u.thrOf b = s.thrOf b) ∧ s.unmoved u) ∧
    (∀ e, t.nextQueued = some e → e.head = false → exec (.convoyDrained k i) s = .next s) ∧
    (∀ e agrees, s.vecHead k i = some e → e.stage = .started → t.unitsOf e ≠ [] → ∃ u, exec (.checkCompare k i agrees) s = .next u ∧
      (u.thrOf a).vq = changeEntry t.vq e.seq (fun _ => { e with stage := if agrees then .checked else .replay }) ∧
      (u.thrOf a).vec = t.vec ∧ s.unmoved u) ∧
    (∀ e, s.vecHead k i = some e → e.stage = .replay →
      (∃ u, exec (.checkReplay k i true) s = .next (u.onLaunch k i (fun l => { l with verdict := Nat.max l.verdict 1 })) ∧
        (u.thrOf a).vq = changeEntry t.vq e.seq (fun _ => { e with stage := .checked }) ∧ s.unmoved u) ∧
      (∃ u n, exec (.checkReplay k i false) s = .next (u.onLaunch k i (fun l => { l with verdict := Nat.max l.verdict 2 })) ∧
        (u.thrOf a).vq = changeEntry t.vq e.seq (fun _ => { e with trap := some (.checkFault, n) }) ∧ s.unmoved u)) ∧
    (∀ e c v, s.vecTrap k i = some (e, c, v) →
      ∃ u : State, exec (.vectorTrapUnwind k i) s = .next (u.takeTrap a c v e.pc (e.trap == some (c, v) && c == .checkFault && e.op.major == 17)) ∧
      (u.thrOf a).vq = t.vq.filter (fun x => decide (x.seq < e.seq)) ∧ (u.thrOf a).loops = e.loops ∧
      (u.thrOf a).vec = t.vec ∧ u.mem = s.mem ∧ u.vaults = s.vaults ∧ (∀ b, b ≠ a → u.thrOf b = s.thrOf b) ∧
      ((∀ w ∈ t.log, w.after < e.seq) → (u.thrOf a).csr = t.csr ∧ ∀ r, (u.thrOf a).getG r = t.getG r) ∧
      (∀ r v' b p n, t.log = [.reg n r v' b p] → e.seq ≤ n → r ≠ 0 → (u.thrOf a).getG r = v'))

/-- From R240, R241, R247 to R253: the matrix instructions of a thread with its claims. MCLAIM binds a zero tile, within the quota; MRELS
and MZERO wait for the tasks of their tile, then give it up or zero it; MTASK lists its 64-byte record with the next task number; MWAIT
goes on once the tasks up to its number, or of its tile, are done; MSTAT reads a tile's status, 0 where it is not claimed. An
accumulator that is not claimed, or may not be, raises ACCUMULATOR_FAULT. R251, R252: MRD and MWR dispatch like vector instructions that
execute alone, after their checks; once confirmed MRD writes the row of the tile into the elements of vd below VL, MWR the elements into
the tile. -/
def Obligations.MatrixInstructionResults : Prop :=
  (∀ (s : State) (c : BitVec 3) (a d : Reg) (k i : Nat), s.cur = .slot k i → s.nextOk → s.hasRoom 0 →
      let tiles := s.thr.acc
      let q := s.quad (k / 4)
      let mine := fun (x : Task) => x.core == k && x.slot == i
      let busy := ∃ x ∈ q.tasks, x.core = k ∧ x.slot = i ∧ x.target = c.toNat
      (s.canIssue [] [] true →
        (Tab.find? tiles c.toNat = none → tiles.length < s.thr.accQuota →
          exec (.mclaim c) s = .next ((s.setThr { s.thr with acc := Tab.set tiles c.toNat {} }).complete s.cur)) ∧
        (Tab.find? tiles c.toNat ≠ none ∨ s.thr.accQuota ≤ tiles.length →
          exec (.mclaim c) s = .next (s.trapTurn .accumulatorFault (BitVec.ofNat 64 c.toNat))) ∧
        (Tab.find? tiles c.toNat = none → ∀ x ∈ [Instr.mrels c, .mzero c, .mwaitAcc c],
          exec x s = .next (s.trapTurn .accumulatorFault (BitVec.ofNat 64 c.toNat))) ∧
        (Tab.find? tiles c.toNat ≠ none → busy → ∀ x ∈ [Instr.mrels c, .mzero c, .mwaitAcc c], exec x s = .next s.parkTurn) ∧
        (Tab.find? tiles c.toNat ≠ none → ¬ busy →
          exec (.mrels c) s = .next ((s.setThr { s.thr with acc := Tab.erase tiles c.toNat }).complete s.cur) ∧
          exec (.mzero c) s = .next ((s.setThr { s.thr with acc := Tab.set tiles c.toNat {} }).complete s.cur) ∧
          exec (.mwaitAcc c) s = .next (s.complete s.cur))) ∧
      (s.canIssue [a] [] true →
        let v := (s.operand [a] 0).toNat
        let open_ := ∃ x ∈ q.tasks, x.core = k ∧ x.slot = i ∧ (v % 2 ^ 32 + 2 ^ 32 - x.seq) % 2 ^ 32 < 2 ^ 31
        ((v = 0 ∨ ¬ open_) → exec (.mwait a) s = .next ((s.opened [a]).complete s.cur)) ∧
        (v ≠ 0 → open_ → exec (.mwait a) s = .next s.parkTurn)) ∧
      (s.canIssue [] [d] true →
        (Tab.find? tiles c.toNat = none → exec (.mstat c d) s = .next (s.writes [] d 0)) ∧
        (∀ x, Tab.find? tiles c.toNat = some x →
          let pend := (q.tasks.filter (fun y => mine y && y.target == c.toNat)).length
          let bit := fun (b : Bool) (n : Nat) => if b then 2 ^ n else 0
          exec (.mstat c d) s = .next (s.writes [] d (BitVec.ofNat 64 (1 + bit (x.ty == some true) 1 + bit x.ty.isSome 2 + bit x.sat 3 +
            bit x.xerr 4 + bit x.band.isSome 5 + bit x.flt 6 + 256 * pend + 2 ^ 32 * (x.band.getD 0x3F800000).toNat))))) ∧
      (s.canIssue [a] [d] true →
        let p := s.operand [a] 0
        let off := p.toNat % 2 ^ 19
        let rec_ := (List.range 64).map (fun j => BitVec.ofNat 8 (s.spadRead k (s.crewOf k i) (off + j) 1))
        let n := if (s.thr.taskSeq + 1) % 2 ^ 32 = 0 then 1 else (s.thr.taskSeq + 1) % 2 ^ 32
        (∀ cs, s.checkPtr false p = some cs → exec (.mtask a d) s = .next (s.trapTurn cs p)) ∧
        (s.checkPtr false p = none → p.toNat / 2 ^ 61 ≠ 2 ∨ off % 64 ≠ 0 → exec (.mtask a d) s = .next (s.trapTurn .pointerFault p)) ∧
        (s.checkPtr false p = none → p.toNat / 2 ^ 61 = 2 → off % 64 = 0 → (q.tasks.filter (fun x => x.core == k)).length < 16 →
          s.thr.vecStoresOut = false → s.poison = [] → s.flawed = [] →
          (∀ x, s.recordFault k i p rec_ = some x → exec (.mtask a d) s = .next (s.trapTurn x.1 x.2)) ∧
          (s.recordFault k i p rec_ = none → ((s.crewOf k i).phys off).isSome = true →
            exec (.mtask a d) s = .next (((((s.opened [a]).setThr { s.thr with taskSeq := n }).setQuad (k / 4)
              { q with tasks := q.tasks ++ [{ core := k, slot := i, seq := n, record := rec_, origin := k }] }).putDst d (BitVec.ofNat 64 n) 3).complete
                s.cur))))) ∧
  ((∀ (s : State) (b va vd : Reg) (c : BitVec 3) (k i : Nat), s.cur = .slot k i → s.nextOk → s.hasRoom 0 → s.canIssue [b] [] false →
      let r : VOp := { major := 17, f5 := 5, va := c.toNat, vd := vd.toNat }
      let w : VOp := { major := 17, f5 := 6, va := va.toNat, vd := c.toNat }
      s.canDispatch k r false →
      (Tab.find? s.thr.acc c.toNat = none →
        exec (.mrd b c vd) s = .next (s.trapTurn .accumulatorFault (BitVec.ofNat 64 c.toNat)) ∧
        exec (.mwr b va c) s = .next (s.trapTurn .accumulatorFault (BitVec.ofNat 64 c.toNat))) ∧
      (Tab.find? s.thr.acc c.toNat ≠ none →
        let o := s.operand [b] 0
        let n := o.toNat
        let vl := s.thr.csr.vl.toNat % 2048
        let size := etSize (s.thr.csr.vtype.toNat % 16)
        let f := n / 2 ^ 6 % 32
        let ty := s.projectedType k i c.toNat
        let reads := n < 2 ^ 14 ∧ 64 * (n % 64) + vl ≤ 4096 ∧ f ≤ 13 ∧ (f ≠ 0 → fmtSize f size ≤ size) ∧ (f = 0 → size = 4 ∧ n < 2 ^ 11) ∧
          (ty = some true → n / 2 ^ 12 % 2 = 0) ∧ (2 ^ 13 ≤ n → 9 ≤ f)
        let fills := n < 2 ^ 8 ∧ 64 * (n % 64) + vl ≤ 4096 ∧ ty ≠ some (decide (n / 2 ^ 7 % 2 = 0))
        (reads → s.dispatches (.mrd b c vd) [b] r false none) ∧
        (¬ reads → exec (.mrd b c vd) s = .next (s.trapTurn .formatFault o)) ∧
        (fills → s.dispatches (.mwr b va c) [b] w false none) ∧
        (¬ fills → exec (.mwr b va c) s = .next (s.trapTurn .formatFault o)))) ∧
    (∀ (s : State) (k i : Nat) (e : VEntry), s.confirms k i e → e.op.major = 17 →
      let a := Actor.slot k i
      let o := e.scalar.toNat
      let row := o % 64
      (e.op.f5 = 5 → o / 64 % 32 = 0 → s.confirmsElems k i e (fun j => decide (j < e.vl))
        (fun j => ((Tab.get 0 (Tab.get {} (s.thrOf a).acc e.op.va : Tile).data (64 * row + j) : BitVec 32)).toNat)) ∧
      (e.op.f5 = 6 → ∃ t, exec (.vectorConfirm k i) s = .next t ∧ s.confirmed t k i e ∧
        (Tab.get {} (t.thrOf a).acc e.op.vd : Tile).ty = some (decide (o / 128 % 2 = 1)) ∧
        (∀ j, j / 64 < row → (Tab.get 0 (Tab.get {} (t.thrOf a).acc e.op.vd : Tile).data j : BitVec 32) =
          Tab.get 0 (Tab.get {} (s.thrOf a).acc e.op.vd : Tile).data j) ∧
        (e.et = 3 → o / 64 % 4 = 0 → ∀ j, j < e.vl → (Tab.get 0 (Tab.get {} (t.thrOf a).acc e.op.vd : Tile).data (64 * row + j) : BitVec 32) =
          BitVec.ofNat 32 (fp32.convert (.mode e.rm) (fp32.unpack ((s.thrOf a).vec.elem e.op.va j 4))).1) ∧
        (∀ n, n ≠ e.op.vd → Tab.find? (t.thrOf a).acc n = Tab.find? (s.thrOf a).acc n) ∧
        (t.thrOf a).vec = (s.thrOf a).vec ∧ (∀ r, (t.thrOf a).getG r = (s.thrOf a).getG r))))

/-- From R234, R241 to R246, R411: the tile engines. A free engine takes the next ready task, or one whose transfer failed ends with XERR
on its tile; a task that ends leaves its tile as R234, R235 and R238 compute it from the scratchpad, no other tile of the thread changed,
and is no longer listed; its reads outside the crew's rows are recorded. A chunk that disagrees again sets FLT, leaves CHECK_FAULT for the
MRD or MWR that waits for the tile, else pending, and taints the launch. A poisoned operand is consumed and the tile keeps its elements.
An INT32 tile of one chunk of 128 takes the clamped sum of products. -/
def Obligations.TileEngineEvents : Prop :=
  (∀ (s : State) (quad engine : Nat) (t : Task),
    let q := s.quad quad
    let a := Actor.slot t.core t.slot
    (engine < 2 → (∀ x ∈ q.tasks, x.engine ≠ some engine) → s.nextReady quad = some t →
      (t.waits = false ∨ (t.channel, t.xid) ∉ (s.core t.origin).xerrs → ∃ u, exec (.tileTaskStart quad engine) s = .next u ∧
        (u.quad quad).tasks = q.tasks.map (fun x => if x == t then { x with engine := some engine } else x) ∧
        (u.quad quad).engineNext = (t.core % 4 + 1) % 4 ∧ (∀ b, u.thrOf b = s.thrOf b) ∧ s.unmoved u) ∧
      (t.waits = true → (t.channel, t.xid) ∈ (s.core t.origin).xerrs → ∃ u, exec (.tileTaskStart quad engine) s = .next u ∧
        t ∉ (u.quad quad).tasks ∧ s.unmoved u ∧
        (∀ x, Tab.find? (s.thrOf a).acc t.target = some x → Tab.find? (u.thrOf a).acc t.target = some { x with xerr := true }))) ∧
    (∀ bad x, q.tasks.find? (fun x => x.engine == some engine) = some t → s.poison = [] → s.flawed = [] →
      Tab.find? (s.thrOf a).acc t.target = some x → (x.bad = [] ∨ recOpc t.record ≠ 1) →
      let crew := s.crewOf t.core t.slot
      let rd := fun (off : Nat) => BitVec.ofNat 8 (s.spadRead t.core crew off 1)
      let inside := ∀ r ∈ taskRanges t.record, r.2 = 0 ∨ r.1 + r.2 ≤ 8192 * crew.rows
      (bad = 0 ∨ recCk t.record = false ∨ recOpc t.record = 2 → ∃ u, exec (.tileTaskComplete quad engine bad) s = .next u ∧
        t ∉ (u.quad quad).tasks ∧ Tab.find? (u.thrOf a).acc t.target = some { taskTile t.record rd x with bad := [] } ∧
        (∀ n, n ≠ t.target → Tab.find? (u.thrOf a).acc n = Tab.find? (s.thrOf a).acc n) ∧
        (u.thrOf a).vec = (s.thrOf a).vec ∧ (inside → (u.thrOf a).csr = (s.thrOf a).csr) ∧ s.unmoved u) ∧
      (2 ≤ bad → recCk t.record = true → recOpc t.record ≠ 2 → ∃ u : State, exec (.tileTaskComplete quad engine bad) s =
          .next (u.onLaunch t.core t.slot (fun l => { l with verdict := Nat.max l.verdict 2 })) ∧
        (∀ y ∈ (u.quad quad).tasks, ¬ (y.core = t.core ∧ y.slot = t.slot)) ∧
        (∃ y, Tab.find? (u.thrOf a).acc t.target = some y ∧ y.flt = true) ∧
        ((∀ e ∈ (s.thrOf a).vq, e.op.major ≠ 17) →
          (u.thrOf a).async = (s.thrOf a).async ++ [{ cause := .checkFault, tval := BitVec.ofNat 64 t.seq }] ∧ (u.thrOf a).vq = (s.thrOf a).vq) ∧
        (∀ e, (s.thrOf a).vq = [e] → e.stage = .queued → e.op.major = 17 → (e.op.f5 = 5 ∧ e.op.va = t.target ∨ e.op.f5 = 6 ∧ e.op.vd = t.target) →
          (u.thrOf a).vq = [{ e with trap := some (.checkFault, BitVec.ofNat 64 t.seq) }] ∧ (u.thrOf a).async = (s.thrOf a).async) ∧
        s.unmoved u)) ∧
    (∀ bad o, q.tasks.find? (fun x => x.engine == some engine) = some t → (s.thrOf a).run ≠ .swapping →
      (s.setQuad quad { q with tasks := q.tasks.filter (fun x => x != t) }).taskTested t.core t.slot (taskRanges t.record) = .error o →
      exec (.tileTaskComplete quad engine bad) s = .next
        ((s.setQuad quad { q with tasks := q.tasks.filter (fun x => x != t) }).consumePoison a (BitVec.ofNat 64 (2 ^ 62 + o))))) ∧
  (∀ (r : List Byte) (rd : Nat → Byte) (old row col : Nat), recOpc r = 0 → recField r 1 1 / 8 % 2 = 1 → recField r 8 4 = 128 →
    let dot := ((List.range 128).map (fun x => (operandA r).elem rd row x * (operandB r).elem rd col x)).sum
    (taskElem r rd old row col).1 = (BitVec.ofInt 32 (Max.max (-2147483648) (Min.min 2147483647 dot))).toNat)

/-- From R73, R254 to R268: mailboxes and copies at issue. MBPUT fills an empty mailbox with four registers, MBTAKE empties a full one into
four; each sees a change from the fourth F-cycle on. A copy by a thread that may not issue copies raises PRIVILEGE, a bad control word
FORMAT_FAULT; one that passes its checks, with fewer than eight incomplete on its channel, is handed to the engine under the channel's
next identifier, which it writes. XWAIT of a covered identifier goes on with an acquire at cluster scope, of another waits for the last
promise, and raises LATE_COPY once TB has reached it. -/
def Obligations.MailboxAndCopyInstructionResults : Prop :=
  ∀ (s : State) (mb : BitVec 2) (ch : BitVec 3) (a b d : Reg) (k i : Nat), s.cur = .slot k i → s.nextOk → s.hasRoom 0 →
    let box := Tab.get {} (s.core k).mbox mb.toNat
    let seen := ∀ f, box.since = some f → f + 4 ≤ s.now
    let four := fun (r : Reg) => [r, r + 1, r + 2, r + 3]
    let setBox := fun (o : State) (m : Mailbox) => o.setCore k { o.core k with mbox := Tab.set (o.core k).mbox mb.toNat m }
    (s.canIssue (four a) [] true → box.full = false → seen → exec (.mbput mb a) s = .next ((setBox (s.opened (four a))
      { words := s.operands (four a), full := true, crew := s.crewIdx k i, since := some s.now }).complete s.cur)) ∧
    (s.canIssue (four a) [] true → box.full = true ∨ ¬ seen → exec (.mbput mb a) s = .next s.parkTurn) ∧
    (s.canIssue [] (four d) true → box.full = true → seen → ∀ w0 w1 w2 w3, box.words = [w0, w1, w2, w3] → exec (.mbtake mb d) s =
      .next ((((((setBox s { box with full := false, since := some s.now }).putDst d w0 3).putDst (d + 1) w1 3).putDst
        (d + 2) w2 3).putDst (d + 3) w3 3).complete s.cur)) ∧
    (s.canIssue [] (four d) true → box.full = false ∨ ¬ seen → exec (.mbtake mb d) s = .next s.parkTurn) ∧
    (∀ x ∈ [(Instr.xcopy b a ch d, 0), (.xcopy2 b a ch d, 1), (.xpln b a ch d, 2), (.xfill b a ch d, 3), (.xred b a ch d, 4), (.xcoll b a ch d, 5)],
      let srcs := [a, a + 1, b, b + 1]
      let o := s.opened srcs
      let x0 := s.operand srcs 0
      let x1 := s.operand srcs 1
      let y0 := s.operand srcs 2
      let ctl := s.operand srcs 3
      let may := 1 ≤ s.privilege s.cur ∨ i = 15 ∧ (s.core k).xctl.toNat % 2 = 1
      let ok := ctl.toNat < 2 ^ 18 ∧ ctl.toNat % 8 ≤ 4 ∧ ctl.toNat / 8 % 8 ≤ 4 ∧ ¬ (ctl.toNat / 64 % 2 = 1 ∧ ctl.toNat / 2 ^ 11 % 32 = 0)
      let last := Tab.get 0 (s.core k).issued ch.toNat
      s.canIssue srcs [d] true →
      (¬ may → ∃ w, exec x.1 s = .next (s.trapTurn .privilege w)) ∧
      (may → ¬ ok → exec x.1 s = .next (s.trapTurn .formatFault ctl)) ∧
      (may → ok → ∀ c v, s.copyFault x.2 x0 x1 y0 = some (c, v) → exec x.1 s = .next (s.trapTurn c v)) ∧
      (may → ok → s.copyFault x.2 x0 x1 y0 = none → 8 ≤ (s.channel k ch.toNat).length → exec x.1 s = .next s.parkTurn) ∧
      (may → ok → s.copyFault x.2 x0 x1 y0 = none → (s.channel k ch.toNat).length < 8 → ((x.2 = 0 ∨ x.2 = 3 ∨ x.2 = 4) → y0 ≠ 0) →
        let xid : BitVec 32 := if last + 1 = 0 then 1 else last + 1
        let u := (o.startXfer x.2 ch.toNat x0 x1 y0 ctl).2
        exec x.1 s = .next ((u.putDst d (xid.setWidth 64) 3).complete s.cur) ∧
        Tab.get 0 (u.core k).issued ch.toNat = xid ∧
        (∃ c, (u.cluster (k / 16)).copies = (s.cluster (k / 16)).copies ++ [c] ∧ c.core = k ∧ c.slot = i ∧ c.ch = ch.toNat ∧ c.xid = xid ∧
          c.op = x.2 ∧ c.x0 = x0 ∧ c.x1 = x1 ∧ c.y0 = y0 ∧ c.ctl = ctl ∧ c.landed = false ∧ s.tb.toNat ≤ c.prom.toNat) ∧
        u.mem = s.mem ∧ (∀ r, u.thr.getG r = s.thr.getG r))) ∧
    (s.canIssue [a] [] true →
      let t : BitVec 32 := (s.operand [a] 0).setWidth 32
      (s.covered k ch.toNat t = true → s.owes s.cur Body.isLoad = false → s.thr.vecAccessesOut = false →
        exec (.xwait a ch) s = .next (((s.opened [a]).acquire k s.thr.csr.regmask 0 7).complete s.cur)) ∧
      (s.covered k ch.toNat t = false → s.thr.vals = [] → s.tb.toNat < lastPromise (s.upTo k ch.toNat t) →
        ∃ u, exec (.xwait a ch) s = .next u ∧ u.thr.parked = true ∧ u.thr.withdrawable = true ∧ u.thr.pc = s.thr.pc ∧ s.unmoved u) ∧
      (s.covered k ch.toNat t = false → s.thr.vals = [] → lastPromise (s.upTo k ch.toNat t) ≤ s.tb.toNat →
        ∃ (u : State) (v : Nat), exec (.xwait a ch) s = .next (u.trapTurn .lateCopy (BitVec.ofNat 64 v)) ∧ u.thr = s.thr))

/-- From R256, R257, R260, R263 to R267, R271, R276: the copy engine, step by step. A copy first checks a piece: one that passes may then be
read and written, one that fails stops the copy with its error kind and pointer. It reads its piece in beats inside one sector, from the
crew's scratchpad at once, elsewhere by a packet of its traffic class through the port of the core that issued it; an XFILL writes its
pattern. A copy that has written all is performed, and then completes: it is no longer listed, and XC_DONE of its channel follows. A
promise that TB has reached is renewed to a later one. A collective whose members have all contributed is combined in ascending order of
the members and sent to each, and a member that takes its result delivers it. -/
def Obligations.CopyEngineEvents : Prop :=
  (∀ (s : State) (cl id : Nat) (c : Copy), s.copy? cl id = some c →
    let at_ := fun (f : Nat → Nat → Word) (b : Nat) => f (b / c.rowBytes) (b % c.rowBytes)
    let runs := c.landed = false ∧ c.started = true ∧ c.coll ≠ 1
    let checks := runs ∧ c.op ≤ 1 ∧ c.upto ≤ c.rd ∧ c.limit ≤ c.next ∧ c.err = none ∧ c.upto ≠ c.total
    let n := s.pieceLen c c.upto
    let look := checkPieces s c [(at_ c.srcAt c.upto, n, 0), (at_ c.dstAt c.upto, n, 1)]
    let len := fun (p : Word) (b limit : Nat) => Min.min (limit - b) (Min.min (c.rowBytes - b % c.rowBytes) (128 - ptrOff p % 128))
    (checks → look = (.ok, 0) → ∃ t, exec (.copyPiece cl id) s = .next t ∧
      t.copy? cl id = some { c with first := c.upto, upto := c.upto + n } ∧ t.packets = s.packets ∧ s.unmoved t) ∧
    (∀ kind p, checks → look = (.err kind, p) → ∃ t, exec (.copyPiece cl id) s = .next t ∧
      t.copy? cl id = some { c with first := c.upto, rd := c.upto, buf := c.buf.take (c.upto - c.next), err := some (kind, p) } ∧
      t.packets = s.packets ∧ s.unmoved t) ∧
    (checks → look.1 = .wait → exec (.copyPiece cl id) s = .next s) ∧
    (let p := at_ c.srcAt c.rd
     let m := len p c.rd c.upto
     runs → c.op ≠ 2 → c.rd < c.upto → ptrPath p = 2 → ptrOff p + m ≤ 8192 * c.rows → 0 < m → s.poison = [] → s.flawed = [] →
      s.enginePacket (.copy cl c.id) = none →
      ∃ t, exec (.copyPiece cl id) s = .next t ∧ t.packets = s.packets ∧ s.unmoved t ∧
        t.copy? cl id = some { c with
          rd := c.rd + m, buf := c.buf ++ (List.range m).map (fun b => (s.core c.core).spad.byte (ptrOff p + 8192 * c.base + b)) }) ∧
    (∀ d, let p := at_ c.srcAt c.rd
      let m := len p c.rd c.upto
      runs → c.op ≠ 2 → c.rd < c.upto → s.pieceReach c p = .ok → s.copyReach c p m false = some d → s.engineTags cl < 64 →
      s.enginePacket (.copy cl c.id) = none →
      ∃ t q, exec (.copyPiece cl id) s = .next t ∧ t.packets = s.packets ++ [q] ∧ q.net = .req ∧ q.src = c.core ∧ q.dst = d ∧
        q.cls = c.cls ∧ q.ctx = c.ctx ∧ q.body = .engine (.copy cl c.id) m false ∧ t.copy? cl id = some c ∧ s.unmoved t) ∧
    (let p := at_ c.dstAt c.next
     let m := len p c.next c.limit
     runs → c.op = 3 → c.upto ≤ c.rd → c.next < c.limit → ptrPath p = 2 → ptrOff p + m ≤ 8192 * c.rows → 0 < m →
      s.enginePacket (.copy cl c.id) = none →
      ∃ t, exec (.copyPiece cl id) s = .next t ∧ t.copy? cl id = some { c with next := c.next + m, buf := c.buf.drop m } ∧
        (∀ x, x < m → (t.core c.core).spad.byte (ptrOff p + 8192 * c.base + x) = BitVec.ofNat 8 (c.x1.toNat / 256 ^ ((c.next + x) % 8))) ∧
        (∀ a, a < ptrOff p + 8192 * c.base ∨ ptrOff p + 8192 * c.base + m ≤ a → (t.core c.core).spad.byte a = (s.core c.core).spad.byte a) ∧
        (∀ k, k ≠ c.core → (t.core k).spad = (s.core k).spad) ∧ t.mem = s.mem ∧ t.vaults = s.vaults ∧ t.packets = s.packets) ∧
    (runs → c.op ≠ 2 → c.op ≠ 5 → c.upto ≤ c.rd → c.limit ≤ c.next → (c.err ≠ none ∨ c.upto = c.total) → c.mayOverlap = false →
      ∃ t, exec (.copyPiece cl id) s = .next t ∧ t.copy? cl id = some { c with landed := true } ∧ t.packets = s.packets ∧ s.unmoved t) ∧
    (c.landed = true → c.after ≤ s.now → c.ctl.toNat / 8 % 8 = 0 → c.ctl.toNat / 64 % 2 = 0 →
      (∀ y ∈ (s.cluster cl).copies, y.core = c.core → y.ch = c.ch → y.id = c.id) →
      ∃ t, exec (.copyComplete cl id) s = .next t ∧ t.copy? cl id = none ∧
        Tab.get 0 (t.core c.core).done c.ch = Tab.get 0 (s.core c.core).issued c.ch ∧ s.unmoved t) ∧
    (c.landed = false ∨ s.now < c.after → exec (.copyComplete cl id) s = .next s) ∧
    (c.prom.toNat ≤ s.tb.toNat → s.tb.toNat + 1 < 2 ^ 64 → ∃ t v, exec (.promiseRenewal cl id) s = .next t ∧
      t.copy? cl id = some { c with prom := v } ∧ s.tb.toNat < v.toNat ∧ s.unmoved t) ∧
    (s.tb.toNat < c.prom.toNat → exec (.promiseRenewal cl id) s = .next s) ∧
    (∀ g m, (Tab.get 0 s.groups g).toNat / 2 ^ 10 % 2 ^ 10 = 1 → s.contribs.find? (fun x => x.group == g && x.member == 0) = some m →
      m.cluster = cl → m.copy = id → collOp c.y0 ≤ 2 →
      ∃ t q, exec (.collectiveResult g) s = .next t ∧ t.packets = s.packets ++ [q] ∧ q.net = .rsp ∧ q.dst = c.core ∧ q.cls = c.cls ∧
        q.body = .collResult cl id m.bytes ∧ t.mem = s.mem ∧ t.cores = s.cores ∧ m ∉ t.contribs) ∧
    (∀ q bs, c.landed = false → c.started = true → c.op = 5 → c.coll = 1 →
      s.packets.find? (fun p => match p.body with | .collResult x y _ => x == cl && y == c.id | _ => false) = some q →
      q.body = .collResult cl c.id bs → s.ready q = true →
      ∃ t, exec (.copyPiece cl id) s = .next t ∧ s.unmoved t ∧
        t.copy? cl id = some (if bs = [] then { c with err := some (9, c.x0), landed := true }
          else { c with coll := 2, buf := bs, next := 0, upto := 0, rd := 0, first := 0 }))) ∧
  (∀ (s : State) (g : Nat) (m0 m1 : Contribution) (c0 c1 : Copy), (Tab.get 0 s.groups g).toNat / 2 ^ 10 % 2 ^ 10 = 2 →
    s.contribs.find? (fun x => x.group == g && x.member == 0) = some m0 → s.contribs.find? (fun x => x.group == g && x.member == 1) = some m1 →
    s.copy? m0.cluster m0.copy = some c0 → s.copy? m1.cluster m1.copy = some c1 →
    let bs := if c1.y0 ≠ c0.y0 then []
      else combineBytes (sumElem (collFmt c0.y0)) (fmtSize (collFmt c0.y0) 0) m0.bytes m1.bytes
    (collBytes c1.y0, collOp c1.y0, collFmt c1.y0, collRoot c1.y0) ≠ (collBytes c0.y0, collOp c0.y0, collFmt c0.y0, collRoot c0.y0) ∨
      c1.y0 = c0.y0 ∧ collOp c0.y0 = 0 →
    ∃ t q0 q1, exec (.collectiveResult g) s = .next t ∧ t.packets = s.packets ++ [q0, q1] ∧
      q0.dst = c0.core ∧ q0.body = .collResult m0.cluster m0.copy bs ∧ q1.dst = c1.core ∧ q1.body = .collResult m1.cluster m1.copy bs ∧
      t.mem = s.mem ∧ t.cores = s.cores)

/-- From R101, R286 to R295, R302: the message instructions. SEND takes a send-buffer entry and its message leaves for the home of its rank,
or at once for a pinned rank's place that the core has cached; a rank without a home leaves MESSAGE_NACK pending. SENDQ checks its
descriptor's pointers and fields, sends a request, and waits; with the answer there it sends its payload in packets of 288 bytes and goes
on. RECV takes the oldest message of a class bound to its slot that came in an earlier F-cycle, exit notices first in class 0; RPOLL
describes it; MCLASS binds or unbinds a class four F-cycles later; RANK reads the thread's rank. A class the thread may not use raises
PRIVILEGE; no room, or nothing to take, holds the thread. -/
def Obligations.MessageInstructionResults : Prop :=
  ∀ (s : State) (a b d : Reg) (n : BitVec 3) (cls : BitVec 4) (k i : Nat), s.cur = .slot k i → s.nextOk → s.hasRoom 0 →
    let c := s.core k
    let mayUse := (cls = 0 ∨ cls = 15) → 2 ≤ s.privilege s.cur
    (let srcs := a :: regRun b (n.toNat + 1)
     let rank := (s.operand srcs 0).toNat % 2 ^ 20
     let mine := fun (e : SendEntry) => e.slot = i ∧ e.ctx = s.thr.ctx ∧ e.rank = rank ∧ e.cls = cls.toNat ∧ e.words = (s.operands srcs).tail ∧
       e.fillReg = none ∧ e.sendq = none
     let free := c.sendbuf.length < 8 ∧ ∀ x ∈ c.sendbuf, x.id ≠ s.nextId ∧ ¬ (x.slot = i ∧ x.rank = rank)
     s.canIssue srcs [] true →
      (¬ mayUse → ∃ w, exec (.send b a n cls) s = .next (s.trapTurn .privilege w)) ∧
      (mayUse → 8 ≤ c.sendbuf.length → ∃ t, exec (.send b a n cls) s = .next t ∧
        t.thr.parked = true ∧ t.thr.withdrawable = false ∧ t.thr.pc = s.thr.pc) ∧
      (mayUse → free → ∀ h, s.rankHome s.thr.ctx rank = some (s.pkg, h) → Tab.find? c.rankCache (homeKey s.thr.ctx rank) = none →
        ∃ t e q, exec (.send b a n cls) s = .next t ∧ s.goesOnly t ∧ (t.core k).sendbuf = c.sendbuf ++ [{ e with sent := true }] ∧ mine e ∧
          t.packets = s.packets ++ [q] ∧ q.net = (if k = h then .local else .msg) ∧ q.src = k ∧ q.dst = h ∧ q.body = .rankFetch k e) ∧
      (∀ w, mayUse → free → (∃ h, s.rankHome s.thr.ctx rank = some (s.pkg, h)) →
        Tab.find? c.rankCache (homeKey s.thr.ctx rank) = some w →
        ∃ t e q, exec (.send b a n cls) s = .next t ∧ s.goesOnly t ∧ (t.core k).sendbuf = c.sendbuf ++ [{ e with sent := true }] ∧ mine e ∧
          t.packets = s.packets ++ [q] ∧ q.src = k ∧ q.dst = coordCore w ∧ q.body = .msg k e (coordSlot w) false) ∧
      (mayUse → free → s.rankHome s.thr.ctx rank = none → s.slotBound k i = true →
        ∃ t, exec (.send b a n cls) s = .next t ∧ s.goesOnly t ∧ t.packets = s.packets ∧ (t.core k).sendbuf = c.sendbuf ∧
          t.thr.async = s.thr.async ++ [{ cause := .messageNack, tval := nackWord rank cls.toNat 1 }])) ∧
    (let q := c.classQ cls.toNat
     let bound := c.boundTo cls.toNat = some i
     let noNotice := cls ≠ 0 ∨ c.notices = []
     let run := regRun d (n.toNat + 1)
     let put := fun (c' : Core) (ws : List Word) =>
       (((s.setCore k c').putDsts run ((List.range (n.toNat + 1)).map (fun x => ws.getD x 0)) 3).complete s.cur)
     let old := (q.filter (fun m => decide (m.came < s.now))).length
     (s.canIssue [] run true →
      (¬ bound → ∃ w, exec (.recv cls n d) s = .next (s.trapTurn .privilege w)) ∧
      (bound → noNotice → (∀ m, q.head? = some m → s.now ≤ m.came) → exec (.recv cls n d) s = .next s.parkTurn) ∧
      (∀ m l, bound → noNotice → q = m :: l → m.came < s.now → exec (.recv cls n d) s = .next (put (c.setClassQ cls.toNat l) m.words)) ∧
      (∀ w l, bound → cls = 0 → c.notices = w :: l → exec (.recv cls n d) s = .next (put { c with notices := l } [w]))) ∧
     (s.canIssue [] [d] true →
      (¬ bound → ∃ w, exec (.rpoll cls d) s = .next (s.trapTurn .privilege w)) ∧
      (bound → noNotice → (∀ m, q.head? = some m → s.now ≤ m.came) → exec (.rpoll cls d) s = .next (s.writes [] d 0)) ∧
      (∀ m l, bound → noNotice → q = m :: l → m.came < s.now →
        exec (.rpoll cls d) s = .next (s.writes [] d (BitVec.ofNat 64 (2 ^ 63 + old * 2 ^ 32 + (if m.q then 2 ^ 24 else 0) +
          (m.words.length - 1) * 2 ^ 20 + m.sender)))) ∧
      (∀ w l, bound → cls = 0 → c.notices = w :: l →
        exec (.rpoll cls d) s = .next (s.writes [] d (BitVec.ofNat 64 (2 ^ 63 + (old + l.length + 1) * 2 ^ 32)))))) ∧
    (s.canIssue [a] [] true →
      let w := (s.operand [a] 0).toNat
      let slot := if w / 32 % 2 = 1 then i else w % 16
      let others := ∃ x, c.boundTo cls.toNat = some x ∧ x ≠ i
      let pend := fun (on : Bool) => .next (((s.opened [a]).setCore k { (s.opened [a]).core k with
        pend := c.pend ++ [(s.now + 4, .bind cls.toNat slot on)] }).complete s.cur)
      ((cls = 0 ∨ cls = 15) → ∃ x, exec (.mclass cls a) s = .next (s.trapTurn .privilege x)) ∧
      (cls ≠ 0 → cls ≠ 15 → w / 16 % 2 = 1 → (i = 0 ∨ ¬ others) → exec (.mclass cls a) s = pend false) ∧
      (cls ≠ 0 → cls ≠ 15 → w / 16 % 2 = 0 → (i = 0 ∨ slot = i ∧ ¬ others) → c.boundTo cls.toNat ≠ some slot →
        exec (.mclass cls a) s = pend true) ∧
      (cls ≠ 0 → cls ≠ 15 → w / 16 % 2 = 0 → (i = 0 ∨ slot = i) → c.boundTo cls.toNat = some slot →
        exec (.mclass cls a) s = .next ((s.opened [a]).complete s.cur)) ∧
      (cls ≠ 0 → cls ≠ 15 → i ≠ 0 → (others ∨ w / 16 % 2 = 0 ∧ slot ≠ i) → ∃ x, exec (.mclass cls a) s = .next (s.trapTurn .privilege x))) ∧
    (s.canIssue [] [d] true → exec (.rank d) s = .next (s.writes [] d
      (if s.thr.csr.rank.toNat / 2 ^ 21 % 2 = 1 then BitVec.ofNat 64 (s.thr.csr.rank.toNat % 2 ^ 20) else -1))) ∧
    (s.canIssue [a, b] [] true →
      let ptr := s.operand [a, b] 1
      (¬ mayUse → ∃ w, exec (.sendq b a cls) s = .next (s.trapTurn .privilege w)) ∧
      (∀ x, mayUse → s.checkPtr false ptr = some x → exec (.sendq b a cls) s = .next (s.trapTurn x ptr)) ∧
      (mayUse → s.checkPtr false ptr = none → 3 ≤ ptr.toNat / 2 ^ 61 → exec (.sendq b a cls) s = .next (s.trapTurn .pointerFault ptr)) ∧
      (∀ desc, mayUse → s.checkPtr false ptr = none → ptr.toNat / 2 ^ 61 ≤ 2 → s.threadRead k i ptr 32 = .ok desc →
        let src := BitVec.ofNat 64 (recField desc 0 8)
        let dst := BitVec.ofNat 64 (recField desc 8 8)
        let len := recField desc 16 2
        let rank := (s.operand [a, b] 0).toNat % 2 ^ 20
        let good := 0 < len ∧ len ≤ 4096 ∧ dst.toNat / 2 ^ 61 = 0 ∧ src.toNat / 2 ^ 61 ≤ 2 ∧ recField desc 20 12 = 0
        (∀ x, s.checkPtr false src = some x → exec (.sendq b a cls) s = .next (s.trapTurn x src)) ∧
        (∀ x, s.checkPtr false src = none → s.checkPtr true dst = some x → exec (.sendq b a cls) s = .next (s.trapTurn x dst)) ∧
        (s.checkPtr false src = none → s.checkPtr true dst = none → ¬ good → exec (.sendq b a cls) s = .next (s.trapTurn .formatFault ptr)) ∧
        (s.checkPtr false src = none → s.checkPtr true dst = none → good → 8 ≤ c.sendbuf.length → ∃ t, exec (.sendq b a cls) s = .next t ∧
          t.thr.parked = true ∧ t.thr.withdrawable = false ∧ t.thr.pc = s.thr.pc) ∧
        (s.checkPtr false src = none → s.checkPtr true dst = none → good → c.sendbuf.length < 8 →
          (∀ x ∈ c.sendbuf, x.id ≠ s.nextId ∧ ¬ (x.slot = i ∧ x.rank = rank)) → ∀ h, s.rankHome s.thr.ctx rank = some (s.pkg, h) →
          Tab.find? c.rankCache (homeKey s.thr.ctx rank) = none → ∃ t e q, exec (.sendq b a cls) s = .next t ∧ t.thr.stage = 3 ∧
            t.thr.parked = true ∧ t.thr.pc = s.thr.pc ∧ t.thr.vals = s.operands [a, b] ∧ t.mem = s.mem ∧
            (t.core k).sendbuf = c.sendbuf ++ [{ e with sent := true }] ∧ e.slot = i ∧ e.rank = rank ∧ e.cls = cls.toNat ∧ e.src = src ∧
            e.sendq = some (dst, len, recField desc 18 2) ∧ t.packets = s.packets ++ [q] ∧ q.src = k ∧ q.dst = h ∧ q.body = .rankFetch k e))) ∧
    (∀ w ptr, s.thr.stage = 3 → s.thr.vals = [w, ptr] → mayUse →
      (s.sendqAnswer = none → ∃ t, exec (.sendq b a cls) s = .next t ∧ t.thr.stage = 3 ∧ t.thr.parked = true ∧ t.thr.pc = s.thr.pc ∧
        t.packets = s.packets ∧ s.unmoved t) ∧
      (∀ e q slot ctx bytes, s.thr.saveAt = none → s.sendqAnswer = some (e, q, slot, ctx) →
        s.threadRead k i e.src (e.sendq.getD (0, 0, 0)).2.1 = .ok bytes →
        ∃ t, exec (.sendq b a cls) s = .next t ∧ s.goesOnly t ∧
          t.packets.map Packet.body = (s.packets.filter (fun x => x.id != q.id)).map Packet.body ++
            (List.range ((bytes.length + 287) / 288)).map (fun j => Body.sendqData k e slot ctx ((bytes.drop (288 * j)).take 288)
              (288 * j, decide (j + 1 = (bytes.length + 287) / 288)))))

/-- From R282 to R285, R298 to R302: ranks and migration. RKSET sends the write of a rank's entry home, waits, and goes on when it is done;
MIGR resolves its rank, and parks while the home's entry is fetched: to the own core it goes on, to another it departs with its thread, or
raises MIGRATION_FAULT where the thread may not leave and MESSAGE_NACK where the rank names no thread. At a home, DEPART puts the entry in
transit and sends the token, the token comes back, ARRIVE brings the new place, and with both the entry is written; what returns or arrives
meanwhile is kept in order. A migrant is forwarded by the home, and at the rank's core installed in a slot of COR_MIGSLOT, buffered, or
refused. -/
def Obligations.RankAndMigrationResults : Prop :=
  (∀ (s : State) (a b : Reg) (k i : Nat), s.cur = .slot k i → s.nextOk → s.hasRoom 0 →
    (s.canIssue [a, b] [] true → 1 ≤ s.privilege s.cur →
      let rank := (s.operand [a, b] 0).toNat % 2 ^ 20
      let w := s.operand [a, b] 1
      let bad := 2 ^ 24 ≤ w.toNat ∨ w.toNat / 2 ^ 23 = 1 ∧ (191 < coordPkg w ∨ coordSlot w = 0)
      (bad → exec (.rkset b a) s = .next (s.trapTurn .formatFault w)) ∧
      (¬ bad → s.rankHome s.thr.ctx rank = none → exec (.rkset b a) s = .next (s.trapTurn .messageNack (BitVec.ofNat 64 (rank + 2 ^ 24)))) ∧
      (∀ h, ¬ bad → s.rankHome s.thr.ctx rank = some (s.pkg, h) → ∃ t q, exec (.rkset b a) s = .next t ∧ t.thr.stage = 1 ∧
        t.thr.parked = true ∧ t.thr.pc = s.thr.pc ∧ t.packets = s.packets ++ [q] ∧ q.src = k ∧ q.dst = h ∧ q.body = .entryWrite rank w)) ∧
    (s.canIssue [a, b] [] true → s.privilege s.cur < 1 → ∃ w, exec (.rkset b a) s = .next (s.trapTurn .privilege w)) ∧
    (s.thr.stage = 1 → 1 ≤ s.privilege s.cur → s.owesEntry = false → exec (.rkset b a) s = .next (s.complete s.cur)) ∧
    (s.canIssue [a] [] true →
      let rank := (s.operand [a] 0).toNat % 2 ^ 20
      (∀ h, s.rankHome s.thr.ctx rank = some (s.pkg, h) → h ≠ k → Tab.find? (s.core k).rankCache (homeKey s.thr.ctx rank) = none →
        (s.opened [a]).rankAnswer rank = none → (s.opened [a]).rankAsked rank = false →
        ∃ t q, exec (.migr a) s = .next t ∧ t.thr.parked = true ∧ t.thr.pc = s.thr.pc ∧ t.packets = s.packets ++ [q] ∧ q.net = .msg ∧
          q.src = k ∧ q.dst = h ∧ q.owner = some s.cur ∧ q.body = .rankAsk rank ∧ s.unmoved t) ∧
      (∀ o : State,
        ((s.opened [a]).resolves rank .nowhere o → exec (.migr a) s = .next (s.trapTurn .messageNack (BitVec.ofNat 64 (rank + 2 ^ 24)))) ∧
        ((s.opened [a]).resolves rank .moving o → exec (.migr a) s = .next s.parkTurn) ∧
        (∀ j, (s.opened [a]).resolves rank (.here k j) o → ∃ t, exec (.migr a) s = .next t ∧ s.goesOnly t ∧ t.packets = o.packets) ∧
        (∀ c j m, (s.opened [a]).resolves rank (.here c j) o → c ≠ k → o.departBar k i = some m →
          exec (.migr a) s = .next (s.trapTurn .migrationFault (BitVec.ofNat 64 m))) ∧
        (∀ c j, (s.opened [a]).resolves rank (.here c j) o → c ≠ k → o.departBar k i = none → o.departReady s.cur = false →
          ∃ t, exec (.migr a) s = .next t ∧ t.thr.stage = 4 * (c + 1) ∧ t.thr.parked = true ∧ t.thr.pc = s.thr.pc ∧ s.unmoved t) ∧
        (∀ c j u, (s.opened [a]).resolves rank (.here c j) o → c ≠ k → o.departBar k i = none → o.departReady s.cur = true →
          o.leaveTurn = .over u → exec (.migr a) s = .next (u.depart k i c rank s.thr.seqNext.1 s.thr.seqNext.2.1))))) ∧
  (∀ (s : State) (k i target bound : Nat) (pc : BitVec 53) (loops : List LoopLevel),
    let t := s.depart k i target bound pc loops
    let src := s.thrOf (.slot k i)
    (t.thrOf (.slot k i)).run = .swapping ∧
    ∃ ps m leg, t.packets.map Packet.body = ps ++ [.depart (src.csr.rank.toNat % 2 ^ 20) k, .migrant m bound leg] ∧ m.source = k ∧ m.srcSlot = i ∧
      m.target = target ∧ m.thr.pc = pc ∧ m.thr.loops = loops ∧ m.thr.csr.tbmask = 0 ∧ m.thr.csr.tbmaskx = 0 ∧
      (∀ r, r ≠ 0 → m.thr.getG r = if src.csr.migmask.getLsbD r.toNat then src.getG r else 0)) ∧
  (∀ (s : State) (id : Nat) (p : Packet) (rank : Nat), s.arrived? id = some p →
    let h := s.homeEntry p.dst p.ctx rank
    let kept := h.returned = [] ∧ h.held = [] ∧ h.writes = []
    (∀ k, p.body = .depart rank k → ∃ t q, exec (.homeDepart id) s = .next t ∧
      t.homeEntry p.dst p.ctx rank =
        { h with transit := true, tokens := h.tokens + 1, arrived := h.arrived.filter (fun w => coordCore w != k) } ∧
      t.packet? id = some q ∧ q.body = .token rank p.dst ∧ q.dst = k ∧ t.mem = s.mem) ∧
    (∀ home, p.body = .token rank home → ∃ t q, exec (.drainTokenAtSource id) s = .next t ∧ t.packet? id = some q ∧ q.body = .tokenBack rank ∧
      q.dst = home ∧ t.cores = s.cores ∧ t.mem = s.mem) ∧
    (∀ w, p.body = .arrive rank w → h.transit = false ∨ h.tokens ≠ 0 → ∃ t, exec (.homeArrive id) s = .next t ∧
      t.homeEntry p.dst p.ctx rank = { h with arrived := some w } ∧ t.packet? id = none ∧ t.mem = s.mem) ∧
    (∀ w, p.body = .arrive rank w → h.transit = true → h.tokens = 0 → kept →
      ∃ t, exec (.homeArrive id) s = .next t ∧ t.homeEntry p.dst p.ctx rank = { word := w } ∧ t.packet? id = none ∧ t.mem = s.mem) ∧
    (∀ w, p.body = .tokenBack rank → h.transit = true → h.tokens = 1 → h.arrived = some w → kept →
      ∃ t, exec (.packetReturn id) s = .next t ∧ t.homeEntry p.dst p.ctx rank = { word := w } ∧ t.packet? id = none ∧ t.mem = s.mem) ∧
    (p.body = .tokenBack rank → h.arrived = none → ∃ t, exec (.packetReturn id) s = .next t ∧
      t.homeEntry p.dst p.ctx rank = { h with tokens := h.tokens - 1 } ∧ t.packet? id = none ∧ t.mem = s.mem) ∧
    (∀ k e slot, p.body = .msgReturn k e (some slot) → e.rank = rank → h.transit = true → ∃ t q, exec (.packetReturn id) s = .next t ∧
      t.homeEntry p.dst p.ctx rank = { h with returned := h.returned ++ [id] } ∧ t.packet? id = some q ∧ q.held = true ∧ t.mem = s.mem) ∧
    (∀ w, p.body = .entryWrite rank w → h.transit = false → w.toNat / 2 ^ 23 % 2 = 1 →
      ∃ t, exec (.homeEntryWrite id) s = .next t ∧ t.homeEntry p.dst p.ctx rank = { h with word := w } ∧ t.packet? id = none ∧ t.mem = s.mem) ∧
    (∀ w, p.body = .entryWrite rank w → h.transit = false → w.toNat / 2 ^ 23 % 2 = 0 →
      ∃ t, exec (.homeEntryWrite id) s = .next t ∧ t.homeEntry p.dst p.ctx rank = {} ∧ t.packet? id = none ∧ t.mem = s.mem) ∧
    (∀ w, p.body = .entryWrite rank w → h.transit = true → ∃ t q, exec (.homeEntryWrite id) s = .next t ∧
      t.homeEntry p.dst p.ctx rank = { h with writes := h.writes ++ [id] } ∧ t.packet? id = some q ∧ q.held = true ∧ t.mem = s.mem) ∧
    (∀ m, p.body = .migrant m rank 0 → h.transit = false → h.word.toNat / 2 ^ 23 % 2 = 1 → coordPkg h.word = s.pkg →
      ∃ t q, exec (.migrantArrival id) s = .next t ∧ t.packet? id = some q ∧ q.body = .migrant m rank 1 ∧ q.dst = coordCore h.word ∧
        t.cores = s.cores ∧ t.mem = s.mem) ∧
    (∀ m, p.body = .migrant m rank 0 → h.transit = true → h.held.length < 16 → ∃ t q, exec (.migrantArrival id) s = .next t ∧
      t.homeEntry p.dst p.ctx rank = { h with held := h.held ++ [id] } ∧ t.packet? id = some q ∧ q.held = true ∧ t.mem = s.mem) ∧
    (∀ m, p.body = .migrant m rank 1 → s.coreHasRank p.dst p.ctx rank = false → ∃ t q, exec (.migrantArrival id) s = .next t ∧
      t.packet? id = some q ∧ q.body = .migrant m rank 2 ∧ q.dst = p.src ∧ t.cores = s.cores ∧ t.mem = s.mem) ∧
    (∀ m leg, p.body = .migrant m rank leg → (leg = 3 ∨ leg = 1 ∧ s.coreHasRank p.dst p.ctx rank = true) →
      (∀ j, (s.core p.dst).arrivals = [] → s.migSlot p.dst = some j → m.source ≠ p.dst →
        ∃ t ps, exec (.migrantArrival id) s = .next t ∧ t.thrOf (.slot p.dst j) = { m.thr with uid := s.nextId } ∧
          t.slotBound p.dst j = true ∧ t.packets.map Packet.body = ps ++ [.arrive (m.thr.csr.rank.toNat % 2 ^ 20) (s.coordOf p.dst j)]) ∧
      ((s.core p.dst).arrivals = [] → s.migSlot p.dst = none → m.source ≠ p.dst →
        ∃ t, exec (.migrantArrival id) s = .next t ∧ (t.core p.dst).arrivals = [m] ∧ t.packet? id = none) ∧
      ((s.core p.dst).arrivals.length = 4 → ∃ t q, exec (.migrantArrival id) s = .next t ∧ t.packet? id = some q ∧ q.waiting = true ∧
        q.tries = p.tries + 1 ∧ q.after = s.now + 64 * 2 ^ Min.min p.tries 5 ∧ t.cores = s.cores ∧ t.mem = s.mem))) ∧
  (∀ (s : State) (k : Nat) (m : Migrant) (rest : List Migrant) (j : Nat), (s.core k).arrivals = m :: rest → s.migSlot k = some j →
    ∃ t ps, exec (.migrantInstall k) s = .next t ∧ (t.core k).arrivals = rest ∧ t.thrOf (.slot k j) = { m.thr with uid := s.nextId } ∧
      t.slotBound k j = true ∧ t.packets.map Packet.body = ps ++ [.arrive (m.thr.csr.rank.toNat % 2 ^ 20) (s.coordOf k j)])

/-- From R62, R265, R266, R285, R286, R288, R289, R291, R294 to R296, R326, R353: what messages, fills and SENDQ do on arrival. At the home a
packet is forwarded to the entry's coordinates, held in a transit, or refused where the entry is not valid; at its target it is queued with
its F-cycle and acknowledged, refused where the class is not bound to the slot or full, or sent back where the rank is not there; an
acknowledgement frees the send-buffer entry; a refusal of KIND 1 leaves MESSAGE_NACK pending, an early one of another KIND lets the message
wait; a fill writes its register when it is empty and sets it full, or waits in the fill buffer, and a copy's fill is applied for its owner
only, after an acquire. -/
def Obligations.MessageEvents : Prop :=
  (∀ (s : State) (id : Nat) (p : Packet), s.arrived? id = some p →
    let c := s.core p.dst
    let refused := fun (t : State) => ∃ q, t.packet? id = some q ∧ q.waiting = true ∧ q.tries = p.tries + 1 ∧
      q.after = s.now + 64 * 2 ^ Nat.min p.tries 5 ∧ t.cores = s.cores ∧ t.mem = s.mem
    (∀ k e, p.body = .toHome k e →
      let h := s.homeEntry p.dst p.ctx e.rank
      let v := h.word.toNat / 2 ^ 23 % 2 = 1
      (h.transit = false → v → coordPkg h.word = s.pkg → ∃ t q, exec (.homeForward id) s = .next t ∧ t.packet? id = some q ∧
        q.body = .msg k e (coordSlot h.word) true ∧ q.dst = coordCore h.word ∧ t.cores = s.cores ∧ t.mem = s.mem) ∧
      (h.transit = false → ¬ v → e.sendq = none → ∃ t q, exec (.homeForward id) s = .next t ∧ t.packet? id = some q ∧
        q.body = .msgRefuse e k 1 ∧ q.dst = k ∧ t.cores = s.cores ∧ t.mem = s.mem) ∧
      (h.transit = true → h.held.length < 16 → ∃ t q, exec (.homeForward id) s = .next t ∧ t.packet? id = some q ∧ q.held = true ∧
        t.homeEntry p.dst p.ctx e.rank = { h with held := h.held ++ [p.id] } ∧ t.mem = s.mem) ∧
      (h.transit = true → h.held.length = 16 → ∃ t q, exec (.homeForward id) s = .next t ∧ t.packet? id = some q ∧
        q.body = .msgRefuse e k 3 ∧ q.dst = k ∧ t.cores = s.cores ∧ t.mem = s.mem)) ∧
    (∀ k e, p.body = .rankFetch k e →
      let h := s.homeEntry p.dst p.ctx e.rank
      (h.transit = false → h.word.toNat / 2 ^ 22 % 4 = 3 → coordPkg h.word = s.pkg → ∃ t q, exec (.rankEntryFetch id) s = .next t ∧
        Tab.find? (t.core k).rankCache (homeKey p.ctx e.rank) = some h.word ∧ t.packet? id = some q ∧
        q.body = .msg k e (coordSlot h.word) false ∧ q.dst = coordCore h.word ∧ t.mem = s.mem) ∧
      (h.transit = false → h.word.toNat / 2 ^ 22 % 4 = 2 → coordPkg h.word = s.pkg → ∃ t q, exec (.rankEntryFetch id) s = .next t ∧
        t.packet? id = some q ∧ q.body = .msg k e (coordSlot h.word) true ∧ q.dst = coordCore h.word ∧ t.cores = s.cores ∧ t.mem = s.mem)) ∧
    (∀ rank, p.body = .rankAsk rank →
      let h := s.homeEntry p.dst p.ctx rank
      ∃ t q, exec (.rankEntryFetch id) s = .next t ∧ t.packet? id = some q ∧ q.body = .rankTold rank h.word h.transit ∧ q.dst = p.src ∧
        q.owner = p.owner ∧ t.cores = s.cores ∧ t.mem = s.mem) ∧
    (∀ k e, p.body = .msgReturn k e none → ∀ h, s.rankHome e.ctx e.rank = some (s.pkg, h) → ∃ t q, exec (.packetReturn id) s = .next t ∧
      Tab.find? (t.core k).rankCache (homeKey e.ctx e.rank) = none ∧ t.packet? id = some q ∧ q.body = .toHome k e ∧ q.dst = h ∧ t.mem = s.mem) ∧
    (∀ cls words, p.body = .hubMsg cls words →
      ((c.classQ cls).length + Tab.get 0 c.resv cls < 4 → ∃ t, exec (.messageArrival id) s = .next t ∧
        (t.core p.dst).classQ cls = c.classQ cls ++ [{ words := words, came := s.now }] ∧ t.packet? id = none ∧ s.unmoved t) ∧
      (4 ≤ (c.classQ cls).length + Tab.get 0 c.resv cls → ∃ t, exec (.messageArrival id) s = .next t ∧ refused t)) ∧
    (∀ k e slot via, p.body = .msg k e slot via → e.fillReg = none → e.sendq = none →
      (s.slotHasRank p.dst slot p.ctx e.rank = false → ∃ t q, exec (.messageArrival id) s = .next t ∧ t.packet? id = some q ∧
        q.body = .msgReturn k e (if via then some slot else none) ∧ q.dst = (if via then p.src else k) ∧ t.cores = s.cores ∧ t.mem = s.mem) ∧
      (s.slotHasRank p.dst slot p.ctx e.rank = true → ∀ kind, c.refuses e.cls slot = some kind → ∃ t q, exec (.messageArrival id) s = .next t ∧
        t.packet? id = some q ∧ q.body = .msgRefuse e k kind ∧ q.dst = k ∧ t.cores = s.cores ∧ t.mem = s.mem) ∧
      (s.slotHasRank p.dst slot p.ctx e.rank = true → c.refuses e.cls slot = none → ∃ t q, exec (.messageArrival id) s = .next t ∧
        (t.core p.dst).classQ e.cls = c.classQ e.cls ++ [{ sender := e.sender, words := e.words, came := s.now }] ∧
        t.packet? id = some q ∧ q.body = .msgAck e.id k ∧ q.dst = k ∧ s.unmoved t)) ∧
    (∀ k entry, p.body = .msgAck entry k → exec (.messageAck id) s = .next ((s.dropPacket id).freeEntry k entry)) ∧
    (∀ k e, p.body = .msgAck e.id k → e ∈ (s.core k).sendbuf → (∀ x ∈ (s.core k).sendbuf, x.id = e.id → x = e) →
      (∀ x ∈ (s.core k).sendbuf, x ≠ e → ¬ (x.slot = e.slot ∧ x.rank = e.rank)) → ∃ t, exec (.messageAck id) s = .next t ∧
        (t.core k).sendbuf = (s.core k).sendbuf.filter (fun x => x.id != e.id) ∧ t.packet? id = none ∧ s.unmoved t) ∧
    (∀ k e kind, p.body = .msgRefuse e k kind →
      (kind = 1 → exec (.messageRefusal id) s = .next (((s.dropPacket id).freeEntry k e.id).nack k e 1)) ∧
      (kind ≠ 1 → 7 ≤ p.tries → e.fillReg = none → e.sendq = none →
        exec (.messageRefusal id) s = .next (((s.dropPacket id).freeEntry k e.id).nack k e kind)) ∧
      (kind ≠ 1 → 7 ≤ p.tries → e.fillReg = none → e.sendq ≠ none → ∃ t q, exec (.messageRefusal id) s = .next t ∧ t.packet? id = some q ∧
        q.body = .sendqReply e.id k kind (BitVec.ofNat 64 (e.rank + kind * 2 ^ 56)) 0 0 ∧ t.cores = s.cores ∧ t.mem = s.mem) ∧
      (kind ≠ 1 → (p.tries < 7 ∨ e.fillReg ≠ none) → (∃ h, s.rankHome e.ctx e.rank = some (s.pkg, h)) →
        ∃ t, exec (.messageRefusal id) s = .next t ∧ refused t)) ∧
    (∀ k e slot via dst len tag, p.body = .msg k e slot via → e.sendq = some (dst, len, tag) → s.slotHasRank p.dst slot p.ctx e.rank = true →
      let ctx := (s.thrOf (.slot p.dst slot)).ctx
      (∀ kind, c.refuses e.cls slot = some kind → ∃ t q, exec (.sendqRequest id) s = .next t ∧ t.packet? id = some q ∧
        q.body = .msgRefuse e k kind ∧ q.dst = k ∧ t.cores = s.cores) ∧
      (∀ a l z, c.refuses e.cls slot = none → s.rangeFault ctx (ptrAddr dst) len 1 = some (a, 2, l, z) → ∃ t q v,
        exec (.sendqRequest id) s = .next t ∧ t.packet? id = some q ∧ q.body = .sendqReply e.id k 5 v 0 0 ∧ q.dst = k ∧ t.cores = s.cores) ∧
      (c.refuses e.cls slot = none → s.rangeFault ctx (ptrAddr dst) len 1 = none →
        ∃ t q, exec (.sendqRequest id) s = .next t ∧ Tab.get 0 (t.core p.dst).resv e.cls = Tab.get 0 c.resv e.cls + 1 ∧
          t.packet? id = some q ∧ q.body = .sendqReply e.id k 0 0 slot ctx ∧ q.dst = k ∧ s.unmoved t)) ∧
    (∀ entry k kind tval slot ctx e, p.body = .sendqReply entry k kind tval slot ctx → (s.core k).sendbuf.find? (fun e => e.id == entry) = some e →
      let a := Actor.slot k e.slot
      let waits := s.slotBound k e.slot = true ∧ (s.thrOf a).run = .issuing
      (waits → kind = 0 → ∃ t q, exec (.sendqReply id) s = .next t ∧ t.packet? id = some q ∧ q.held = true ∧ q.body = p.body ∧
        t.cores = s.cores ∧ s.unmoved t) ∧
      (waits → kind ≠ 0 → ∃ u : State, exec (.sendqReply id) s = .next (u.takeTrap a .sendqReject tval (u.thrOf a).pc false) ∧
        (u.thrOf a).stage = 0 ∧ (u.thrOf a).pc = (s.thrOf a).pc ∧ u.mem = s.mem ∧ (∀ r, (u.thrOf a).getG r = (s.thrOf a).getG r)) ∧
      (¬ waits → kind = 0 → ∃ t, exec (.sendqReply id) s = .next t ∧
        Tab.get 0 (t.core p.src).resv e.cls = Tab.get 0 (s.core p.src).resv e.cls - 1 ∧ s.unmoved t)) ∧
    (∀ k e slot ctx dst len tag bytes off last, p.body = .sendqData k e slot ctx bytes (off, last) → e.sendq = some (dst, len, tag) →
      let s1 := s.genWrite ctx (ptrAddr dst + off) bytes
      (last = false → ∃ t, exec (.sendqDelivery id) s = .next t ∧ t.mem = s1.mem ∧ t.packet? id = none ∧ t.cores = s1.cores) ∧
      (last = true → (s1.core p.dst).boundTo e.cls = some slot → ∃ t, exec (.sendqDelivery id) s = .next t ∧ t.mem = s1.mem ∧
        (t.core p.dst).classQ e.cls = (s1.core p.dst).classQ e.cls ++
          [{ sender := e.sender, q := true, words := [dst, BitVec.ofNat 64 (len + tag * 2 ^ 32), BitVec.ofNat 64 e.sender, 0], came := s.now }] ∧
        Tab.get 0 (t.core p.dst).resv e.cls = Tab.get 0 (s1.core p.dst).resv e.cls - 1 ∧
        (∀ q0, s1.packet? id = some q0 → ∃ q, t.packet? id = some q ∧ q.body = .msgAck e.id k))) ∧
    (∀ k e slot via r, p.body = .msg k e slot via → e.fillReg = some r → s.slotHasRank p.dst slot p.ctx e.rank = true →
      let a := Actor.slot p.dst slot
      let v := e.words.headD 0
      (∀ x ∈ c.fillbuf, ¬ (x.slot = slot ∧ x.reg = r)) → (s.thrOf a).mapped r = none →
      ((s.thrOf a).empty.getLsbD r.toNat = true → (s.thrOf a).pending.getLsbD r.toNat = false → r ≠ 0 → ∃ t q, exec (.fillArrival id) s = .next t ∧
        (t.thrOf a).getG r = v ∧ (t.thrOf a).full r = true ∧ (t.thrOf a).seenFull s.now r = false ∧
        (∀ x, x ≠ r → (t.thrOf a).getG x = (s.thrOf a).getG x) ∧ t.packet? id = some q ∧ q.body = .msgAck e.id k ∧ t.mem = s.mem) ∧
      ((s.thrOf a).empty.getLsbD r.toNat = false → c.fillbuf.length < 8 → ∃ t q, exec (.fillArrival id) s = .next t ∧
        (t.core p.dst).fillbuf = c.fillbuf ++ [{ slot := slot, reg := r, val := v }] ∧ t.packet? id = some q ∧ q.body = .msgAck e.id k ∧
        s.unmoved t) ∧
      ((s.thrOf a).empty.getLsbD r.toNat = false → c.fillbuf.length = 8 → ∃ t q, exec (.fillArrival id) s = .next t ∧
        t.packet? id = some q ∧ q.body = .msgRefuse e k 3 ∧ t.cores = s.cores)) ∧
    (∀ k f, p.body = .compFill k f → f.copy = true → s.fillOwner k f = false → (∀ x ∈ (s.core k).fillbuf, ¬ (x.slot = f.slot ∧ x.reg = f.reg)) →
      ∃ t, exec (.fillArrival id) s = .next t ∧ t.packet? id = none ∧ t.cores = s.cores ∧ s.unmoved t)) ∧
  (∀ (s : State) (k : Nat) (f : FillWait) (rest : List FillWait), (s.core k).fillbuf = f :: rest → f.reg ≠ 0 →
    let a := Actor.slot k f.slot
    (f.copy = true → s.fillOwner k f = false → ∃ t, exec (.fillBufferApply k) s = .next t ∧ (t.core k).fillbuf = rest ∧ s.unmoved t) ∧
    ((s.thrOf a).mapped f.reg = none → (s.thrOf a).empty.getLsbD f.reg.toNat = true → (s.thrOf a).pending.getLsbD f.reg.toNat = false →
      (f.copy = true → s.fillOwner k f = true) →
      ∃ t, exec (.fillBufferApply k) s = .next t ∧ (t.core k).fillbuf = rest ∧ (t.thrOf a).getG f.reg = f.val ∧ (t.thrOf a).full f.reg = true ∧
        (∀ x, x ≠ f.reg → (t.thrOf a).getG x = (s.thrOf a).getG x) ∧ t.mem = s.mem ∧ t.vaults = s.vaults))

/-- From R155, R159, R317, R318, R410: the atomics. In the crew's scratchpad a relaxed one is performed at issue and its reply, the old value
sign-extended, lands eight F-cycles later; outside the crew's rows it reads 0 and is noted. On a SYNC page it leaves for the home on SYN,
through VLT for the vault, through SPR for the core of the rank, where it waits for its answer; ATOMIC_AT_POINT performs it there, writes
only its bytes, and answers with the old value, or with the poison it met. One with release first releases, and is sent when that is
done; one with acquire waits for its result, then acquires. -/
def Obligations.AtomicResults : Prop :=
  (∀ (s : State) (scope : BitVec 2) (a b d : Reg) (ord : BitVec 2) (w : Bool) (k i : Nat), s.cur = .slot k i → s.nextOk → s.hasRoom 0 →
    ∀ x ∈ atomics scope b a ord w d,
      let srcs := if x.2 = 2 then [a, b, d] else [a, b]
      let n := if w then 8 else 4
      let v := (s.operand srcs 1).toNat % 2 ^ (8 * n)
      let cmp := (s.operand srcs 2).toNat % 2 ^ (8 * n)
      let dst := ((s.opened srcs).awaitDst d).1
      let sent := fun (from_ : State) (net : Net) (due : Option Nat) (b : Body) => ∃ t q, exec x.1 s = .next t ∧
        t.packets = from_.packets ++ [q] ∧ q.net = net ∧ q.src = k ∧ q.due = due ∧ q.body = b ∧ q.owner = some s.cur ∧ t.mem = s.mem ∧
        t.vaults = s.vaults ∧ (∀ r, t.thr.getG r = s.thr.getG r) ∧ t.thr.pc = s.thr.seqNext.1
      (s.canIssue srcs [d] true →
        (∀ c y, s.formPtr (s.operand srcs 0) 0 n true = .error (c, y) → exec x.1 s = .next (s.trapTurn c y)) ∧
        (∀ ptr, s.formPtr (s.operand srcs 0) 0 n true = .ok ptr →
          (∀ o, ord = 0 → ptr.toNat / 2 ^ 61 = 2 → (s.crewOf k i).phys (ptr.toNat % 2 ^ 19) = some o → s.poisoned 1 k o n = false → s.flawed = [] →
            let old := (s.core k).spad.readLE o n
            let new := atomicResult x.2 n old v cmp
            ∃ t q, exec x.1 s = .next t ∧
              (∀ j, j < n → (t.core k).spad.byte (o + j) = BitVec.ofNat 8 (new / 256 ^ j)) ∧
              (∀ p, p < o ∨ o + n ≤ p → (t.core k).spad.byte p = (s.core k).spad.byte p) ∧
              t.packets = s.packets ++ [q] ∧ q.due = some (s.now + 8) ∧ q.body = .load dst ptr n true none false (some (loaded true n old)) ∧
              t.mem = s.mem ∧ t.vaults = s.vaults ∧ (∀ r, t.thr.getG r = s.thr.getG r) ∧ t.thr.pc = s.thr.seqNext.1) ∧
          (ord = 0 → ptr.toNat / 2 ^ 61 = 2 → (s.crewOf k i).phys (ptr.toNat % 2 ^ 19) = none →
            sent s .local (some (s.now + 8)) (.load dst ptr n true none false (some 0))) ∧
          (∀ e, ptr.toNat / 2 ^ 61 = 0 → s.tlbLookup k s.thr.ctx (ptr.toNat % 2 ^ 53) = some e →
            s.allows e.leaf e.shift (ptr.toNat % 2 ^ 53) 2 = true → leafSync e.leaf = true →
            let acc : PAccess :=
              { pa := leafPa e.leaf e.shift (ptr.toNat % 2 ^ 53), n := n, region := leafRegion e.leaf, sync := true, ca := leafCA e.leaf }
            let body : Body := .atomic x.2 dst ptr n v cmp (some acc) scope.toNat ord.toNat
            (ord = 0 → sent s .syn none body) ∧
            (ord = 1 → ∃ t q, exec x.1 s = .next t ∧ t.thr.stage = 8 ∧ t.thr.parked = true ∧ t.thr.pc = s.thr.pc ∧ t.packets = s.packets ++ [q] ∧
              q.net = .syn ∧ q.body = body ∧ t.mem = s.mem) ∧
            (2 ≤ ord.toNat → ∀ u, (s.opened srcs).relTurn s.thr.csr.regmask scope.toNat 1 = .wait u → ∃ t, exec x.1 s = .next t ∧
              t.thr.stage = 1 ∧ t.thr.parked = true ∧ t.packets = u.packets ∧ t.mem = u.mem)) ∧
          (ord = 1 → ptr.toNat / 2 ^ 61 = 2 → s.poison = [] → ∃ t, exec x.1 s = .next t ∧ t.thr.stage = 8 ∧ t.thr.parked = true ∧
            t.thr.pc = s.thr.pc ∧ t.mem = s.mem) ∧
          (∀ c j o, ord.toNat ≤ 1 → ptr.toNat / 2 ^ 61 = 3 → (s.opened srcs).resolves (ptr.toNat / 2 ^ 33 % 2 ^ 20) (.here c j) o →
            ∃ t q, exec x.1 s = .next t ∧ t.thr.stage = 8 ∧ t.thr.parked = true ∧ t.thr.pc = s.thr.pc ∧ t.packets = o.packets ++ [q] ∧
              q.net = (if c = k then .local else .req) ∧ q.dst = c ∧ q.body = .spr 1 ptr n v x.2 cmp dst ∧ t.mem = s.mem) ∧
          (∀ o, ord.toNat ≤ 1 → ptr.toNat / 2 ^ 61 = 3 → (s.opened srcs).resolves (ptr.toNat / 2 ^ 33 % 2 ^ 20) .nowhere o →
            exec x.1 s = .next (s.trapTurn .scratchpadRefusal ptr)) ∧
          (ptr.toNat / 2 ^ 61 = 4 → (s.vaultGrant s.thr.ctx ptr n false && s.vaultGrant s.thr.ctx ptr n true) = false →
            exec x.1 s = .next (s.trapTurn .vaultFault ptr)) ∧
          (ord = 0 → ptr.toNat / 2 ^ 61 = 4 → s.vaultGrant s.thr.ctx ptr n false = true → s.vaultGrant s.thr.ctx ptr n true = true →
            sent s (if vaultOf ptr = k / 16 then .local else .req) none (.atomic x.2 dst ptr n v cmp none scope.toNat 0)))) ∧
      (∀ ptr, s.thr.stage = 8 → s.thr.saveAt = none → s.formPtr (s.thr.vals.getD 0 0) 0 n true = .ok ptr → s.owes s.cur Body.isLoad = false →
        s.thr.vecAccessesOut = false →
        let st := 1 ||| (if ptr.toNat / 2 ^ 61 = 0 then 1 else if ptr.toNat / 2 ^ 61 = 4 then 4 else 2)
        exec x.1 s = .next ((if ord.toNat % 2 = 1 then s.acquire k s.thr.csr.regmask scope.toNat st else s).complete s.cur)) ∧
      (∀ ptr e, ord = 2 → s.thr.stage = 1 → s.thr.arg = 6 → s.thr.saveAt = none → s.formPtr (s.thr.vals.getD 0 0) 0 n true = .ok ptr →
        ptr.toNat / 2 ^ 61 = 0 → s.tlbLookup k s.thr.ctx (ptr.toNat % 2 ^ 53) = some e →
        s.allows e.leaf e.shift (ptr.toNat % 2 ^ 53) 2 = true → leafSync e.leaf = true → s.fenceClear 1 = true → s.thr.async = [] →
        let acc : PAccess :=
          { pa := leafPa e.leaf e.shift (ptr.toNat % 2 ^ 53), n := n, region := leafRegion e.leaf, sync := true, ca := leafCA e.leaf }
        ∃ t, exec x.1 s = .next t ∧
          t.packets.map (fun q => (q.net, q.body)) = s.packets.map (fun q => (q.net, q.body)) ++
            [(.syn, .atomic x.2 (s.awaitDst d).1 ptr n ((s.thr.vals.getD 1 0).toNat % 2 ^ (8 * n)) ((s.thr.vals.getD 2 0).toNat % 2 ^ (8 * n))
              (some acc) scope.toNat 2)] ∧
          t.mem = s.mem ∧ t.vaults = s.vaults ∧ (∀ r, t.thr.getG r = s.thr.getG r) ∧ t.thr.pc = s.thr.seqNext.1)) ∧
  (∀ (s : State) (id : Nat) (p : Packet) (fn v cmp scope ord : Nat) (ptr : Word) (dst : Dest) (n : Nat),
    s.arrived? id = some p → s.orderClear p = true →
    (∀ acc, p.body = .atomic fn dst ptr n v cmp (some acc) scope ord → (acc.sync = true ∨ acc.ca = 2) →
      let old := s.mem.readLE acc.pa n
      (s.poison = [] → s.flawed = [] → ∃ t, exec (.atomicAtPoint id) s = .next t ∧
        (∀ j, j < n → t.mem.byte (acc.pa + j) = BitVec.ofNat 8 (atomicResult fn n old v cmp / 256 ^ j)) ∧
        (∀ x, x < acc.pa ∨ acc.pa + n ≤ x → t.mem.byte x = s.mem.byte x) ∧ t.vaults = s.vaults ∧ t.cores = s.cores ∧
        (∃ q, t.packet? id = some q ∧ q.body = .load dst ptr n true none false (some (loaded true n (old % 2 ^ (8 * n)))) ∧ q.dst = p.src)) ∧
      (acc.n = n → s.poisoned 0 0 acc.pa n = true → ∃ t q, exec (.atomicAtPoint id) s = .next t ∧ t.packet? id = some q ∧ q.body = .poison ptr ∧
        q.dst = p.src ∧ t.mem = s.mem ∧ t.cores = s.cores)) ∧
    (p.body = .atomic fn dst ptr n v cmp none scope ord → s.poison = [] → s.flawed = [] →
      let m : Memory := Tab.get [] s.vaults (vaultOf ptr)
      let off := ptr.toNat % 2 ^ 27
      let old := m.readLE off n
      ∃ t, exec (.atomicAtPoint id) s = .next t ∧
        (∀ j, j < n → (Tab.get [] t.vaults (vaultOf ptr) : Memory).byte (off + j) = BitVec.ofNat 8 (atomicResult fn n old v cmp / 256 ^ j)) ∧
        (∀ x, x < off ∨ off + n ≤ x → (Tab.get [] t.vaults (vaultOf ptr) : Memory).byte x = m.byte x) ∧
        (∀ x, x ≠ vaultOf ptr → Tab.get [] t.vaults x = Tab.get [] s.vaults x) ∧ t.mem = s.mem ∧ t.cores = s.cores ∧
        (∃ q, t.packet? id = some q ∧ q.body = .load dst ptr n true none false (some (loaded true n (old % 2 ^ (8 * n)))) ∧ q.dst = p.src))) ∧
  (∀ (fn n : Nat) (old v cmp : BitVec (8 * n)), n = 4 ∨ n = 8 →
    BitVec.ofNat (8 * n) (atomicResult fn n old.toNat v.toNat cmp.toNat) = atomicLeaves fn old v cmp)

/-- From R310 to R316, R320 to R328: the ordering instructions. ACQ, with the thread's loads landed, acquires and goes on; REL and FENCE
send what they order and wait, and go on once it is answered, their banks cleared; XFENCE goes on when its earlier class is done. QLOCK
and QWAIT send their request to the home of a SYNC page and wait, and go on with the answer; QUNLK goes on when the home has released,
and raises SYNC_FAULT where the lock is not the context's; BAR leaves once its generation is complete. TAKE empties its source, EMPTY
its register; WAITT waits for TB. -/
def Obligations.OrderingInstructionResults : Prop :=
  ∀ (s : State) (a b d : Reg) (st : BitVec 4) (scope : BitVec 2) (cond level : BitVec 3) (k i : Nat), s.cur = .slot k i → s.nextOk → s.hasRoom 0 →
    s.thr.saveAt = none → s.thr.runAhead = false →
    let idle := s.owes s.cur Body.isLoad = false ∧ s.thr.vecAccessesOut = false
    let waits := fun (x : Instr) (n : Nat) => ∃ t, exec x s = .next t ∧ t.thr.stage = n ∧ t.thr.parked = true ∧ t.thr.pc = s.thr.pc ∧
      t.mem = s.mem ∧ (∀ r, t.thr.getG r = s.thr.getG r)
    let goesOn := fun (x : Instr) => ∃ t, exec x s = .next t ∧ t.thr.stage = 0 ∧ t.thr.pc = s.thr.seqNext.1 ∧ t.mem = s.mem ∧ t.vaults = s.vaults ∧
      (∀ r, t.thr.getG r = s.thr.getG r)
    -- ACQ
    (s.canIssue [a] [] true → (idle → exec (.acq st a scope) s =
        .next (((s.opened [a]).acquire k (s.operand [a] 0) scope.toNat st.toNat).complete s.cur)) ∧
      (¬ idle → waits (.acq st a scope) 1)) ∧
    -- REL and FENCE
    (s.thr.arg = 0 → s.canIssue [a] [] true → waits (.rel st a scope) 1) ∧
    (s.thr.arg = 0 → s.canIssue [] [] true → waits (.fence st scope) 1) ∧
    (s.thr.stage = 1 → s.thr.arg = 6 → s.fenceClear st.toNat = true → s.thr.async = [] →
      goesOn (.rel st a scope) ∧ goesOn (.fence st scope) ∧
      (scope ≠ 0 → ∃ t, exec (.fence st scope) s = .next t ∧ t.thr.csr.tbmask = 0 ∧ t.thr.csr.tbmaskx.toNat % 2 ^ 16 = 0)) ∧
    (s.thr.stage = 1 → s.thr.arg = 6 → s.fenceClear st.toNat = false → waits (.rel st a scope) 1 ∧ waits (.fence st scope) 1) ∧
    -- XFENCE
    (s.canIssue [] [] true → a ≠ 0 → s.classDone a.toNat = true → (b ≠ 0 → exec (.xfence b a scope) s = .next (s.complete s.cur)) ∧
      (b = 0 → idle → exec (.xfence b a scope) s = .next ((s.acquire k s.thr.csr.regmask scope.toNat 7).complete s.cur))) ∧
    (s.canIssue [] [] true → s.classDone a.toNat = false → waits (.xfence b a scope) 1) ∧
    (s.thr.arg = 0 → s.canIssue [] [] true → a = 0 → waits (.xfence b a scope) 2) ∧
    (s.thr.stage = 2 → s.thr.arg = 6 → a = 0 → s.fenceClear 7 = true → s.thr.async = [] → (b = 0 → idle) → goesOn (.xfence b a scope)) ∧
    -- QLOCK, QUNLK, QWAIT
    (s.canIssue [a] [] true → ∀ ptr e, s.formPtr (s.operand [a] 0) 0 8 true = .ok ptr → ptr.toNat / 2 ^ 61 = 0 →
      s.tlbLookup k s.thr.ctx (ptr.toNat % 2 ^ 53) = some e → s.allows e.leaf e.shift (ptr.toNat % 2 ^ 53) 2 = true →
      (leafSync e.leaf = false → exec (.qlock a scope) s = .next (s.trapTurn .syncFault ptr) ∧
        exec (.qunlk a scope) s = .next (s.trapTurn .syncFault ptr)) ∧
      (leafSync e.leaf = true → s.orphan (leafPa e.leaf e.shift (ptr.toNat % 2 ^ 53)) = none → ∃ t, exec (.qlock a scope) s = .next t ∧ t.thr.stage = 1 ∧
        t.thr.parked = true ∧ t.packets.map (fun q => (q.net, q.body)) = s.packets.map (fun q => (q.net, q.body)) ++
          [(.syn, .lockReq (leafPa e.leaf e.shift (ptr.toNat % 2 ^ 53)) s.thr.ctx)]) ∧
      (leafSync e.leaf = true → s.thr.arg = 0 → waits (.qunlk a scope) 1)) ∧
    (s.thr.stage = 1 → s.thr.arg = 6 → s.fenceClear 1 = true → s.thr.async = [] → ∀ ptr e, s.formPtr (s.thr.vals.getD 0 0) 0 8 true = .ok ptr →
      ptr.toNat / 2 ^ 61 = 0 → s.tlbLookup k s.thr.ctx (ptr.toNat % 2 ^ 53) = some e → s.allows e.leaf e.shift (ptr.toNat % 2 ^ 53) 2 = true →
      leafSync e.leaf = true → ∃ t, exec (.qunlk a scope) s = .next t ∧ t.thr.stage = 4 ∧ t.thr.parked = true ∧
        t.packets.map (fun q => (q.net, q.body)) = s.packets.map (fun q => (q.net, q.body)) ++
          [(.syn, .lockRel (leafPa e.leaf e.shift (ptr.toNat % 2 ^ 53)) s.thr.ctx)]) ∧
    (s.thr.stage = 1 → idle → ∀ p, s.lockAnswer = some p →
      (s.dropPacket p.id).owes s.cur Body.isLoad = false →
      exec (.qlock a scope) s = .next (((s.dropPacket p.id).acquire k s.thr.csr.regmask scope.toNat 1).complete s.cur)) ∧
    (s.thr.stage = 4 → ∀ p pa ok, s.lockAnswer = some p → p.body = .lockReply pa ok →
      (ok = true → exec (.qunlk a scope) s = .next ((s.dropPacket p.id).complete s.cur)) ∧
      (ok = false → ∃ u : State, exec (.qunlk a scope) s = .next (u.trapTurn .syncFault (s.thr.vals.getD 0 0)) ∧
        u.packets = (s.dropPacket p.id).packets ∧ u.thr.csr.tbmask = BitVec.ofNat 64 s.thr.arg ∧
        u.thr.csr.tbmaskx = BitVec.ofNat 64 (s.thr.arg / 2 ^ 64) ∧ u.mem = s.mem ∧ (∀ r, u.thr.getG r = s.thr.getG r))) ∧
    (s.canIssue [a, b] [d] true → ∀ ptr e, s.formPtr (s.operand [a, b] 0) 0 8 false = .ok ptr → ptr.toNat / 2 ^ 61 = 0 →
      s.tlbLookup k s.thr.ctx (ptr.toNat % 2 ^ 53) = some e → s.allows e.leaf e.shift (ptr.toNat % 2 ^ 53) 0 = true → leafSync e.leaf = true → ∃ t, exec (.qwait b a cond d) s = .next t ∧
        t.thr.stage = 1 ∧ t.thr.parked = true ∧ t.thr.withdrawable = true ∧
        t.packets.map (fun q => (q.net, q.body)) = s.packets.map (fun q => (q.net, q.body)) ++
          [(.syn, .qwait (leafPa e.leaf e.shift (ptr.toNat % 2 ^ 53)) cond.toNat (s.operand [a, b] 1))]) ∧
    (s.thr.stage = 1 → ∀ id v, s.qwaitAnswer = some (id, v) →
      exec (.qwait b a cond d) s = .next (((s.dropPacket id).putDst d v 3).complete s.cur)) ∧
    -- BAR
    (s.thr.arg = 0 → s.canIssue [a] [] true → s.thr.barWait = none → s.myLaunch = none → waits (.bar a level) 1) ∧
    (s.thr.stage = 1 → s.thr.arg = 6 → s.fenceClear 7 = true → s.thr.async = [] → s.thr.barWait = none → s.myLaunch = none → idle →
      goesOn (.bar a level)) ∧
    (s.thr.stage = 5 → idle → exec (.bar a level) s =
      .next ((s.acquire k (s.thr.vals.getD 0 0) (if level.toNat = 2 then 1 else 0) 7).complete s.cur)) ∧
    (s.thr.stage = 2 → idle → ∀ lv gen r n, s.thr.barWait = some (lv, gen) → s.myInst = some (r, n) →
      gen < (n.bar level.toNat (s.thr.tidx.toNat / barSize r level.toNat)).1 → ∃ t, exec (.bar a level) s = .next t ∧ t.thr.barWait = none ∧
        t.thr.pc = s.thr.seqNext.1 ∧ t.mem = s.mem ∧ (∀ x, t.thr.getG x = s.thr.getG x)) ∧
    (s.thr.stage = 2 → ∀ lv gen r n, s.thr.barWait = some (lv, gen) → s.myInst = some (r, n) →
      (n.bar level.toNat (s.thr.tidx.toNat / barSize r level.toNat)).1 ≤ gen →
      n.barFull r level.toNat (s.thr.tidx.toNat / barSize r level.toNat) = false → waits (.bar a level) 2) ∧
    -- TAKE, FILL, EMPTY, WAITT
    (s.canIssue [a] [d] true →
      (a ≠ 0 → s.thr.mapped a = none → exec (.take a d) s = .next ((((s.setThr (s.thr.makeEmpty a)).putDst d (s.operand [a] 0) 3)).complete s.cur)) ∧
      (a = 0 ∨ s.thr.mapped a ≠ none → exec (.take a d) s = .next (s.writes [a] d (s.operand [a] 0)))) ∧
    (s.thr.stage = 0 → s.thr.mapped d ≠ none → ∃ w, exec (.empty d) s = .next (s.trapTurn .illegalInstruction w)) ∧
    (s.canIssue [] [d] true → s.thr.mapped d = none → exec (.empty d) s = .next ((s.setThr (s.thr.makeEmpty d)).complete s.cur)) ∧
    (s.canIssue [a] [] true →
      ((s.operand [a] 0).toNat ≤ s.now / 2 → s.now / 2 < 2 ^ 64 → exec (.waitt a) s = .next ((s.opened [a]).complete s.cur)) ∧
      (s.now / 2 < (s.operand [a] 0).toNat → exec (.waitt a) s = .next s.parkTurn)) ∧
    (s.canIssue [a, b] [] true →
      let rank := (s.operand [a, b] 0).toNat % 2 ^ 20
      let buf := (s.core k).sendbuf
      (buf.length < 8 → (∀ x ∈ buf, x.id ≠ s.nextId ∧ ¬ (x.slot = i ∧ x.rank = rank)) → ∀ h, s.rankHome s.thr.ctx rank = some (s.pkg, h) →
        Tab.find? (s.core k).rankCache (homeKey s.thr.ctx rank) = none →
        ∃ t e q, exec (.fill b a d) s = .next t ∧ s.goesOnly t ∧ (t.core k).sendbuf = buf ++ [{ e with sent := true }] ∧ e.slot = i ∧
          e.rank = rank ∧ e.words = [s.operand [a, b] 1] ∧ e.fillReg = some d ∧ t.packets = s.packets ++ [q] ∧ q.src = k ∧ q.dst = h ∧
          q.body = .rankFetch k e) ∧
      (8 ≤ buf.length → ∃ t, exec (.fill b a d) s = .next t ∧ t.thr.parked = true ∧ t.thr.withdrawable = false ∧ t.thr.pc = s.thr.pc))

/-- From R320 to R323: the home of a SYNC page. A free lock is granted at once and its word says so; a request of a held one waits in its
queue; a full table refuses. A release by the holder's context passes the lock to the longest-waiting request, or frees it and writes 0;
any other release answers with the failure. A QWAIT whose word meets its condition is answered with the word, another waits in the
table, and a full one refuses it. A refused request waits 64 × 2^(k − 1) F-cycles, at most 2^5 times 64, and RESEND sends it again
(R288, R320). -/
def Obligations.HomeLockAndWaitEvents : Prop :=
  (∀ (s : State) (id : Nat) (p : Packet), s.arrived? id = some p → s.orderClear p = true →
    let answers := fun (t : State) (i dest : Nat) (b : Body) => ∃ q, t.packet? i = some q ∧ q.body = b ∧ q.net = .syn ∧ q.dst = dest
    let refused := fun (x : Instr) => ∃ t q, exec x s = .next t ∧ t.packet? id = some q ∧ q.body = p.body ∧ q.waiting = true ∧
      q.tries = p.tries + 1 ∧ q.after = s.now + 64 * 2 ^ Nat.min p.tries 5 ∧ t.mem = s.mem ∧ t.locks = s.locks ∧ t.qwaits = s.qwaits
    let wordIs := fun (t : State) (pa v : Nat) => (∀ j, j < 8 → t.mem.byte (pa + j) = BitVec.ofNat 8 (v / 256 ^ j)) ∧
      (∀ x, x < pa ∨ pa + 8 ≤ x → t.mem.byte x = s.mem.byte x)
    (∀ pa c, p.body = .lockReq pa c →
      (s.locks.find? (fun l => l.pa == pa) = none → (s.locks.filter (fun l => l.slice == sliceOf p)).length < 128 →
        ∃ t, exec (.lockRequestHome id) s = .next t ∧ t.locks = s.locks ++ [{ pa := pa, slice := sliceOf p, holder := c }] ∧
          wordIs t pa (c % 4096 + 2 ^ 63) ∧ answers t id p.src (.lockReply pa true)) ∧
      (s.locks.find? (fun l => l.pa == pa) = none → 128 ≤ (s.locks.filter (fun l => l.slice == sliceOf p)).length →
        refused (.lockRequestHome id)) ∧
      (∀ l, s.locks.find? (fun l => l.pa == pa) = some l →
        let queued := ((s.locks.filter (fun x => x.slice == sliceOf p)).flatMap (fun x => x.waiters)).length
        (1024 ≤ queued → refused (.lockRequestHome id)) ∧
        (queued < 1024 → ∃ t q, exec (.lockRequestHome id) s = .next t ∧ t.mem = s.mem ∧ t.packet? id = some q ∧ q.held = true ∧
          q.body = p.body ∧ t.locks = s.locks.map (fun m => if m.pa = pa then { l with waiters := l.waiters ++ [(id, c)] } else m)))) ∧
    (∀ pa c, p.body = .lockRel pa c →
      (∀ l, s.locks.find? (fun l => l.pa == pa) = some l → l.holder = c →
        (∀ w c' rest q0, l.waiters = (w, c') :: rest → s.packet? w = some q0 → q0.body = .lockReq pa c' → ∃ t, exec (.lockReleaseHome id) s = .next t ∧
          t.locks = s.locks.map (fun m => if m.pa = pa then { l with holder := c', waiters := rest } else m) ∧
          wordIs t pa (c' % 4096 + Nat.min rest.length 65535 * 2 ^ 16 + 2 ^ 63) ∧ answers t w q0.src (.lockReply pa true) ∧
          answers t id p.src (.lockReply pa true)) ∧
        (l.waiters = [] → ∃ t, exec (.lockReleaseHome id) s = .next t ∧ t.locks = s.locks.filter (fun m => m.pa != pa) ∧ wordIs t pa 0 ∧
          answers t id p.src (.lockReply pa true))) ∧
      ((∀ l, s.locks.find? (fun l => l.pa == pa) = some l → l.holder ≠ c) → ∃ t, exec (.lockReleaseHome id) s = .next t ∧ t.locks = s.locks ∧
        t.mem = s.mem ∧ answers t id p.src (.lockReply pa false))) ∧
    (∀ pa cond v, p.body = .qwait pa cond v →
      let w := BitVec.ofNat 64 (s.mem.readLE pa 8)
      (qwaitMet cond w v = true → ∃ t, exec (.qwaitRequestHome id) s = .next t ∧ t.mem = s.mem ∧ t.qwaits = s.qwaits ∧
        answers t id p.src (.qwaitReply w)) ∧
      (qwaitMet cond w v = false → (s.qwaits.filter (fun x => x.slice == sliceOf p)).length < 256 → ∃ t q, exec (.qwaitRequestHome id) s = .next t ∧
        t.mem = s.mem ∧ t.qwaits = s.qwaits ++ [{ pkt := id, pa := pa, slice := sliceOf p, cond := cond, v := v }] ∧
        t.packet? id = some q ∧ q.held = true ∧ q.body = p.body) ∧
      (qwaitMet cond w v = false → 256 ≤ (s.qwaits.filter (fun x => x.slice == sliceOf p)).length → refused (.qwaitRequestHome id)))) ∧
  (∀ (s : State) (id : Nat) (p : Packet), s.packet? id = some p → p.waiting = true →
    (p.after ≤ s.now → ∃ t q, exec (.resend id) s = .next t ∧ t.packet? id = some q ∧ q.waiting = false ∧ q.body = p.body ∧ q.net = p.net ∧
      q.src = p.src ∧ q.dst = p.dst ∧ q.route = routeOf p.net p.src p.dst ∧ t.mem = s.mem ∧ t.cores = s.cores) ∧
    (s.now < p.after → exec (.resend id) s = .next s)) ∧
  (∀ (x v : Word), (qwaitMet 0 x v = true ↔ x = v) ∧ (qwaitMet 1 x v = true ↔ x ≠ v) ∧ (qwaitMet 2 x v = true ↔ x.toNat < v.toNat) ∧
    (qwaitMet 3 x v = true ↔ v.toNat ≤ x.toNat) ∧ (qwaitMet 4 x v = true ↔ x.toInt < v.toInt) ∧ (qwaitMet 5 x v = true ↔ v.toInt ≤ x.toInt))

/-- From R273, R274, R276 to R280: SWITCH_GRANT. A free output grants its one head packet, which moves one stage with AGE 0, its first flit in
the buffer behind the output; of two it grants the one whose AGE is 63, else the one of the calendar slot's class, else the lower class; a
tie goes to the input that the toggle names, and the toggle then names the loser. The pointer advances. Two AMOADDs of one SYNC word
combine where the switch has a free split entry, and at that switch of the reverse path their answer splits: the second takes the old
value with the first one's operand added, and the entry comes free. A fence probe is echoed behind its thread's earlier requests, and its
echo ends it (R313). -/
def Obligations.SwitchGrants : Prop :=
  (∀ (s : State) (out : Nat),
    let x : SwitchOut := Tab.get {} s.switches out
    let free := s.outFree out = true
    let grants := fun (w : Packet) (toggle : Nat) => (out < backBase ∨ w.parts = []) → ∃ t q, exec (.switchGrant out) s = .next t ∧
      t.packet? w.id = some q ∧ q.route = w.route.tail ∧ q.age = 0 ∧ q.body = w.body ∧ q.after = s.now + 1 ∧ q.worm.head? = some (out, 1) ∧
      Tab.get {} t.switches out = { x with ptr := (x.ptr + 1) % 16, busy := s.now + 1, toggle := toggle } ∧
      (∀ p, t.packet? p = none ↔ s.packet? p = none) ∧ t.mem = s.mem ∧ t.cores = s.cores
    let c := (s.calendarOf out).getD x.ptr 0
    (s.now < x.busy ∨ 2 ≤ x.used → exec (.switchGrant out) s = .next s) ∧
    (s.heads out = [] → exec (.switchGrant out) s = .next s) ∧
    (∀ i p, free → s.heads out = [(i, p)] → p.cls ≤ 3 → grants p x.toggle) ∧
    (∀ i p j q, free → i ≠ j → (s.heads out = [(i, p), (j, q)] ∨ s.heads out = [(j, q), (i, p)]) → combines p q = false →
      combines q p = false →
      (p.age = 63 → q.age ≠ 63 → grants p x.toggle) ∧
      (p.age ≠ 63 → q.age ≠ 63 → p.cls = c → q.cls ≠ c → grants p x.toggle) ∧
      (p.age ≠ 63 → q.age ≠ 63 → p.cls ≠ c → q.cls ≠ c → p.cls < q.cls → p.cls ≤ 3 → grants p x.toggle) ∧
      ((p.age = 63 ∧ q.age = 63) ∨ (p.age ≠ 63 ∧ q.age ≠ 63 ∧ p.cls = q.cls ∧ p.cls ≤ 3) → x.toggle = i → grants p j)) ∧
    (∀ i p j q d d' ptr ptr' n v v' cmp cmp' acc sc o, free → i < j → p.id ≠ q.id →
      (s.heads out = [(i, p), (j, q)] ∨ s.heads out = [(j, q), (i, p)]) →
      (Tab.get {} s.switches (outSwitch out) : SwitchOut).split < 2 → p.net = .syn → q.net = .syn → acc.sync = true →
      p.body = .atomic 0 d ptr n v cmp (some acc) sc o → q.body = .atomic 0 d' ptr' n v' cmp' (some acc) sc o →
      ∃ t m h, exec (.switchGrant out) s = .next t ∧ t.packet? p.id = some m ∧ t.packet? q.id = some h ∧
        m.body = .atomic 0 d ptr n ((v + v') % 2 ^ (8 * n)) cmp (some acc) sc o ∧ m.route = p.route.tail ∧ m.age = Nat.max p.age q.age ∧
        m.parts = p.parts ++ [(q.id, v, outSwitch out)] ∧ h.held = true ∧ h.body = q.body ∧ h.parts = q.parts ∧
        (Tab.get {} t.switches (outSwitch out) : SwitchOut).split = (Tab.get {} s.switches (outSwitch out) : SwitchOut).split + 1 ∧
        t.mem = s.mem) ∧
    (∀ i (p q : Packet) qid v0 d d' ptr ptr' n v v' cmp' sc o (a' : Option PAccess), free → backBase ≤ out → s.heads out = [(i, p)] → p.cls ≤ 3 →
      p.parts = [(qid, v0, (out - backBase) / 1024)] → qid ≠ p.id → s.packet? qid = some q →
      p.body = .load d ptr n true none false (some v) → q.body = .atomic 0 d' ptr' n v' cmp' a' sc o →
      ∃ t m h, exec (.switchGrant out) s = .next t ∧ t.packet? p.id = some m ∧ m.body = p.body ∧ m.parts = [] ∧ m.route = p.route.tail ∧
        t.packet? qid = some h ∧ h.body = .load d' ptr' n true none false (some (loaded true n ((v.toNat + v0) % 2 ^ (8 * n)))) ∧
        h.dst = q.src ∧ h.held = false ∧ t.mem = s.mem ∧ t.cores = s.cores)) ∧
  (∀ (s : State) (id : Nat) (p : Packet), s.arrived? id = some p → p.body = .probe →
    let ahead := fun (q : Packet) => q.net = p.net ∧ q.owner = p.owner ∧ q.src = p.src ∧ q.dst = p.dst ∧ q.id < p.id ∧
      (q.body.isGen = true ∨ q.body.isRo = true ∨ q.body.isVlt = true)
    (p.dst = p.core → exec (.fenceProbeEcho id) s = .next (s.dropPacket id)) ∧
    (p.dst ≠ p.core → (∀ q ∈ s.packets, ¬ ahead q) → ∃ t q, exec (.fenceProbeEcho id) s = .next t ∧ t.packet? id = some q ∧ q.body = .probe ∧
      q.dst = p.src ∧ q.net = (if p.net = .syn then .syn else .rsp) ∧ t.mem = s.mem ∧ t.cores = s.cores) ∧
    (p.dst ≠ p.core → (∃ q ∈ s.packets, ahead q) → exec (.fenceProbeEcho id) s = .next s))

/-- From R304 to R306: registration. Dirty words reach the next level, which merges exactly the words the mask names, names the sender as
its registrant, tells the one it replaces, and answers with the merged sector; the sender lays the answer to its
latest registration under what it has written since, and clears the dirty bits it sent. A deregistration notice clears the unit's owned bit and goes on to its own
registrant; the last one is acknowledged. -/
def Obligations.RegistrationEvents : Prop :=
  ∀ (s : State) (id : Nat) (p : Packet), s.arrived? id = some p → id < s.nextId →
    (∀ level unit line sec mask data region, p.body = .regis level unit line sec mask data region → Memory.wf data = true →
      s.registersBefore id level unit line sec = false → mask ≠ 0 →
      let base := 256 * line + 128 * sec
      ((level = 2 ∨ level = 1 ∧ s.homeDie (256 * line) = unit / 16) → ∃ t q, exec (.registration id) s = .next t ∧
        (∀ x, t.mem.byte x = if base ≤ x ∧ x < base + 128 ∧ mask.getLsbD ((x - base) / 4) = true then data.byte (x - base) else s.mem.byte x) ∧
        Tab.find? t.homeReg (2 * line + sec) = some (if level = 2 then 64 + unit else unit) ∧
        (∀ y, y ≠ 2 * line + sec → Tab.find? t.homeReg y = Tab.find? s.homeReg y) ∧ t.cores = s.cores ∧ t.clusters = s.clusters ∧
        t.packet? id = some q ∧ q.dst = p.src ∧ q.body = .regisReply level unit line sec mask (t.mem.slice base 128) ∧
        (∀ u l w, Tab.find? s.homeReg (2 * line + sec) = some u → u ≠ (if level = 2 then 64 + unit else unit) → registrantAt level u = some (l, w) →
          ∃ n ∈ t.packets, n.owner = p.owner ∧ n.body = .notice l w line sec)) ∧
      (∀ l, level = 0 → findLine (s.cluster (unit / 16)).cc line = some l → l.ro = false → (l.sec sec).valid = true →
        ∃ t q, exec (.registration id) s = .next t ∧ t.packet? id = some q ∧ q.dst = p.src ∧ t.mem = s.mem ∧
          (let y := t.sectorAt 1 (unit / 16) line sec
           y.reg = some unit ∧ y.dirty = (l.sec sec).dirty ||| mask ∧ y.valid = true ∧ q.body = .regisReply 0 unit line sec mask y.data ∧
           (∀ o, o < 128 → y.data.byte o = if mask.getLsbD (o / 4) = true then data.byte o else (l.sec sec).data.byte o)) ∧
          (∀ u, (l.sec sec).reg = some u → u ≠ unit → u ≠ copyUnit → ∃ n ∈ t.packets, n.owner = p.owner ∧ n.body = .notice 0 u line sec))) ∧
    (∀ level unit line sec mask data l, p.body = .regisReply level unit line sec mask data → findLine (s.linesAt level unit) line = some l →
      Memory.wf (l.sec sec).data = true → (l.sec sec).awaits = some id →
      let x := l.sec sec
      let keep := x.dirty &&& ~~~ (x.sent &&& mask)
      ∃ t, exec (.registrationReply id) s = .next t ∧ t.packet? id = none ∧ t.mem = s.mem ∧
        (let y := t.sectorAt level unit line sec
         y.valid = true ∧ y.dirty = keep ∧ y.owned = s.registeredTo level unit line sec ∧ y.region = x.region ∧ y.reg = x.reg ∧
         (∀ o, o < 128 → y.data.byte o = if keep.getLsbD (o / 4) = true then x.data.byte o else data.byte o))) ∧
    (∀ level unit line sec mask data, p.body = .regisReply level unit line sec mask data → (s.sectorAt level unit line sec).awaits ≠ some id →
      exec (.registrationReply id) s = .next (s.dropPacket id)) ∧
    (∀ level unit line sec mask data region, p.body = .regis level unit line sec mask data region →
      s.registersBefore id level unit line sec = true → exec (.registration id) s = .next s) ∧
    (∀ level unit line sec, p.body = .notice level unit line sec → p.net = .rsp → exec (.deregistrationNotice id) s = .next (s.dropPacket id)) ∧
    (∀ level unit line sec, p.body = .notice level unit line sec → p.net ≠ .rsp →
      let x := s.sectorAt level unit line sec
      let onward := if level = 0 then none else x.reg.bind (registrantAt (level - 1))
      ∃ t, exec (.deregistrationNotice id) s = .next t ∧ t.sectorAt level unit line sec = { x with owned := false } ∧ t.mem = s.mem ∧
        (onward = none → p.net = .local → t.packet? id = none) ∧
        (onward = none → p.net ≠ .local → ∃ q, t.packet? id = some q ∧ q.net = .rsp ∧ q.dst = p.src ∧ q.body = p.body) ∧
        (∀ l u, onward = some (l, u) → ∃ q, t.packet? id = some q ∧ q.body = .notice l u line sec))

/-- From R345, R346, R352: TSTART. The codes 1, 2, 4 and 3 change nothing else; an accepted record binds its slot to a thread with the state
of R346: pc at ENTRY, no loops, g1 to g4 from the record and every other register 0 where the launch has no strip, the CSRs that the
record gives and the others at reset; XFER names its crew in COR_XCTL four F-cycles later. A record with a rank waits for the entry's write, one with lane
groups for the grant, and then completes with 0. Below steward privilege it is a PRIVILEGE trap (R351). R351, R353 to R355, R357, R358,
R362, R172: TREAP, TKILL, TSTAT, TSELF, EXIT and RETIRE, and the lane allocator. A slot operand above 15 is a FORMAT_FAULT. TREAP
answers 2, 1 or 3 for a slot that is empty, issuing or halted by a trap, and 0 when it has freed a slot halted by EXIT, once its thread
owes nothing; TKILL frees any slot once nothing of the thread is on its way, and counts the kill at the launch. EXIT and RETIRE wait for
pending registers; EXIT halts the thread after its release and posts a notice, or retires where a successor is accepted. -/
def Obligations.ThreadStartAndControlResults : Prop :=
  (∀ (s : State) (a d : Reg) (k i : Nat), s.cur = .slot k i → s.nextOk → s.hasRoom 0 → s.thr.saveAt = none → s.thr.runAhead = false →
      let p := s.operand [a] 0
      let waits := fun (n : Nat) (t : State) => exec (.tstart a d) s = .next t ∧ t.thr.stage = n ∧ t.thr.parked = true ∧ t.thr.pc = s.thr.pc
      (i ≠ 0 → ∃ w, exec (.tstart a d) s = .next (s.trapTurn .privilege w)) ∧
      (i = 0 → s.canIssue [a] [d] true →
        (∀ c, s.checkPtr false p = some c → exec (.tstart a d) s = .next (s.trapTurn c p)) ∧
        (s.checkPtr false p = none → (p.toNat / 2 ^ 61 ≠ 0 ∨ p.toNat % 32 ≠ 0) → exec (.tstart a d) s = .next (s.trapTurn .pointerFault p)) ∧
        (∀ b, s.checkPtr false p = none → p.toNat / 2 ^ 61 = 0 → p.toNat % 32 = 0 → s.threadRead k 0 p 32 = .ok b →
          let r := startRec b
          let gives := fun (v : Word) => exec (.tstart a d) s = .next (s.writes [a] d v)
          ((r.slot = 0 ∨ s.slotBound k r.slot = true) → gives 1) ∧
          (r.slot ≠ 0 → s.slotBound k r.slot = false →
            (s.startInst k r = none → gives 2) ∧
            (∀ q l n, s.startInst k r = some (q, l, n) →
              let quota := (s.core k).slots.foldl (fun m t => m + t.2.accQuota) 0 + r.accs
              (r.bad = true → gives 2) ∧
              (r.bad = false → r.ranked = true → s.rankHome l.ctx (r.rankw % 2 ^ 20) = none → gives 4) ∧
              (r.bad = false → (r.ranked = true → s.rankHome l.ctx (r.rankw % 2 ^ 20) ≠ none) →
                (s.joinCrew k r l = none → gives 3) ∧
                (∀ idx cs, s.joinCrew k r l = some (idx, cs) →
                  (8 < quota → gives 3) ∧
                  (quota ≤ 8 → r.ranked = true → ∃ t, waits 1 t ∧ t.slotBound k r.slot = true ∧ (t.thrOf (.slot k r.slot)).arriving = true) ∧
                  (quota ≤ 8 → r.ranked = false → r.lanes ≠ 0 → ∃ t, waits 2 t ∧
                    (t.quad (k / 4)).laneWait = (s.quad (k / 4)).laneWait ++ [(k, r.slot, r.lanes)]) ∧
                  (quota ≤ 8 → r.ranked = false → r.lanes = 0 → ∃ t, exec (.tstart a d) s = .next t ∧ t.thr.pc = s.thr.seqNext.1 ∧
                    (d ≠ 0 → s.thr.mapped d = none → t.thr.getG d = 0) ∧
                    (let x := t.thrOf (.slot k r.slot)
                     x.pc.toNat = r.entry.toNat % 2 ^ 53 ∧ x.loops = [] ∧ x.run = .issuing ∧ x.arriving = false ∧ x.startCheck = true ∧
                     x.ctx = l.ctx ∧ x.crew = idx ∧ x.lead = r.lead ∧ x.empty = 0 ∧ x.pending = 0 ∧ x.accQuota = r.accs ∧ x.laneReq = 0 ∧
                     x.lid = BitVec.ofNat 32 r.lid ∧ x.tidx = BitVec.ofNat 32 r.tidx ∧ x.vec = {} ∧
                     x.getG 1 = l.lrec.arg ∧ x.getG 2 = BitVec.ofNat 64 r.tidx ∧ x.getG 3 = BitVec.ofNat 64 r.lid ∧
                     x.getG 4 = BitVec.ofNat 64 r.sfirst ∧ (l.strip = none → ∀ g : Reg, 5 ≤ g.toNat → x.getG g = 0) ∧
                     x.csr = { vl := startVl r.vlc, vlceil := BitVec.ofNat 64 (64 * r.vlc), strip := BitVec.ofNat 64 r.scount,
                               rank := BitVec.ofNat 64 (r.rankw % 2 ^ 22) }) ∧
                    (r.xfer = true → (s.now + 4, Pend.ten (some idx)) ∈ (t.core k).pend) ∧
                    (∀ j, j ≠ r.slot → j ≠ 0 → Tab.find? (t.core k).slots j = Tab.find? (s.core k).slots j) ∧
                    t.mem = s.mem ∧ t.vaults = s.vaults))))))) ∧
      (i = 0 → s.thr.stage = 1 → s.owesEntry = false → (s.thrOf (.slot k s.thr.arg)).laneReq = 0 →
        exec (.tstart a d) s = .next (((s.release_ k s.thr.arg true).putDst d 0 3).complete s.cur)) ∧
      (i = 0 → s.thr.stage = 1 → s.owesEntry = true → ∃ t, waits 1 t) ∧
      (i = 0 → s.thr.stage = 2 → (s.thrOf (.slot k s.thr.arg)).lanes ≠ [] →
        exec (.tstart a d) s = .next (((s.release_ k s.thr.arg true).putDst d 0 3).complete s.cur)) ∧
      (i = 0 → s.thr.stage = 2 → (s.thrOf (.slot k s.thr.arg)).lanes = [] → ∃ t, waits 2 t)) ∧
  ((∀ (s : State) (a d : Reg) (k i : Nat), s.cur = .slot k i → s.nextOk → s.hasRoom 0 → s.thr.saveAt = none → s.thr.runAhead = false →
      let v := s.operand [a] 0
      let j := v.toNat
      let waits := fun (x : Instr) (n : Nat) (t : State) => exec x s = .next t ∧ t.thr.stage = n ∧ t.thr.parked = true ∧ t.thr.pc = s.thr.pc
      let gives := fun (x : Instr) (w : Word) => exec x s = .next (s.writes [a] d w)
      let identity := fun (j : Nat) => 16 * s.crewIdx k j + 256 * boolNat (j == 15 && (s.core k).xctl.getLsbD 0) +
        512 * boolNat (s.thrOf (.slot k j)).lead + 2 ^ 32 * (s.thrOf (.slot k j)).lid.toNat
      (i ≠ 0 → ∀ x ∈ [Instr.treap a d, .tkill a, .tstat a d], ∃ w, exec x s = .next (s.trapTurn .privilege w)) ∧
      (i = 0 → 16 ≤ j → (s.canIssue [a] [d] true → exec (.treap a d) s = .next (s.trapTurn .formatFault v) ∧
        exec (.tstat a d) s = .next (s.trapTurn .formatFault v)) ∧ (s.canIssue [a] [] true → exec (.tkill a) s = .next (s.trapTurn .formatFault v))) ∧
      (i = 0 → j < 16 → s.canIssue [a] [d] true →
        ((j = 0 ∨ s.slotBound k j = false) → gives (.treap a d) 2) ∧
        (j ≠ 0 → s.slotBound k j = true →
          let x := s.thrOf (.slot k j)
          (x.run = .trapped → gives (.treap a d) 3) ∧
          (x.run ≠ .trapped → x.run ≠ .exited → gives (.treap a d) 1) ∧
          (x.run = .exited → s.owesNothing k j = false → ∃ t, waits (.treap a d) 1 t ∧ t.slotBound k j = true) ∧
          (x.run = .exited → s.owesNothing k j = true → ∃ t, exec (.treap a d) s = .next t ∧
            t = ((((s.opened [a]).freeSlot k j).putDst d 0 3).complete s.cur) ∧ t.slotBound k j = false ∧ t.thr.pc = s.thr.seqNext.1 ∧
            (∀ y, y ≠ j → y ≠ 0 → Tab.find? (t.core k).slots y = Tab.find? (s.core k).slots y) ∧
            (s.now + 4, Pend.slotGone j) ∈ (t.core k).pend ∧ (∀ f ∈ (t.core k).fillbuf, f.slot ≠ j) ∧
            (j = 15 → (s.now + 4, Pend.ten none) ∈ (t.core k).pend) ∧
            (∀ c, s.instAt k x = none → (∀ y ∈ (s.core k).slots, y.1 ≠ j → ¬ (y.2.crew = x.crew ∧ y.2.lid = x.lid ∧ y.2.ord = x.ord)) →
              Tab.find? (s.core k).crews x.crew = some c → Tab.find? (t.core k).crews x.crew = none ∧
                (s.now + 4, Pend.crewGone x.crew c.qmask) ∈ (t.core k).pend ∧
                ∀ o, 8192 * c.base ≤ o → o < 8192 * c.base + 8192 * c.rows → (t.core k).spad.byte o = 0))) ∧
        (s.slotBound k j = false → gives (.tstat a d) 0) ∧
        (s.slotBound k j = true → gives (.tstat a d) (BitVec.ofNat 64 ((if j = 0 then 1 else (s.thrOf (.slot k j)).stateCode) + identity j)))) ∧
      (i = 0 → s.thr.stage = 1 → let j := (s.thr.vals.getD 0 0).toNat
        j ≠ 0 → j < 16 → s.slotBound k j = true → (s.thrOf (.slot k j)).run = .exited → s.owesNothing k j = true →
        exec (.treap a d) s = .next (((s.freeSlot k j).putDst d 0 3).complete s.cur)) ∧
      (i = 0 → j < 16 → s.canIssue [a] [] true →
        ((j = 0 ∨ s.slotBound k j = false) → exec (.tkill a) s = .next ((s.opened [a]).complete s.cur)) ∧
        (j ≠ 0 → s.slotBound k j = true → (s.thrOf (.slot k j)).run ≠ .killed → (s.thrOf (.slot k j)).run ≠ .swapping →
          let q := (((s.opened [a]).countKill k j).unholdOf k j).quench k j
          (q.killQuiet k j = true → ∃ t, exec (.tkill a) s = .next t ∧ t = (q.freeSlot k j).complete s.cur ∧ t.slotBound k j = false ∧
            t.thr.pc = s.thr.seqNext.1) ∧
          (q.killQuiet k j = false → ∃ t, waits (.tkill a) 1 t ∧ (t.thrOf (.slot k j)).run = .killed ∧ (t.thrOf (.slot k j)).async = []) ∧
          (∀ p l t, s.partOfCore k = some p → s.launch? p (s.thrOf (.slot k j)).lid.toNat = some l →
            (∀ n ∈ l.insts, n.num = instOf l.lrec (s.thrOf (.slot k j)).tidx.toNat → n.killed.contains (s.thrOf (.slot k j)).tidx.toNat = false) →
            exec (.tkill a) s = .next t → ∃ m, t.launch? p l.lid = some m ∧ m.killed = l.killed + 1 ∧ m.status = 1 ∧ m.verdict = l.verdict))) ∧
      (i = 0 → s.thr.stage = 1 → let j := (s.thr.vals.getD 0 0).toNat
        j ≠ 0 → j < 16 → s.slotBound k j = true → (s.thrOf (.slot k j)).run = .killed → s.killQuiet k j = true →
        exec (.tkill a) s = .next ((s.freeSlot k j).complete s.cur)) ∧
      (s.canIssue [] [d] true → exec (.tself d) s = .next ((s.putDst d (BitVec.ofNat 64 (i + identity i + 1024 * k)) 3).complete s.cur)) ∧
      -- EXIT and RETIRE
      (s.canIssue [] [] true → s.thr.pending ≠ 0 → ∀ x ∈ [Instr.exit, .retire],
        exec x s = .next (s.setThr { s.thr with parked := true, withdrawable := false, landing := false })) ∧
      (s.canIssue [] [] true → s.thr.pending = 0 → s.thr.arg = 0 → ∃ t, waits .exit 1 t ∧ t.thr.run = s.thr.run ∧ t.mem = s.mem) ∧
      (s.thr.stage = 1 → s.thr.arg = 6 → s.thr.pending = 0 → s.fenceClear 7 = true → s.thr.async = [] →
        (s.hasSuccessor = false → ∃ t, exec .exit s = .next t ∧ t.thr.run = .exited ∧ t.thr.pc = s.thr.pc ∧ t.mem = s.mem ∧
          (i ≠ 0 → i < 16 → ∃ w ∈ (t.core k).notices, w.toNat % 16 = i)) ∧
        (s.hasSuccessor = true → ∃ t, exec .exit s = .next t ∧ t.thr.run = .retiring ∧ (t.core k).notices = (s.core k).notices ∧ t.mem = s.mem)) ∧
      (s.canIssue [] [] true → s.thr.pending = 0 → ∃ t, exec .retire s = .next t ∧ t.thr.run = .retiring ∧ t.thr.pc = s.thr.pc ∧ t.mem = s.mem ∧
        (∀ r, t.thr.getG r = s.thr.getG r))) ∧
    (∀ (c : Core) (i idx n crew : Nat) (qmask : BitVec 8),
      (∀ x, x ≠ 0 → x ≠ 15 → Tab.find? (c.commitPend (.slotGone i)).bind x ≠ some i) ∧
      (c.commitPend (.ten (some idx))).xctl = BitVec.ofNat 64 (1 + 2 * idx) ∧ (c.commitPend (.ten none)).xctl.getLsbD 0 = false ∧
      (∀ w ∈ (c.commitPend (.crewGone crew qmask)).win, w.2.toNat / 2 ^ 36 % 16 ≠ crew) ∧
      (n < 8 → qmask.getLsbD n = true → Tab.find? (c.commitPend (.crewGone crew qmask)).queues n = none)) ∧
    (∀ (s : State) (quad k i n : Nat) (rest : List (Nat × Nat × Nat)), (s.quad quad).laneWait = (k, i, n) :: rest →
      let free := s.freeLanes quad
      let grants := fun (gs : List Nat) => ∃ t, exec (.laneGrant quad) s = .next t ∧ (t.quad quad).laneWait = rest ∧
        (t.thrOf (.slot k i)).lanes = gs ∧ t.mem = s.mem ∧ (∀ r, (t.thrOf (.slot k i)).getG r = (s.thrOf (.slot k i)).getG r)
      (∀ g, n = 1 → g < 4 → g ∈ free → (∀ h, h < g → h ∉ free) → grants [g]) ∧
      (n = 2 → 0 ∈ free → 1 ∈ free → grants [0, 1]) ∧
      (n = 2 → ¬ (0 ∈ free ∧ 1 ∈ free) → 2 ∈ free → 3 ∈ free → grants [2, 3]) ∧
      (n = 4 → 0 ∈ free → 1 ∈ free → 2 ∈ free → 3 ∈ free → grants [0, 1, 2, 3]) ∧
      (laneGrant free n = none → exec (.laneGrant quad) s = .next s) ∧
      (laneGrant free 1 = none ↔ ∀ g, g < 4 → g ∉ free) ∧
      (laneGrant free 2 = none ↔ ¬ (0 ∈ free ∧ 1 ∈ free) ∧ ¬ (2 ∈ free ∧ 3 ∈ free)) ∧
      (laneGrant free 4 = none ↔ ¬ (0 ∈ free ∧ 1 ∈ free ∧ 2 ∈ free ∧ 3 ∈ free))))

/-- From R359 to R361, R342: LAUNCH and SUCC. LAUNCH releases, then hands its record over and writes the LID the launch gets, which rises by
one and skips 0; a record that passes its checks is queued. SUCC sends its answer to its register: the status of the first failing
check, or 0 with the successor's LID in bits 63 to 32; the successor is then held in the task graph. Their pointers are checked first.
R342, R416: LAUNCH_RING_READ takes the record at CONSUMED of the interface's ring, gives it the next LID and, where its checks pass and
an image is eligible, queues it; R340, R341, R430: LAUNCH_ADMIT admits the oldest admissible launch of the calendar's priority, else of
the lowest priority with one, and debits its ENERGY; R344, R345: INSTANCE_PLACE places an instance whole and sends each of its threads a
start record; R347, R348: COMPLETION_RECORD_WRITE writes the 32 bytes of the record of a launch that is done, and settles the account. -/
def Obligations.LaunchResults : Prop :=
  ((∀ (s : State) (a d : Reg) (k i : Nat), s.cur = .slot k i → s.nextOk → s.hasRoom 0 → s.thr.saveAt = none → s.thr.runAhead = false →
      (s.canIssue [a] [d] true →
        let p := s.operand [a] 0
        (∀ c, s.checkPtr false p = some c → exec (.launch a d) s = .next (s.trapTurn c p) ∧ exec (.succ a d) s = .next (s.trapTurn c p)) ∧
        (s.checkPtr false p = none →
          ((p.toNat / 2 ^ 61 ≠ 0 ∨ p.toNat % 64 ≠ 0) → exec (.launch a d) s = .next (s.trapTurn .pointerFault p)) ∧
          ((p.toNat / 2 ^ 61 ≠ 0 ∧ p.toNat / 2 ^ 61 ≠ 2 ∨ p.toNat % 32 ≠ 0) → exec (.succ a d) s = .next (s.trapTurn .pointerFault p)) ∧
          (p.toNat / 2 ^ 61 = 0 → p.toNat % 64 = 0 → s.thr.arg = 0 → s.owes s.cur Body.isLoad = false → s.thr.vecAccessesOut = false →
            ∃ t, exec (.launch a d) s = .next t ∧ t.thr.stage = 1 ∧ t.thr.parked = true ∧ t.thr.pc = s.thr.pc ∧ t.mem = s.mem) ∧
          (∀ b, (p.toNat / 2 ^ 61 = 0 ∨ p.toNat / 2 ^ 61 = 2) → p.toNat % 32 = 0 → s.threadRead k i p 32 = .ok b →
            let sends := fun (w : Word) (t : State) => exec (.succ a d) s = .next t ∧
              t.packets.map Packet.body = s.packets.map Packet.body ++ [.succ ((s.opened [a]).awaitDst d).1 w] ∧ t.thr.pc = s.thr.seqNext.1 ∧
              t.mem = s.mem ∧ t.vaults = s.vaults ∧ (∀ r, t.thr.getG r = s.thr.getG r)
            (s.instAt k s.thr = none → ∃ t, sends 3 t) ∧
            (∀ q l n, s.instAt k s.thr = some (q, l, n) →
              let failing := fun (st : Nat) => ∃ t, sends (BitVec.ofNat 64 st) t ∧ t.parts = s.parts
              (s.thr.lead = false → failing 3) ∧
              (s.thr.lead = true → (l.lrec.sflags % 2 = 0 ∨ l.lrec.count ≠ 1) → failing 4) ∧
              (s.thr.lead = true → l.lrec.sflags % 2 ≠ 0 → l.lrec.count = 1 →
                (n.succLid ≠ none → failing 2) ∧
                (n.succLid = none → s.succMalformed s.thr.ctx b = true → failing 5) ∧
                (n.succLid = none → s.succMalformed s.thr.ctx b = false → s.succMismatch l n b = true → failing 1) ∧
                (n.succLid = none → s.succMalformed s.thr.ctx b = false → s.succMismatch l n b = false → s.graphRoom q ≠ none →
                  let lid := lidOf ((s.part q).lastLid + 1)
                  lid ≠ l.lid → ∃ t m, sends (BitVec.ofNat 64 (lid * 2 ^ 32)) t ∧ (t.part q).lastLid = (s.part q).lastLid + 1 ∧ m ∈ (t.part q).graph ∧
                    m.lid = lid ∧ m.phase = .held ∧ m.pred = some l.lid ∧ m.prio = l.prio ∧ m.lrec.sflags = l.lrec.sflags ∧
                    m.lrec.cplt = l.lrec.cplt ∧ m.lrec.shape = l.lrec.shape % 4 ∧ m.lrec.threads = recField b 19 1 ∧ m.entry.toNat = recField b 0 8 % 2 ^ 64)))))) ∧
      (s.thr.stage = 1 → s.thr.arg = 6 → s.fenceClear 1 = true → s.thr.async = [] →
        let p := s.thr.vals.getD 0 0
        ∀ b q u, s.checkPtr false p = none → p.toNat / 2 ^ 61 = 0 → p.toNat % 64 = 0 → s.threadRead k i p 64 = .ok b → s.partOfCore k = some q →
          s.graphRoom q = some u →
          let lid := lidOf ((s.part q).lastLid + 1)
          ∃ t, exec (.launch a d) s = .next t ∧ t.thr.pc = s.thr.seqNext.1 ∧ (t.part q).lastLid = (s.part q).lastLid + 1 ∧
            (d ≠ 0 → s.thr.mapped d = none → t.thr.getG d = BitVec.ofNat 64 lid) ∧ (∀ r, r ≠ d → t.thr.getG r = s.thr.getG r) ∧
            (∀ strip e, u.checkLaunch q s.thr.ctx (launchRec b) = .ok strip → u.launchEntry q (launchRec b) = some e →
              t.mem = s.mem ∧ ∃ l ∈ (t.part q).graph, l.lid = lid ∧ l.phase = .queued ∧ l.lrec = launchRec b ∧ l.entry = e ∧ l.strip = strip ∧
                l.ctx = s.thr.ctx)) ∧
      (s.thr.stage = 1 → s.thr.arg = 6 → s.fenceClear 1 = true → s.thr.async = [] →
        let p := s.thr.vals.getD 0 0
        ∀ b q, s.checkPtr false p = none → p.toNat / 2 ^ 61 = 0 → p.toNat % 64 = 0 → s.threadRead k i p 64 = .ok b → s.partOfCore k = some q →
          s.graphRoom q = none → ∃ t, exec (.launch a d) s = .next t ∧ t.thr.stage = 2 ∧ t.thr.parked = true ∧ t.thr.pc = s.thr.pc) ∧
      (s.thr.stage = 2 → s.thr.async = [] → ∀ b q, s.threadRead k i (s.thr.vals.getD 0 0) 64 = .ok b → s.partOfCore k = some q →
        (s.graphRoom q = none → ∃ t, exec (.launch a d) s = .next t ∧ t.thr.stage = 2 ∧ t.thr.parked = true ∧ t.thr.pc = s.thr.pc) ∧
        (∀ u, s.graphRoom q = some u → ∃ t, exec (.launch a d) s = .next t ∧ t.thr.pc = s.thr.seqNext.1 ∧
          (t.part q).lastLid = (s.part q).lastLid + 1 ∧
          (d ≠ 0 → s.thr.mapped d = none → t.thr.getG d = BitVec.ofNat 64 (lidOf ((s.part q).lastLid + 1)))))) ∧
    (∀ (s : State) (id : Nat) (p : Packet) (a : Actor) (d : Dest) (v : Word), s.arrived? id = some p → p.body = .succ d v → p.owner = some a →
      exec (.succResultLanding id) s = .next ((s.dropPacket id).land a d v)) ∧
    (∀ n, 0 < n → 1 ≤ lidOf n ∧ lidOf n < 2 ^ 32 ∧ (n < 2 ^ 32 → lidOf n = n) ∧ lidOf (n + 1) = (if lidOf n = 2 ^ 32 - 1 then 1 else lidOf n + 1))) ∧
  ((∀ (s : State) (vi : Nat), let v := s.vi vi
      (s.ringReady vi = false → exec (.launchRingRead vi) s = .next s) ∧
      (s.graphRoom v.part = none → exec (.launchRingRead vi) s = .next s) ∧
      (∀ u, s.ringReady vi = true → s.graphRoom v.part = some u →
        let lid := lidOf ((s.part v.part).lastLid + 1)
        let r := launchRec (s.genRead v.ctx (ringAt v.qbase 64 v.consumed.toNat) 64)
        ∃ t, exec (.launchRingRead vi) s = .next t ∧ (t.vi vi).consumed = v.consumed + 1 ∧ (t.part v.part).lastLid = (s.part v.part).lastLid + 1 ∧
          (∀ a, t.thrOf a = s.thrOf a) ∧
          (∀ strip e, u.checkLaunch v.part v.ctx r = .ok strip → u.launchEntry v.part r = some e → t.mem = s.mem ∧
            ∃ l ∈ (t.part v.part).graph, l.lid = lid ∧ l.phase = .queued ∧ l.lrec = r ∧ l.entry = e ∧ l.strip = strip ∧ l.ctx = v.ctx ∧ l.vi = vi ∧
              l.prio = max (r.prio % 4) v.viprio))) ∧
    (∀ (s : State) (part : Nat), let x := s.part part
      let p := (slotsOf x.lwgt).getD x.lwptr 0
      let admits := fun (l : Launch) => ∃ t m, exec (.launchAdmit part) s = .next t ∧ (t.part part).bal = x.bal - l.lrec.energy ∧
        (t.part part).lwptr = (x.lwptr + 1) % 16 ∧ (t.part part).graph = x.graph.filter (fun y => y.lid != l.lid) ++ [m] ∧
        m = { l with phase := .admitted, admitTb := s.tb.toNat, rkbase := (s.vi l.vi).rkbase, rken := (s.vi l.vi).rken, rkpin := (s.vi l.vi).rkpin } ∧
        t.mem = s.mem ∧ t.cores = s.cores
      (∀ l, x.admissible p = some l → admits l) ∧
      (∀ q l, x.admissible p = none → q < 4 → (∀ r, r < q → x.admissible r = none) → x.admissible q = some l → admits l) ∧
      (x.admissible p = none → (∀ q, q < 4 → x.admissible q = none) → exec (.launchAdmit part) s = .next s) ∧
      (∀ q l, x.admissible q = some l → l ∈ x.graph ∧ l.phase = .queued ∧ l.prio = q ∧ (∀ d ∈ l.lrec.deps, x.depMet d = true) ∧ (l.lrec.energy : Int) ≤ x.bal ∧
        ∀ m ∈ x.graph.takeWhile (fun y => y.lid != l.lid), ¬ (m.phase = .queued ∧ m.prio = q ∧ x.ready m = true))) ∧
    (∀ (s : State) (part lid : Nat) (cores : List (Nat × Nat)) (l : Launch), s.launch? part lid = some l → let x := s.part part
      ((l.phase ≠ .admitted ∨ l.lrec.count ≤ l.next ∨ s.placeOk x l.lrec cores = false ∨ s.placeBefore x lid = true) →
        exec (.instancePlace part lid cores) s = .next s) ∧
      (l.phase = .admitted → l.next < l.lrec.count → s.placeOk x l.lrec cores = true → s.placeBefore x lid = false →
        let plan := s.instPlan x l cores
        ∃ t, exec (.instancePlace part lid cores) s = .next t ∧
          t.launch? part lid = some { l with next := l.next + 1, insts := l.insts ++ [{ num := l.next, cores := cores, plan := plan.map (·.1) }] } ∧
          t.packets.map Packet.body = s.packets.map Packet.body ++ plan.map (fun y => .hubMsg 0 (l.startRecord y.1.2.2 y.1.2.1 y.2
            (y.1.2.2 % l.lrec.perInst == 0) (l.lrec.xfer && y.1.2.2 % l.lrec.threads == l.lrec.threads - 1))) ∧ t.mem = s.mem ∧ t.cores = s.cores)) ∧
    (∀ (s : State) (part lid : Nat) (energy : BitVec 32) (l : Launch), s.launch? part lid = some l →
      (l.due = false → exec (.completionRecordWrite part lid energy) s = .next s) ∧
      (s.recordPlace l = none → exec (.completionRecordWrite part lid energy) s = .next s) ∧
      (∀ a q, l.due = true → s.recordPlace l = some (a, q) →
        let e := if l.status ≤ 1 then energy.toNat else 0
        let bal := (s.part part).bal + ((l.lrec.energy : Int) - e)
        ∃ t, exec (.completionRecordWrite part lid energy) s = .next t ∧
          t.mem = (s.genWrite (if q then (s.vi l.vi).ctx else l.ctx) a (l.record e s.tb.toNat)).mem ∧
          (t.vi l.vi).cqtail = (if q then (s.vi l.vi).cqtail + 1 else (s.vi l.vi).cqtail) ∧
          (t.part part).bal = (if l.status ≤ 1 then min (((s.part part).capw.toNat * 100000 : Nat) : Int) bal else (s.part part).bal) ∧
          (l.phase ≠ .refused → t.launch? part lid = some { l with phase := .recorded }) ∧ (l.phase = .refused → t.launch? part lid = none))) ∧
    (∀ (l : Launch) (e tb : Nat), let b := l.record e tb
      b.length = 32 ∧ recField b 0 4 = l.lid % 2 ^ 32 ∧ recField b 4 1 = l.status % 256 ∧ recField b 5 1 = l.verdict % 256 ∧
        recField b 6 2 = Nat.min l.killed 0xFFFF ∧ recField b 8 4 = l.succid % 2 ^ 32 ∧ recField b 12 4 = e % 2 ^ 32 ∧
        recField b 16 8 = (if l.status ≤ 1 then tb - l.admitTb else 0) % 2 ^ 64 ∧ recField b 24 8 = (l.err.getD 0).toNat) ∧
    (∀ (s : State) (part : Nat) (x : Partition), Tab.find? s.parts part = some x →
      (x.accrued < s.tb.toNat / 1100 → ∃ t, exec (.energyAccrual part) s = .next t ∧ (t.part part).accrued = x.accrued + 1 ∧
        (t.part part).bal = min ((x.capw.toNat * 100000 : Nat) : Int) (x.bal + x.capw.toNat) ∧ t.mem = s.mem ∧ t.cores = s.cores ∧
        ∀ c, (t.cluster c).cc = (s.cluster c).cc) ∧
      (s.tb.toNat / 1100 ≤ x.accrued → exec (.energyAccrual part) s = .next s)))

/-- From R362 to R364: succession. A killed member, or one missing from a slot that the successor needs, discards the successor. Otherwise
the members' releases, then the waits of step 2, then, for a clean predecessor, the scrub: what the descriptor's masks name stays, every
other register is 0 and full, and a thread with no place in the successor is reaped; a tainted predecessor ends and waits for a ruling.
The successor starts once the account covers its ENERGY, each thread in its predecessor's slot at ENTRY, with its rank kept. -/
def Obligations.SuccessionEvents : Prop :=
  ∀ (s : State) (part lid : Nat) (l m : Launch) (n : Inst), s.launch? part lid = some l → l.insts.find? (fun n => n.succLid.isSome && n.allGone l.lrec) = some n →
    n.succLid.bind (s.launch? part) = some m → m.lid ≠ l.lid →
    let staged := fun (t : State) (st : Nat) => ∃ y z, t.launch? part lid = some y ∧ z ∈ y.insts ∧ z.num = n.num ∧ z.seqStage = st
    let reached := fun (st : Nat) => ∃ t, exec (.successionSequence part lid) s = .next t ∧ staged t st
    let waits := exec (.successionSequence part lid) s = .next s
    ((n.killed ≠ [] ∨ continues n l.lrec m.lrec = false) → ∃ t y, exec (.successionSequence part lid) s = .next t ∧
      t.launch? part m.lid = some { m with phase := .ended, status := 2 } ∧ t.launch? part lid = some y ∧ y.succid = 0 ∧
      (∀ z ∈ y.insts, z.num = n.num → z.succLid = none) ∧ t.mem = s.mem ∧ t.cores = s.cores) ∧
    (n.killed = [] → continues n l.lrec m.lrec = true →
      (n.seqStage = 0 → s.membersQuiet n = false → waits) ∧
      (n.seqStage = 0 → s.membersQuiet n = true → reached 1) ∧
      (n.seqStage = 1 → (s.dropTasks n l.lrec m.lrec m.sdesc).stepTwo n m.sdesc = false →
        exec (.successionSequence part lid) s = .next (s.dropTasks n l.lrec m.lrec m.sdesc)) ∧
      (n.seqStage = 1 → (s.dropTasks n l.lrec m.lrec m.sdesc).stepTwo n m.sdesc = true → l.verdict ≠ 2 → reached 3) ∧
      (n.seqStage = 1 → (s.dropTasks n l.lrec m.lrec m.sdesc).stepTwo n m.sdesc = true → l.verdict = 2 →
        ∃ t y, exec (.successionSequence part lid) s = .next t ∧ staged t 6 ∧ t.launch? part lid = some y ∧ y.phase = .ended ∧ y.succid = m.lid) ∧
      (n.seqStage = 3 → (n.here.map (fun x => (x.1, x.2.1))).Nodup → ∃ t, exec (.successionSequence part lid) s = .next t ∧ staged t 4 ∧
        (∀ x ∈ n.here, let a := Actor.slot x.1 x.2.1
          (∀ j, nextTidx l.lrec m.lrec x.2.2 = some j →
            (∀ r : Reg, (t.thrOf a).getG r = if descGmask m.sdesc / 2 ^ r.toNat % 2 = 1 then (s.thrOf a).getG r else 0) ∧
            (∀ r : Reg, descGmask m.sdesc / 2 ^ r.toNat % 2 ≠ 1 → (t.thrOf a).full r = true) ∧
            (∀ v, Tab.get [] (t.thrOf a).vec.v v = if descVmask m.sdesc / 2 ^ v % 2 = 1 then Tab.get [] (s.thrOf a).vec.v v else []) ∧
            (∀ c, Tab.find? (t.thrOf a).acc c = if descCmask m.sdesc / 2 ^ c % 2 = 1 then Tab.find? (s.thrOf a).acc c else none)) ∧
          (nextTidx l.lrec m.lrec x.2.2 = none → t.slotBound x.1 x.2.1 = false)))) ∧
    (n.seqStage = 4 → l.phase ≠ .held → (l.insts.find? (fun n => n.succLid.isSome && n.seqStage == 4)) = some n →
      (n.here.map (fun x => (x.1, x.2.1))).Nodup →
      ((s.part part).bal < (m.lrec.energy : Int) → exec (.successorStart part lid) s = .next s) ∧
      ((m.lrec.energy : Int) ≤ (s.part part).bal → ∃ t y z, exec (.successorStart part lid) s = .next t ∧
        (t.part part).bal = (s.part part).bal - m.lrec.energy ∧
        t.launch? part m.lid = some y ∧ y.phase = .admitted ∧ y.lrec = m.lrec ∧ y.next = 1 ∧
        t.launch? part lid = some z ∧ z.succid = m.lid ∧ (l.phase ≠ .recorded → z.phase = .ended) ∧ t.mem = s.mem ∧
        (∀ x ∈ n.here, ∀ j, nextTidx l.lrec m.lrec x.2.2 = some j →
          let u := s.thrOf (.slot x.1 x.2.1)
          let w := t.thrOf (.slot x.1 x.2.1)
          w.pc.toNat = m.entry.toNat % 2 ^ 53 ∧ w.loops = [] ∧ w.startCheck = true ∧ w.run = .issuing ∧ w.lid = BitVec.ofNat 32 m.lid ∧
          w.tidx = BitVec.ofNat 32 j ∧ (∀ r, w.getG r = u.getG r) ∧ w.acc = u.acc ∧ w.lanes = u.lanes.take m.lrec.lanes ∧
          w.csr = { vl := startVl m.lrec.vlc, vlceil := BitVec.ofNat 64 (64 * m.lrec.vlc), rank := u.csr.rank })))

/-- From R356, R403, R405, R406: TSAVE and TLOAD. Both check their pointer; TSAVE of a slot that holds no thread to save ends at once, else
it asks for the save and waits until it is done; TLOAD refuses an image by a record of the supervisor with the case of R405, waits for
room, and otherwise brings the thread back with the pc, the loop levels, the registers and the CSRs of the image. R336, R398 to R402,
R404: a save. A request lands at the thread's next landing point, or by force where it is held, halted by a trap, or late by 65,536
A-cycles; the slot is then swapping and the other members of its instance are held. SAVE_WRITE, once the thread owes nothing, writes the
image as a release at package scope, keeps its blocks in the thread-context cache, and frees the slot. The image holds the identity, the
pc with the depth, the registers, and the CSRs at the offsets of R400 and R401. -/
def Obligations.SaveAndRestoreResults : Prop :=
  (∀ (s : State) (a b : Reg) (k i : Nat), s.cur = .slot k i → s.nextOk → s.hasRoom 0 → s.thr.saveAt = none → s.thr.runAhead = false →
      let v := s.operand [a, b] 0
      let j := v.toNat
      let p := s.operand [a, b] 1
      let ends := fun (x : Instr) => exec x s = .next ((s.opened [a, b]).complete s.cur)
      let waits := fun (x : Instr) (n : Nat) (t : State) => exec x s = .next t ∧ t.thr.stage = n ∧ t.thr.parked = true ∧ t.thr.pc = s.thr.pc
      let loaded := fun (j : Nat) (hdr bs : List Byte) (p : Word) => ∃ t, exec (.tload b a) s = .next t ∧ t.thr.pc = s.thr.seqNext.1 ∧
        t.slotBound k j = true ∧
        (let rd := imgRead bs ((s.core k).ctxCache.find? (fun e => e.ptr == p && e.ctx == s.thr.ctx))
         let x := t.thrOf (.slot k j)
         x.pc.toNat = rd 64 8 % 2 ^ 53 ∧ x.loops = imgLoops rd (rd 64 8 / 2 ^ 53 % 8) ∧ x.csr = imgCsrs rd ∧ x.run = .issuing ∧
         x.arriving = false ∧ x.ctx = imgCtx hdr ∧ x.lid = BitVec.ofNat 32 (imgLid hdr) ∧ x.tidx = BitVec.ofNat 32 (imgTidx hdr) ∧
         (∀ r : Reg, r ≠ 0 → x.getG r = BitVec.ofNat 64 (rd (80 + 8 * (r.toNat - 1)) 8)) ∧
         (∀ r : Reg, r ≠ 0 → x.full r = (rd 72 4).testBit r.toNat) ∧
         (∀ c, (Tab.find? x.acc c).isSome = (c < 8 && (imgClaim hdr).testBit c)))
      let sizeOf := fun (hdr : List Byte) => Nat.min (max 576 (imgSize hdr)) (576 + 32 * 1088 + 2048 + 8 * 16448)
      (i ≠ 0 → ∀ x ∈ [Instr.tsave b a, .tload b a], ∃ w, exec x s = .next (s.trapTurn .privilege w)) ∧
      (i = 0 → s.canIssue [a, b] [] true →
        (16 ≤ j → ∀ x ∈ [Instr.tsave b a, .tload b a], exec x s = .next (s.trapTurn .formatFault v)) ∧
        (j < 16 →
          (∀ c, s.checkPtr true p = some c → exec (.tsave b a) s = .next (s.trapTurn c p)) ∧
          (∀ c, s.checkPtr false p = some c → exec (.tload b a) s = .next (s.trapTurn c p)) ∧
          ((p.toNat / 2 ^ 61 ≠ 0 ∨ p.toNat % 64 ≠ 0) → (s.checkPtr true p = none → exec (.tsave b a) s = .next (s.trapTurn .pointerFault p)) ∧
            (s.checkPtr false p = none → exec (.tload b a) s = .next (s.trapTurn .pointerFault p))) ∧
          (p.toNat / 2 ^ 61 = 0 → p.toNat % 64 = 0 →
            (s.checkPtr true p = none →
              ((j = 0 ∨ s.slotBound k j = false ∨ (s.thrOf (.slot k j)).run = .exited ∨ (s.thrOf (.slot k j)).run = .retiring) → ends (.tsave b a)) ∧
              (j ≠ 0 → s.slotBound k j = true → (s.thrOf (.slot k j)).run ≠ .exited → (s.thrOf (.slot k j)).run ≠ .retiring →
                ∃ t, waits (.tsave b a) 1 t ∧ (t.thrOf (.slot k j)).saveAt = some ((s.thrOf (.slot k j)).saveAt.getD s.now) ∧
                  (t.thrOf (.slot k j)).saveTo = p)) ∧
            (s.checkPtr false p = none → (j = 0 → ends (.tload b a)) ∧
              (∀ hdr, j ≠ 0 → s.threadRead k 0 p 64 = .ok hdr →
                let room := s.restoreRoom k j (imgLid hdr) (imgTidx hdr) = true ∧
                  (s.core k).slots.foldl (fun m t => m + t.2.accQuota) 0 + (bitsSet (imgClaim hdr) 8).length ≤ 8
                (∀ w q, s.imageFault k j hdr = some w → s.partOfCore k = some q → exec (.tload b a) s =
                  .next ((((s.opened [a, b]).postRecord q { kind := 8, addr := w, ctx := imgCtx hdr, b11 := 24, core := k, slot := j }).2).complete s.cur)) ∧
                (s.imageFault k j hdr = none → ¬ room → ∃ t, waits (.tload b a) 1 t) ∧
                (s.imageFault k j hdr = none → room → imgLanes hdr ≠ 0 → ∃ t, waits (.tload b a) 2 t ∧ t.slotBound k j = true) ∧
                (s.imageFault k j hdr = none → room → imgLanes hdr = 0 → imgFlag hdr 3 = false → s.poison = [] →
                  ∀ bs, s.threadRead k 0 p (sizeOf hdr) = .ok bs → loaded j hdr bs p)))))) ∧
      (i = 0 → let j := (s.thr.vals.getD 0 0).toNat
        let p := s.thr.vals.getD 1 0
        j < 16 →
        (s.thr.stage = 1 → s.checkPtr true p = none → p.toNat / 2 ^ 61 = 0 → p.toNat % 64 = 0 → j ≠ 0 → s.slotBound k j = true →
          (s.saveOver k j = true → exec (.tsave b a) s = .next (s.complete s.cur)) ∧ (s.saveOver k j = false → ∃ t, waits (.tsave b a) 1 t)) ∧
        (s.thr.stage = 1 → s.checkPtr true p = none → p.toNat / 2 ^ 61 = 0 → p.toNat % 64 = 0 → s.slotBound k j = false →
          exec (.tsave b a) s = .next (s.complete s.cur)) ∧
        (s.thr.stage = 2 → j ≠ 0 → s.slotBound k j = true → (s.thrOf (.slot k j)).lanes ≠ [] → ∀ hdr bs, s.threadRead k 0 p 64 = .ok hdr →
          imgFlag hdr 3 = false → s.poison = [] → s.threadRead k 0 p (sizeOf hdr) = .ok bs → loaded j hdr bs p) ∧
        (s.thr.stage = 2 → (s.thrOf (.slot k j)).lanes = [] → ∃ t, waits (.tload b a) 2 t))) ∧
  ((∀ (s : State) (k i : Nat), let a := Actor.slot k i
      let landed := fun (t : State) (forced : Bool) => let x := t.thrOf a
        x.run = .swapping ∧ x.forced = forced ∧ x.haltSaved = ((s.thrOf a).run == .trapped) ∧ x.pc = (s.thrOf a).pc ∧ x.loops = (s.thrOf a).loops ∧
        x.csr = (s.thrOf a).csr ∧ (∀ r, x.getG r = (s.thrOf a).getG r) ∧ t.mem = s.mem ∧ t.vaults = s.vaults ∧
        (∀ p l n, s.instAt k (s.thrOf a) = some (p, l, n) → ∀ y ∈ n.started, y.2.2 ≠ (s.thrOf a).tidx.toNat → s.slotBound y.1 y.2.1 = true →
          (t.thrOf (.slot y.1 y.2.1)).held = true)
      (s.mayLand k i = true → ∃ t, exec (.preemptLanding k i) s = .next t ∧ landed t false) ∧
      (s.mayLand k i = false → exec (.preemptLanding k i) s = .next s) ∧
      (s.mayForce k i = true → ∃ t, exec (.forcedSave k i) s = .next t ∧ landed t ((s.thrOf a).run != .trapped)) ∧
      (s.mayForce k i = false → exec (.forcedSave k i) s = .next s) ∧
      ((s.thrOf a).saveAt = none → s.mayLand k i = false ∧ s.mayForce k i = false) ∧
      (((s.thrOf a).run = .retiring ∨ (s.thrOf a).run = .exited) → s.mayLand k i = false ∧ s.mayForce k i = false) ∧
      (∀ n, (s.thrOf a).saveAt = some n → (s.thrOf a).run = .trapped → s.mayForce k i = true)) ∧
    (∀ (s : State) (k i : Nat), let a := Actor.slot k i
      let x := s.thrOf a
      let ctx := (s.thrOf (.slot k 0)).ctx
      let va := x.saveTo.toNat % 2 ^ 53
      let img := s.imageOf k i
      i ≠ 0 → s.slotBound k i = true →
      ((x.run ≠ .swapping ∨ x.saveAt = none ∨ (s.thrOf (.slot k 0)).faultSeq ≠ none) → exec (.saveWrite k i) s = .next s) ∧
      (x.run = .swapping → x.saveAt ≠ none → (s.thrOf (.slot k 0)).faultSeq = none →
        (x.stage = 0 → s.leaveQuiet k i = false → exec (.saveWrite k i) s = .next s) ∧
        (x.stage = 0 → s.leaveQuiet k i = true → ∃ t, exec (.saveWrite k i) s = .next t ∧ t.slotBound k i = true ∧
          (let y := t.thrOf a
           y.stage = 1 ∧ y.csr.tbmask = 0 ∧ y.csr.tbmaskx = 0 ∧ y.pc = x.pc ∧ y.loops = x.loops ∧ (∀ r, y.getG r = x.getG r))) ∧
        (x.stage ≠ 0 → s.saveQuiet k i = false → exec (.saveWrite k i) s = .next s) ∧
        (x.stage ≠ 0 → s.saveQuiet k i = true →
          (∀ y, s.pagesLook k 0 va img.length 1 = some (.miss y) → exec (.saveWrite k i) s = .next (s.needWalk (.slot k 0) ctx y 1)) ∧
          (∀ y kind level size, s.pagesLook k 0 va img.length 1 = some (.fault y kind level size) →
            exec (.saveWrite k i) s = .next (s.dataFault (.slot k 0) ctx y kind level size 2 0)) ∧
          (s.pagesLook k 0 va img.length 1 = none → ∃ t, exec (.saveWrite k i) s = .next t ∧ t.slotBound k i = false ∧
            t.mem = (s.coreWrite k ctx va img).mem ∧
            { ptr := x.saveTo, ctx := ctx, block := (img.drop 64).take 512 } ∈ (t.core k).ctxCache ∧
            (∀ y, y ≠ i → Tab.find? (t.core k).slots y = Tab.find? (s.core k).slots y))))) ∧
    (∀ (s : State) (k i : Nat), let x := s.thrOf (.slot k i)
      let b := s.imageOf k i
      recField b 0 4 = 0x3149534B ∧ recField b 4 2 = 1 ∧ recField b 20 2 = x.ctx % 4096 ∧ recField b 30 2 = k % 65536 ∧
        recField b 32 4 = x.lid.toNat ∧ recField b 36 4 = x.tidx.toNat ∧ recField b 64 8 = (x.pc.toNat + x.loops.length * 2 ^ 53) % 2 ^ 64 ∧
        (∀ r : Reg, r ≠ 0 → recField b (80 + 8 * (r.toNat - 1)) 8 = (x.getG r).toNat) ∧
        recField b 456 8 = x.csr.trappc.toNat ∧ recField b 464 8 = x.csr.cause.toNat ∧ recField b 472 8 = x.csr.tval.toNat ∧
        recField b 480 8 = x.csr.trapvec.toNat ∧ recField b 488 8 = x.csr.timer.toNat ∧ recField b 496 8 = x.csr.hscr.toNat ∧
        recField b 504 8 = x.csr.fpctl.toNat ∧ recField b 512 8 = x.csr.regmask.toNat ∧ recField b 520 8 = x.csr.ooraddr.toNat))

/-- From R369, R371 to R377: the compute side. EPOPEN checks the descriptor, the window, the image and the contexts in this order, and opens
the lowest-numbered empty context with a fresh handle; EPSEND reads and checks its action in state P, one EPSEND of an episode at a time, and enters it after its release; EPRECV takes the
observation in state R, waits in E and A, and answers 0xFF once the episode is GONE or closed; a handle that names no open episode, an
operation out of turn and a second waiter are EPISODE_FAULTs 1, 2 and 3. EPABORT ends a running episode and EPCLOSE empties the context;
EPVER announces a version, waits for the context's running episodes below it, or ends them. -/
def Obligations.EpisodeInstructionResults : Prop :=
  ∀ (s : State) (a b d : Reg) (k i : Nat), s.cur = .slot k i → s.nextOk → s.hasRoom 0 → s.thr.saveAt = none → s.thr.runAhead = false →
    let faults := fun (x : Instr) (h : Word) (sub : Nat) => exec x s = .next (s.trapTurn .episodeFault (BitVec.ofNat 64 (h.toNat % 2 ^ 48 + sub * 2 ^ 56)))
    let waits := fun (x : Instr) (n : Nat) (t : State) => exec x s = .next t ∧ t.thr.stage = n ∧ t.thr.parked = true ∧ t.thr.pc = s.thr.pc
    -- EPOPEN
    (s.canIssue [a] [d] true → let p := s.operand [a] 0
      ((p.toNat / 2 ^ 61 ≠ 0 ∨ p.toNat % 64 ≠ 0) → exec (.epopen a d) s = .next (s.trapTurn .pointerFault p)) ∧
      (∀ y q, p.toNat / 2 ^ 61 = 0 → p.toNat % 64 = 0 → s.threadRead k i p 64 = .ok y → s.partOfCore k = some q →
        let e := epDesc y
        let fails := fun (n : Nat) => exec (.epopen a d) s = .next (s.writes [a] d (BitVec.ofNat 64 (2 ^ 63 + n)))
        (e.malformed = true → fails 2) ∧
        (e.malformed = false → s.epFrames s.thr.ctx e = none → fails 3) ∧
        (e.malformed = false → ∀ fr rpa, s.epFrames s.thr.ctx e = some (fr, rpa) →
          (s.epImage q e = none → fails 4) ∧
          (∀ text data, s.epImage q e = some (text, data) →
            (s.emptyEpisode q = none → fails 1) ∧
            (∀ x, s.emptyEpisode q = some x →
              let n := if ((s.part q).opens + 1) % 2 ^ 32 = 0 then 1 else ((s.part q).opens + 1) % 2 ^ 32
              let h := BitVec.ofNat 64 (x + n * 2 ^ 16)
              ∃ t o, exec (.epopen a d) s = .next t ∧ Tab.find? t.episodes x = some o ∧ t.thr.pc = s.thr.seqNext.1 ∧ t.mem = s.mem ∧
                (d ≠ 0 → s.thr.mapped d = none → t.thr.getG d = h) ∧ (∀ r, r ≠ d → t.thr.getG r = s.thr.getG r) ∧
                o.turn = .E ∧ o.k = 0 ∧ o.msg = none ∧ o.ended = none ∧ o.handle = h ∧ o.ctx = s.thr.ctx ∧ o.frames = fr ∧ o.record = rpa ∧
                o.wlen = e.wlen ∧ o.budget = e.budget ∧ o.deadline = e.deadline ∧ o.instr = 0 ∧ o.curVer = BitVec.ofNat 32 e.polver ∧
                o.minVer = o.curVer ∧ o.maxVer = o.curVer ∧ o.start = s.tb.toNat ∧ o.clock = s.now / 2 ∧
                o.textLen = text.length ∧ o.store = Memory.writeBytes (Memory.writeBytes [] 0 text) (up64 text.length) data ∧
                o.thr.pc = BitVec.ofNat 53 e.entry ∧ o.thr.loops = [] ∧ o.thr.empty = 0 ∧ o.thr.pending = 0 ∧ o.thr.csr = {} ∧
                (∀ r : Reg, o.thr.getG r = if r = 1 then e.argv else if r = 2 then BitVec.ofNat 64 e.wlen else if r = 3 then h else 0)))))) ∧
    -- EPSEND
    (s.canIssue [a, b] [] true → let h := s.operand [a, b] 0
      let p := s.operand [a, b] 1
      (s.epOf h = none → faults (.epsend b a) h 1) ∧
      (∀ x e, s.epOf h = some (x, e) → s.sendsOn e = true → exec (.epsend b a) s = .next s.parkTurn) ∧
      (∀ x e, s.epOf h = some (x, e) → s.sendsOn e = false → (e.turn ≠ .P → faults (.epsend b a) h 2) ∧
        (e.turn = .P → p.toNat % 16 ≠ 0 → exec (.epsend b a) s = .next (s.trapTurn .pointerFault p)) ∧
        (e.turn = .P → p.toNat % 16 = 0 → (∀ c, s.checkPtr false p = some c → exec (.epsend b a) s = .next (s.trapTurn c p)) ∧
          (s.checkPtr false p = none → 2 < p.toNat / 2 ^ 61 → exec (.epsend b a) s = .next (s.trapTurn .pointerFault p)) ∧
          (s.checkPtr false p = none → p.toNat / 2 ^ 61 ≤ 2 → ∀ hdr pay, s.threadRead k i p 16 = .ok hdr →
            s.threadRead k i (ptrPlus p 16) (msgLen hdr) = .ok pay →
            (msgOk hdr pay e.wlen = false → exec (.epsend b a) s = .next (s.trapTurn .formatFault p)) ∧
            (256 < msgLen hdr → msgOk hdr pay e.wlen = false) ∧
            (msgOk hdr pay e.wlen = true → s.thr.arg = 0 → ∃ t, waits (.epsend b a) 1 t ∧ t.mem = s.mem ∧ t.thr.sending = hdr ++ pay ∧
              t.episode x = { s.episode x with sender := some s.cur }))))) ∧
    (s.thr.stage = 1 → s.thr.arg = 6 → s.fenceClear 1 = true → s.thr.async = [] → let h := s.thr.vals.getD 0 0
      let m := s.thr.sending
      (s.epOf h = none → ∃ t, exec (.epsend b a) s = .next t ∧ t.thr.pc = s.thr.seqNext.1 ∧ t.mem = s.mem ∧ t.episodes = s.episodes) ∧
      (∀ x e, s.epOf h = some (x, e) →
        ∃ t, exec (.epsend b a) s = .next t ∧ t.thr.pc = s.thr.seqNext.1 ∧ t.mem = s.mem ∧ (∀ r, t.thr.getG r = s.thr.getG r) ∧
          (let o := t.episode x
           let v := s.thr.csr.polver.setWidth 32
           (e.ended = none → o.turn = .A ∧ o.msg = some { step := e.k, kind := recField (m.take 16) 6 1, aux := v, payload := m.drop 16 } ∧
             o.curVer = v ∧ o.minVer.toNat = Nat.min e.minVer.toNat v.toNat ∧ o.maxVer.toNat = Nat.max e.maxVer.toNat v.toNat ∧
             o.clock = s.now / 2 ∧ o.k = e.k) ∧
           (e.ended ≠ none → o.turn = .R ∧ o.final = true ∧ o.k = e.k + 1 ∧ o.msg = some (finalObs e (e.k + 1)))))) ∧
    -- EPRECV
    (s.canIssue [a, b] [d] true → let h := s.operand [a, b] 0
      let p := s.operand [a, b] 1
      (s.epOf h = none → faults (.eprecv b a d) h 1) ∧
      (∀ x e, s.epOf h = some (x, e) →
        (s.otherWaits e = true → faults (.eprecv b a d) h 3) ∧
        (s.otherWaits e = false → p.toNat % 16 ≠ 0 → exec (.eprecv b a d) s = .next (s.trapTurn .pointerFault p)) ∧
        (s.otherWaits e = false → p.toNat % 16 = 0 → ∀ c, s.checkPtr true p = some c → exec (.eprecv b a d) s = .next (s.trapTurn c p)) ∧
        (s.otherWaits e = false → p.toNat % 16 = 0 → s.checkPtr true p = none → p.toNat / 2 ^ 61 ≠ 0 → p.toNat / 2 ^ 61 ≠ 2 →
          exec (.eprecv b a d) s = .next (s.trapTurn .pointerFault p)) ∧
        (s.otherWaits e = false → p.toNat % 16 = 0 → s.checkPtr true p = none → (p.toNat / 2 ^ 61 = 0 ∨ p.toNat / 2 ^ 61 = 2) →
          let waiting := ∃ t, waits (.eprecv b a d) 1 t ∧ t.thr.withdrawable = true ∧ t.episode x = { e with recv := some s.cur } ∧ t.mem = s.mem
          (e.turn = .gone → exec (.eprecv b a d) s = .next (s.writes [a, b] d 0xFF)) ∧
          (e.turn = .P → faults (.eprecv b a d) h 2) ∧
          (∀ m, e.turn = .R → e.msg = some m → (s.owes s.cur Body.isLoad = true ∨ s.thr.vecAccessesOut = true) → waiting) ∧
          (∀ m u, e.turn = .R → e.msg = some m → s.owes s.cur Body.isLoad = false → s.thr.vecAccessesOut = false →
            (s.opened [a, b]).threadWrite k i p m.bytes = .ok u → exec (.eprecv b a d) s =
            .next (((((u.noteSpan k i p m.bytes.length).setEpisode x { e with msg := none, recv := none, turn := if e.final then .gone else .P }).acquire
              k s.thr.csr.regmask 2 1).putDst d (BitVec.ofNat 64 (m.status + m.step * 2 ^ 32)) 3).complete s.cur)) ∧
          ((e.turn = .E ∨ e.turn = .A) → waiting)))) ∧
    (s.thr.stage = 1 → s.epOf (s.thr.vals.getD 0 0) = none → exec (.eprecv b a d) s = .next ((s.putDst d 0xFF 3).complete s.cur)) ∧
    -- EPABORT, EPCLOSE, EPVER
    (s.canIssue [a] [] true → let h := s.operand [a] 0
      let v := h.setWidth 32
      (s.epOf h = none → faults (.epabort a) h 1 ∧ faults (.epclose a) h 1) ∧
      (∀ x e, s.epOf h = some (x, e) → s.sendsOn e = true → exec (.epabort a) s = .next s.parkTurn ∧ exec (.epclose a) s = .next s.parkTurn) ∧
      (∀ x e, s.epOf h = some (x, e) → s.sendsOn e = false →
        exec (.epabort a) s = .next (((s.opened [a]).endEpisode x 5 0 0 0 0 0).complete s.cur) ∧
        ∃ t, exec (.epclose a) s = .next t ∧ Tab.find? t.episodes x = none ∧ t.mem = ((s.opened [a]).endEpisode x 5 0 0 0 0 0).mem ∧
          t.thr.pc = s.thr.seqNext.1 ∧ (∀ y, y ≠ x → Tab.find? t.episodes y = Tab.find? s.episodes y)) ∧
      (∃ t, exec (.epverAnn a) s = .next t ∧ t.thr.csr = { s.thr.csr with polver := v.setWidth 64 } ∧ t.thr.pc = s.thr.seqNext.1 ∧ t.mem = s.mem ∧
        (∀ r, t.thr.getG r = s.thr.getG r)) ∧
      (s.staleEpisodes s.thr.ctx v = [] → exec (.epverWait a) s = .next ((s.opened [a]).complete s.cur)) ∧
      (s.staleEpisodes s.thr.ctx v ≠ [] → exec (.epverWait a) s = .next s.parkTurn) ∧
      (exec (.epverAbort a) s = .next (((s.staleEpisodes s.thr.ctx v).foldl (fun t x => t.endEpisode x 5 0 0 0 0 0) (s.opened [a])).complete s.cur)) ∧
      (∀ x, x ∈ s.staleEpisodes s.thr.ctx v ↔ ∃ e, (x, e) ∈ s.episodes ∧ e.ctx = s.thr.ctx ∧ e.ended = none ∧ e.closed = false ∧ e.curVer.toNat < v.toNat))

/-- From R371, R378 to R380: the episode side and the watchdog. EPACT takes the action in state A, EPOBS posts the observation in state E,
EPEND ends the episode with DONE; out of turn they end it with FAULT, CAUSE 2, and EPACT waits in R and P. A deadline passed in A or E
and a spent budget end it with TIMEOUT, CAUSE 1 and 2. The end writes the record of 64 bytes, and posts the final observation at once in
E, and with the action discarded in A; each instruction counts against the budget. -/
def Obligations.EpisodeSideResults : Prop :=
  (∀ (s : State) (a b d : Reg) (x : Nat), s.cur = .episode x → s.nextOk → s.hasRoom 0 → s.thr.saveAt = none → s.thr.runAhead = false → s.thr.csr.qmap = 0 →
    let e := s.episode x
    let counted := (s.countIssue s.cur)
    (s.canIssue [b] [d] false → let p := s.operand [b] 0
      (e.turn = .E → exec (.epact b d) s = .next (counted.endEpisode x 4 2 0 0 0 0)) ∧
      (e.turn ≠ .E → p.toNat % 16 ≠ 0 → s.checkPtr false p = none → exec (.epact b d) s = .next (s.trapTurn .pointerFault p)) ∧
      (p.toNat % 16 = 0 → s.checkPtr false p = none →
        ((e.turn = .R ∨ e.turn = .P) → exec (.epact b d) s = .next s.parkTurn) ∧
        (∀ m, e.turn = .A → e.msg = some m →
          (e.admits p m.bytes.length true = false → exec (.epact b d) s = .next (s.trapTurn .pointerFault p)) ∧
          (e.admits p m.bytes.length true = true → ∃ t, exec (.epact b d) s = .next t ∧ t.mem = (s.epPut x p m.bytes).mem ∧
            (let o := t.episode x
             o.store = ((s.epPut x p m.bytes).episode x).store ∧ o.turn = .E ∧ o.msg = none ∧ o.k = e.k + 1 ∧ o.steps = e.steps + 1 ∧
             o.instr = e.instr + 1 ∧ o.thr.pc = e.thr.seqNext.1 ∧ (∀ r, o.thr.getG r = if r = d ∧ r ≠ 0 then BitVec.ofNat 64 m.step else e.thr.getG r)))))) ∧
    (s.canIssue [a, b] [] false → let p := s.operand [a, b] 1
      (e.turn ≠ .E → exec (.epobs b a) s = .next (counted.endEpisode x 4 2 0 0 0 0) ∧ exec (.epend b a) s = .next (counted.endEpisode x 4 2 0 0 0 0)) ∧
      (e.turn = .E → exec (.epend b a) s = .next (counted.endEpisode x 1 0 (p.toNat % 256) ((s.operand [a, b] 0).setWidth 32) 0 0)) ∧
      (e.turn = .E → p.toNat % 16 ≠ 0 → s.checkPtr false p = none → exec (.epobs b a) s = .next (s.trapTurn .pointerFault p)) ∧
      (e.turn = .E → p.toNat % 16 = 0 → s.checkPtr false p = none → e.admits p 16 false = true →
        let hdr := s.epBytes x p 16
        let pay := s.epBytes x (ptrPlus p 16) (msgLen hdr)
        (e.admits (ptrPlus p 16) (msgLen hdr) false = false → exec (.epobs b a) s = .next (s.trapTurn .pointerFault p)) ∧
        (256 < msgLen hdr → msgOk hdr pay e.wlen = false) ∧
        (e.admits (ptrPlus p 16) (msgLen hdr) false = true →
          (msgOk hdr pay e.wlen = false → exec (.epobs b a) s = .next (s.trapTurn .formatFault p)) ∧
          (msgOk hdr pay e.wlen = true → ∃ t, exec (.epobs b a) s = .next t ∧ t.mem = s.mem ∧
            (let o := t.episode x
             o.turn = .R ∧ o.final = false ∧ o.k = e.k ∧ o.instr = e.instr + 1 ∧ o.thr.pc = e.thr.seqNext.1 ∧
             o.msg = some { step := e.k, kind := recField hdr 6 1, reward := (s.operand [a, b] 0).setWidth 32, payload := pay } ∧
             (∀ r, o.thr.getG r = e.thr.getG r)))))) ) ∧
  (∀ (s : State) (x : Nat) (e : Episode), Tab.find? s.episodes x = some e →
    let out := e.ended = none ∧ e.closed = false ∧ (e.turn = .A ∨ e.turn = .E) ∧ e.clock + e.deadline ≤ s.now / 2
    let spent := e.ended = none ∧ e.closed = false ∧ e.budget ≤ e.instr ∧ e.overrun = true
    (out → exec (.episodeDeadline x) s = .next (s.endEpisode x 2 1 0 0 0 0)) ∧ (¬ out → exec (.episodeDeadline x) s = .next s) ∧
    (spent → exec (.episodeBudget x) s = .next (s.endEpisode x 2 2 0 0 0 0)) ∧ (¬ spent → exec (.episodeBudget x) s = .next s)) ∧
  (∀ (s : State) (x status cause code : Nat) (fr : BitVec 32) (tc tv : Word), let e := s.episode x
    (e.ended ≠ none → s.endEpisode x status cause code fr tc tv = s) ∧
    (e.ended = none → let t := s.endEpisode x status cause code fr tc tv
      let o := t.episode x
      let b := t.mem.readBytes e.record 64
      let final := fun (n : Nat) => o.msg = some { step := n, status := status, reward := fr, aux := BitVec.ofNat 32 code } ∧ o.final = true ∧ o.turn = .R ∧
        o.k = n
      o.ended = some (status, cause, code, fr) ∧ (e.turn = .E → final e.k) ∧ (e.turn = .A → final (e.k + 1)) ∧
      (e.turn ≠ .E → e.turn ≠ .A → o.turn = e.turn ∧ o.msg = e.msg ∧ o.k = e.k) ∧
      recField b 0 8 = e.handle.toNat ∧ recField b 8 1 = status % 256 ∧ recField b 9 1 = cause % 256 ∧ recField b 10 1 = code % 256 ∧ recField b 11 1 = 0 ∧
      recField b 12 4 = e.steps % 2 ^ 32 ∧ recField b 16 4 = e.minVer.toNat ∧ recField b 20 4 = e.maxVer.toNat ∧ recField b 24 4 = fr.toNat ∧
      recField b 28 4 = tc.toNat % 2 ^ 32 ∧ recField b 32 8 = tv.toNat ∧ recField b 40 8 = e.instr % 2 ^ 64 ∧ recField b 48 8 = e.start % 2 ^ 64 ∧
      recField b 56 8 = s.tb.toNat ∧ (∀ y, y < e.record ∨ e.record + 64 ≤ y → t.mem.byte y = s.mem.byte y)))

/-- From R21, R383 to R386, and what each register's own rule says it reads: CSRR. An unassigned number raises ILLEGAL_INSTRUCTION, and an
assigned one without rights PRIVILEGE; an episode context reaches TB and THR_FPCTL alone (R366); a register with results to come parks;
every other read completes with the register's value, its W fields 0. -/
def Obligations.CsrReadResults : Prop :=
  (∀ (s : State) (n : BitVec 12) (d : Reg) (x : Nat), s.cur = .episode x → s.canIssue [] [d] false → s.nextOk → s.hasRoom 1 →
    (n = 0 → exec (.csrr n d) s = .next (s.writes [] d (BitVec.ofNat 64 (s.now / 2)))) ∧
    (n = 0x012 → let parks := (∃ v ∈ (s.core (1024 + x / 4)).divs, v.slot = x % 4 ∧ v.float = true) ∨ s.thr.srPending = true
      (parks → exec (.csrr n d) s = .next s.parkTurn) ∧ (¬ parks → exec (.csrr n d) s = .next (s.writes [] d s.thr.csr.fpctl))) ∧
    (n ≠ 0 → n ≠ 0x012 →
      exec (.csrr n d) s = .next (s.trapTurn .illegalInstruction (BitVec.ofNat 64 (n.toNat * 2 ^ 20 + d.toNat * 2 ^ 7 + 0x63))))) ∧
  ∀ (s : State) (n : BitVec 12) (d : Reg) (k i : Nat), s.cur = .slot k i → s.canIssue [] [d] false → s.nextOk → s.hasRoom 1 →
    let x := n.toNat
    let word := BitVec.ofNat 64 (x * 2 ^ 20 + d.toNat * 2 ^ 7 + 0x63)
    let known := x ≤ 7 ∨ (0x10 ≤ x ∧ x ≤ 0x1F) ∨ x ∈ [0x100, 0x101, 0x400] ∨ (0x200 ≤ x ∧ x ≤ 0x209) ∨ (0x210 ≤ x ∧ x ≤ 0x232) ∨
      x ∈ [0x600, 0x601, 0x602, 0x603, 0x610, 0x611, 0x612, 0x613, 0x614, 0x618, 0x620, 0x621, 0x622, 0x628, 0x629, 0x630, 0x631, 0x632, 0x633, 0x634]
    let level := if x < 0x100 ∨ (0x200 ≤ x ∧ x < 0x400) then 0 else if x < 0x600 then 1 else 2
    let parks := (x = 0x012 ∧ ((∃ v ∈ (s.core k).divs, v.slot = i ∧ v.float = true) ∨ s.thr.srPending = true)) ∨
      ((x = 0x016 ∨ x = 0x018) ∧ s.thr.grantPending = true) ∨ (x = 0x019 ∧ s.thr.runAhead = true)
    let reads := fun (v : Word) => exec (.csrr n d) s = .next (s.writes [] d v)
    (¬ known → exec (.csrr n d) s = .next (s.trapTurn .illegalInstruction word)) ∧
    (known → s.privilege s.cur < level → exec (.csrr n d) s = .next (s.trapTurn .privilege word)) ∧
    (known → level ≤ s.privilege s.cur → parks → exec (.csrr n d) s = .next s.parkTurn) ∧
    (known → level ≤ s.privilege s.cur → ¬ parks →
      let c := s.core k
      let t := s.thr
      (x = 0x000 → reads (BitVec.ofNat 64 (s.now / 2))) ∧
      (x = 0x001 → reads (BitVec.ofNat 64 (t.csr.status.toNat % 2 + 2 * s.privilege s.cur +
        (if t.async ≠ [] ∨ t.timerDue = true then 8 else 0) + (if t.frc = true then 16 else 0)))) ∧
      (x = 0x002 → reads t.csr.cause) ∧ (x = 0x003 → reads t.csr.trappc) ∧ (x = 0x004 → reads t.csr.tval) ∧ (x = 0x005 → reads t.csr.trapvec) ∧
      (x = 0x006 → reads t.csr.timer) ∧ (x = 0x007 → reads t.csr.hscr) ∧ (x = 0x010 → reads t.csr.qmap) ∧ (x = 0x011 → reads t.csr.livetile) ∧
      (x = 0x012 → reads t.csr.fpctl) ∧ (x = 0x013 → reads t.csr.oorflag) ∧ (x = 0x014 → reads t.csr.ooraddr) ∧ (x = 0x015 → reads t.csr.vtype) ∧
      (x = 0x016 → reads t.csr.vl) ∧ (x = 0x017 → reads t.csr.vlceil) ∧ (x = 0x018 → reads t.csr.strip) ∧ (x = 0x019 → reads t.csr.seed) ∧
      (x = 0x01A → reads t.csr.rank) ∧ (x = 0x01B → reads t.csr.migmask) ∧ (x = 0x01C → reads t.csr.regmask) ∧ (x = 0x01D → reads t.csr.tbmask) ∧
      (x = 0x01E → reads t.csr.tbmaskx) ∧ (x = 0x01F → reads t.csr.polver) ∧
      (x = 0x100 → reads (BitVec.ofNat 64 t.ctx)) ∧ (x = 0x101 → reads (BitVec.ofNat 64 (s.ctx t.ctx).vi)) ∧
      (∀ j, j < 8 → x = 0x200 + j → reads (Tab.get 0 c.win j)) ∧ (x = 0x208 → reads c.xctl) ∧
      (∀ j, j < 8 → x = 0x210 + j → reads (BitVec.ofNat 64 ((Tab.get (0 : BitVec 32) c.done j).toNat + (Tab.get (0 : BitVec 32) c.issuedSeen j).toNat * 2 ^ 32))) ∧
      (∀ j, j < 8 → x = 0x218 + j → reads (Tab.get 0 c.prom j)) ∧ (∀ j, j < 8 → x = 0x220 + j → reads (Tab.get 0 c.stat j)) ∧
      (∀ j, j < 8 → x = 0x228 + j → reads (Tab.get 0 c.faddr j)) ∧
      (∀ h, h < 2 → x = 0x230 + h → reads (BitVec.ofNat 64 (((List.range 8).map (fun j =>
        (match c.boundTo (8 * h + j) with | some b => b + 16 | none => Tab.get 0 c.mcslot (8 * h + j)) * 256 ^ j)).sum))) ∧
      (x = 0x232 → reads c.migslot) ∧ (x = 0x400 → reads (s.cluster (k / 16)).errcnt) ∧
      (∀ p, s.partOfCore k = some p →
        let y := s.part p
        let v := y.vicfg.toNat % 256
        let w := s.vi v
        (x = 0x600 → reads y.fqbase) ∧ (x = 0x601 → reads y.fqhead) ∧ (x = 0x602 → reads y.fqtail) ∧ (x = 0x603 → reads y.supcore) ∧
        (x = 0x613 → reads y.trapval) ∧ (x = 0x618 → reads y.trcal) ∧ (x = 0x620 → reads y.lwgt) ∧ (x = 0x622 → reads y.featmask) ∧
        (x = 0x628 → reads (BitVec.ofNat 64 (v + w.rkbase * 2 ^ 8 + (if w.rken = true then 2 ^ 28 else 0) + (if w.rkpin = true then 2 ^ 29 else 0) +
          w.viprio * 2 ^ 30))) ∧
        (x = 0x630 → reads (BitVec.ofInt 64 y.bal)) ∧ (x = 0x631 → reads (y.capw.setWidth 64)) ∧ (x = 0x632 → reads (y.quarters.setWidth 64)) ∧
        (x ∈ [0x209, 0x610, 0x611, 0x612, 0x614, 0x621, 0x629, 0x633, 0x634] → reads 0)))

/-- From R7, R69, R98, R126, R127, R156, R175, R209, R284, R308, R309, R376, R383 to R386, R393: CSRW, CSRS and CSRC of a thread CSR change
its RW bits alone, as the instruction says: THR_FPCTL keeps a reserved rounding mode out, THR_OORFLAG is cleared by ones, a seed of 0
loads 1, THR_QMAP marks the queues for the thread's crew, and a compare value that TB has reached makes TIMER pending. REGISTER_WRITE
and THR_TIMER_WRITE are such writes by themselves. R73, R157, R254, R257, R297, R383 to R386, R404: a write of a core or cluster CSR.
Without the rights it raises PRIVILEGE, as does a user's write of another crew's window; a set or clear of COR_CTXINV raises
ILLEGAL_INSTRUCTION; the read-only registers ignore it; any other is committed four F-cycles later, in order, and merged with the value
then committed. A window's CREW becomes the writer's. -/
def Obligations.CsrWriteResults : Prop :=
  ((∀ (s : State) (n : BitVec 12) (a : Reg) (e : Nat), s.cur = .episode e → s.canIssue [a] [] (n != 0x012) →
      (n ≠ 0x012 → ∀ w ∈ [(Instr.csrw n a, 1), (Instr.csrs n a, 2), (Instr.csrc n a, 3)],
        exec w.1 s = .next (s.trapTurn .illegalInstruction (BitVec.ofNat 64 (n.toNat * 2 ^ 20 + a.toNat * 2 ^ 15 + w.2 * 2 ^ 12 + 0x63)))) ∧
      (n = 0x012 → s.nextOk → s.hasRoom 1 → s.thr.srPending = false → s.thr.mapped a = none → ∃ t, exec (.csrw n a) s = .next t ∧ t.mem = s.mem ∧
        t.thr.csr = { s.thr.csr with fpctl := fpctlWrite s.thr.csr.fpctl ((s.thr.csr.fpctl &&& 0xFFFFFF00) ||| (s.thr.getG a &&& 0xFFFFFFFF000000FF)) } ∧
        (∀ r, t.thr.getG r = s.thr.getG r) ∧ t.thr.pc = s.thr.seqNext.1)) ∧
    ∀ (s : State) (n : BitVec 12) (a : Reg) (k i : Nat), s.cur = .slot k i →
      let x := n.toNat
      let rw : Word := if x = 0x003 then 0x1FFFFFFFFFFFFC else if x = 0x005 then 0x1FFFFFFFFFFFFD else if x = 0x006 ∨ x = 0x007 then 0xFFFFFFFFFFFFFFFF
        else if x = 0x010 ∨ x = 0x011 then 0xFF else if x = 0x012 then 0xFFFFFFFF000000FF else if x = 0x019 ∨ x = 0x01F then 0xFFFFFFFF
        else if x = 0x01B then 0xFFFFFFFE else if x = 0x01C then 0xFFFFFFFFFFFFFFFE else 0
      let old := s.thr.csr.get x
      let merged := fun (op : Nat) (v : Word) => if op = 0 then (old &&& ~~~ rw) ||| (v &&& rw) else if op = 1 then old ||| (v &&& rw) else old &&& ~~~ (v &&& rw)
      -- the value the register takes
      let value := fun (op : Nat) (v : Word) =>
        let m := merged op v
        if x = 0x013 then (if op = 1 then old else old &&& ~~~ (v &&& 1))
        else if x = 0x019 then (if m = 0 then 1 else m)
        else if x = 0x012 then BitVec.ofNat 64 (m.toNat / 2 ^ 32 * 2 ^ 32 + m.toNat % 256 / 8 * 8 +
          (if m.toNat % 8 = 0 ∨ m.toNat % 8 = 6 ∨ m.toNat % 8 = 7 then old.toNat % 8 else m.toNat % 8)) else m
      let effect := fun (op : Nat) (v : Word) (t : State) =>
        (∀ r, t.thr.getG r = s.thr.getG r) ∧ t.mem = s.mem ∧ t.vaults = s.vaults ∧ (t.core k).win = (s.core k).win ∧ (t.core k).pend = (s.core k).pend ∧
        t.thr.csr = s.thr.csr.put x (value op v) ∧
        (x = 0x006 → (t.thr.timerDue = true ↔ value op v ≠ 0 ∧ (value op v).toNat ≤ s.tb.toNat)) ∧ (x ≠ 0x006 → t.thr.timerDue = s.thr.timerDue) ∧
        (x = 0x010 → s.crewIdx k i ≠ 0 → (Tab.get {} (t.core k).crews (s.crewIdx k i) : Crew) =
          { (Tab.get {} (s.core k).crews (s.crewIdx k i) : Crew) with
            qmask := (Tab.get {} (s.core k).crews (s.crewIdx k i) : Crew).qmask ||| (value op v).setWidth 8 }) ∧
        (x ≠ 0x010 → (t.core k).crews = (s.core k).crews)
      x < 0x100 → (x ≤ 7 ∨ (0x10 ≤ x ∧ x ≤ 0x1F)) →
      (s.canIssue [a] [] (x != 0x012) → s.nextOk → s.hasRoom 1 → ¬ (x = 0x012 ∧ s.thr.srPending = true) →
        (∀ w ∈ [(Instr.csrw n a, 0), (Instr.csrs n a, 1), (Instr.csrc n a, 2)], ∃ t, exec w.1 s = .next t ∧ effect w.2 (s.operand [a] 0) t ∧
          t.thr.pc = s.thr.seqNext.1 ∧ t.thr.loops = s.thr.seqNext.2.1)) ∧
      (∀ v : Word, s.slotBound k i = true →
        (x ≠ 0x006 → ∃ t, exec (.registerWrite n v) s = .next t ∧ effect 0 v t ∧ t.thr.pc = s.thr.pc) ∧
        (x = 0x006 → ∃ t, exec (.thrTimerWrite v) s = .next t ∧ effect 0 v t ∧ t.thr.pc = s.thr.pc))) ∧
  ((∀ (s : State) (n : BitVec 12) (a : Reg) (k i : Nat), s.cur = .slot k i → s.canIssue [a] [] true → s.nextOk → s.hasRoom 0 →
      let x := n.toNat
      let own := s.crewIdx k i
      let v := s.operand [a] 0
      let high := 1 ≤ s.privilege s.cur
      ∀ w ∈ [(Instr.csrw n a, 0), (Instr.csrs n a, 1), (Instr.csrc n a, 2)],
        let word := BitVec.ofNat 64 (x * 2 ^ 20 + a.toNat * 2 ^ 15 + (w.2 + 1) * 2 ^ 12 + 0x63)
        let pends := fun (p : Pend) => exec w.1 s = .next (((s.opened [a]).pendWrite k p).complete s.cur)
        let ignored := exec w.1 s = .next ((s.opened [a]).complete s.cur)
        let denied := exec w.1 s = .next (s.trapTurn .privilege word)
        (∀ j, j < 8 → x = 0x200 + j → let old : Word := Tab.get 0 (s.core k).win j
          (high → pends (.win j w.2 v none)) ∧
          (¬ high → (old.getLsbD 35 = false ∨ (old.toNat / 2 ^ 36 % 16 = own ∧ own ≠ 0)) → pends (.win j w.2 v (some own))) ∧
          (¬ high → old.getLsbD 35 = true → (old.toNat / 2 ^ 36 % 16 ≠ own ∨ own = 0) → denied)) ∧
        ((x = 0x208 ∨ (0x220 ≤ x ∧ x < 0x228) ∨ x = 0x232) → (high → pends (.csr x w.2 v)) ∧ (¬ high → denied)) ∧
        (x = 0x209 → (¬ high → denied) ∧ (high → (w.2 = 0 → pends (.csr x 0 v)) ∧
          (w.2 ≠ 0 → exec w.1 s = .next (s.trapTurn .illegalInstruction word)))) ∧
        ((x = 0x100 ∨ x = 0x101 ∨ (0x210 ≤ x ∧ x < 0x220) ∨ (0x228 ≤ x ∧ x < 0x232)) → (high → ignored) ∧ (¬ high → denied)) ∧
        (x = 0x400 → (s.privilege s.cur = 2 → ignored) ∧ (s.privilege s.cur < 2 → denied))) ∧
    -- the same writes by themselves
    (∀ (s : State) (j : BitVec 3) (v : Word) (k i : Nat), s.cur = .slot k i → s.slotBound k i = true →
      let own := s.crewIdx k i
      let old : Word := Tab.get 0 (s.core k).win j.toNat
      let high := 1 ≤ s.privilege s.cur
      let word := BitVec.ofNat 64 ((0x200 + j.toNat) * 2 ^ 20 + 2 ^ 12 + 0x63)
      (high → exec (.corWinWrite j v) s = .next (s.pendWrite k (.win j.toNat 0 v none))) ∧
      (¬ high → (old.getLsbD 35 = false ∨ (old.toNat / 2 ^ 36 % 16 = own ∧ own ≠ 0)) →
        exec (.corWinWrite j v) s = .next (s.pendWrite k (.win j.toNat 0 v (some own)))) ∧
      (¬ high → old.getLsbD 35 = true → (old.toNat / 2 ^ 36 % 16 ≠ own ∨ own = 0) →
        exec (.corWinWrite j v) s = .next (s.takeTrap s.cur .privilege word s.thr.pc false)) ∧
      (high → exec (.xcStatClear j v) s = .next (s.pendWrite k (.csr (0x220 + j.toNat) 0 v)) ∧
        exec (.ctxinvWrite v) s = .next (s.pendWrite k (.csr 0x209 0 v))) ∧
      (¬ high → exec (.xcStatClear j v) s = .next s ∧ exec (.ctxinvWrite v) s = .next s)) ∧
    -- when it is seen, and what it changes
    (∀ (s : State) (k : Nat) (w : Pend), ((s.pendWrite k w).core k).pend = (s.core k).pend ++ [(s.now + 4, w)]) ∧
    (∀ (c : Core) (now : Nat),
      ((∀ x ∈ c.pend, now < x.1) → c.commit now = c) ∧
      (∀ x rest, c.pend = x :: rest → x.1 ≤ now → c.commit now = (({ c with pend := rest } : Core).commitPend x.2).commit now)) ∧
    (∀ (c : Core) (op j : Nat) (v : Word), j < 8 → op < 3 →
      let merge := fun (old rw : Word) => if op = 0 then (old &&& ~~~ rw) ||| (v &&& rw) else if op = 1 then old ||| (v &&& rw) else old &&& ~~~ (v &&& rw)
      c.commitPend (.csr 0x208 op v) = { c with xctl := merge c.xctl 0x1F } ∧
      c.commitPend (.csr 0x209 0 v) = { c with ctxCache := if v.getLsbD 0 = true then [] else c.ctxCache } ∧
      c.commitPend (.csr 0x232 op v) = { c with migslot := merge c.migslot 0xFFFE } ∧
      ((op = 1 ∨ v.getLsbD 37 = false) → c.commitPend (.csr (0x220 + j) op v) = c) ∧
      (op ≠ 1 → v.getLsbD 37 = true →
        c.commitPend (.csr (0x220 + j) op v) = { c with stat := Tab.erase c.stat j, faddr := Tab.erase c.faddr j }) ∧
      (∀ crew : Option Nat, (∀ y, crew = some y → y < 16) → ∃ w : Word,
        c.commitPend (.win j op v crew) = { c with win := Tab.set c.win j w } ∧
        let old : Word := Tab.get 0 c.win j
        let m := merge old 0x30F7FFF7FFF
        (∀ b, (b < 36 ∨ 40 ≤ b) → w.getLsbD b = m.getLsbD b) ∧ (∀ y, crew = some y → w.toNat / 2 ^ 36 % 16 = y) ∧
        (crew = none → w.toNat / 2 ^ 36 % 16 = (if op = 0 then v else if op = 1 then old ||| v else old &&& ~~~ v).toNat / 2 ^ 36 % 16))))

/-- From R169, R170, R279, R341, R343, R350, R382 to R386, R395, R397, R408, R419, R421, R423, R429: a write of a partition CSR, by the
system privilege alone. It is performed at once; PRT_TLBINV parks while walks begun before it are under way, PRT_KILL until its drain
completes, and PRT_VISW until the switch-out has finished. A set or clear of a register with a W field raises ILLEGAL_INSTRUCTION. R170,
R279, R341, R343, R350, R395, R417 to R419: what a write of a partition CSR changes. Registers with RW fields take them; weights that do
not sum to 16 are ignored; PRT_FQBASE latches the writer's context; PRT_VICFG sets the interface it names; PRT_VISW begins a switch-out,
which freezes VI_PROG, or performs a switch-in, which makes the merged writes in order. PRT_TLBINV drops the translations it names from
every TLB of the partition. VI_SWITCH_COMPLETE ends a switch-out. -/
def Obligations.PartitionCsrResults : Prop :=
  ((∀ (s : State) (n : BitVec 12) (a : Reg) (k i p : Nat), s.cur = .slot k i → s.canIssue [a] [] true → s.nextOk → s.hasRoom 0 →
      s.partOfCore k = some p →
      let x := n.toNat
      let v := s.operand [a] 0
      let s1 := s.opened [a]
      let known := x ∈ [0x600, 0x601, 0x602, 0x603, 0x610, 0x611, 0x612, 0x613, 0x614, 0x618, 0x620, 0x621, 0x622, 0x628, 0x629, 0x630, 0x631, 0x632,
        0x633, 0x634]
      let waits := fun (i : Instr) (st : Nat) (t : State) => exec i s = .next t ∧ t.thr.stage = st ∧ t.thr.parked = true ∧ t.thr.withdrawable = false ∧
        t.thr.pc = s.thr.pc
      (∀ w ∈ [(Instr.csrw n a, 0), (Instr.csrs n a, 1), (Instr.csrc n a, 2)],
        let word := BitVec.ofNat 64 (x * 2 ^ 20 + a.toNat * 2 ^ 15 + (w.2 + 1) * 2 ^ 12 + 0x63)
        (known → s.privilege s.cur < 2 → exec w.1 s = .next (s.trapTurn .privilege word)) ∧
        (known → s.privilege s.cur = 2 → w.2 ≠ 0 → x ∈ [0x610, 0x611, 0x612, 0x614, 0x621, 0x629, 0x633, 0x634] →
          exec w.1 s = .next (s.trapTurn .illegalInstruction word)) ∧
        (known → s.privilege s.cur = 2 → x ∉ [0x610, 0x611, 0x612, 0x614, 0x621, 0x629, 0x633, 0x634] →
          exec w.1 s = .next ((s1.partCsrWrite p x w.2 v).complete s.cur))) ∧
      (s.privilege s.cur = 2 →
        (x ∈ [0x610, 0x612, 0x621, 0x633] → exec (.csrw n a) s = .next ((s1.partCsrWrite p x 0 v).complete s.cur)) ∧
        (x = 0x634 → v.getLsbD 0 = true → exec (.csrw n a) s = .next (s1.resetPartition p)) ∧
        (x = 0x634 → v.getLsbD 0 = false → exec (.csrw n a) s = .next (s1.complete s.cur)) ∧
        (x = 0x611 → s.walksBefore p s.nextId = false → exec (.csrw n a) s = .next ((s1.tlbInv p v).complete s.cur)) ∧
        (x = 0x611 → s.walksBefore p s.nextId = true → ∃ t, waits (.csrw n a) 4 t ∧ t.thr.arg = s.nextId ∧ t.mem = s.mem) ∧
        (x = 0x614 → v.getLsbD 12 = false → exec (.csrw n a) s = .next (s1.complete s.cur)) ∧
        (x = 0x614 → v.getLsbD 12 = true → (s.part p).killing ≠ none → ∃ t, waits (.csrw n a) 4 t ∧ t.mem = s.mem) ∧
        (x = 0x614 → v.getLsbD 12 = true → (s.part p).killing = none → (Tab.find? s.ctxs (v.toNat % 4096)).map Ctx.part = some p →
          (k, i) ∉ s.slotsOfCtx (v.toNat % 4096) → ∃ t, waits (.csrw n a) 5 t ∧ ((t.part p).killing).map Prod.fst = some (v.toNat % 4096)) ∧
        (x = 0x629 → v.toNat / 2 ^ 8 % 4 ≠ 1 → v.toNat / 2 ^ 8 % 4 ≠ 2 → exec (.csrw n a) s = .next (s1.complete s.cur)) ∧
        (x = 0x629 → v.toNat / 2 ^ 8 % 4 = 2 → (s.vis.filter (fun y => !y.2.out)).length < 64 → (∀ y : Vi, Tab.find? s.vis (v.toNat % 256) = some y →
          y.part = p → y.switching = none) → exec (.csrw n a) s = .next ((s1.viswWrite p v).complete s.cur)) ∧
        (∀ y : Vi, x = 0x629 → v.toNat / 2 ^ 8 % 4 = 2 → 64 ≤ (s.vis.filter (fun y => !y.2.out)).length → Tab.find? s.vis (v.toNat % 256) = some y →
          y.part = p → (y.out = true → ∃ t, waits (.csrw n a) 4 t ∧ t.vis = s.vis) ∧ (y.out = false → exec (.csrw n a) s = .next (s1.complete s.cur))) ∧
        (∀ y : Vi, x = 0x629 → v.toNat / 2 ^ 8 % 4 = 1 → Tab.find? s.vis (v.toNat % 256) = some y → y.part = p → y.away = false →
          ∃ t, waits (.csrw n a) 4 t ∧ Tab.find? t.vis (v.toNat % 256) = some { y with switching := some true, frozen := y.prog }))) ∧
    -- a parked write goes on
    (∀ (s : State) (n : BitVec 12) (a : Reg) (k i p : Nat), s.cur = .slot k i → s.nextOk → s.hasRoom 0 → s.partOfCore k = some p →
      s.privilege s.cur = 2 → s.thr.saveAt = none →
      let v := s.thr.vals.getD 0 0
      let again := ∃ t, exec (.csrw n a) s = .next t ∧ t.thr.stage = s.thr.stage ∧ t.thr.parked = true ∧ t.thr.pc = s.thr.pc ∧ t.mem = s.mem
      let ends := exec (.csrw n a) s = .next (s.complete s.cur)
      (n = 0x611 → s.thr.stage = 4 →
        (s.walksBefore p s.thr.arg = true → again) ∧ (s.walksBefore p s.thr.arg = false → exec (.csrw n a) s = .next ((s.tlbInv p v).complete s.cur))) ∧
      (n = 0x614 → s.thr.stage = 5 → ((s.part p).killing ≠ none → again) ∧ ((s.part p).killing = none → ends)) ∧
      (n = 0x629 → s.thr.stage = 4 → v.toNat / 2 ^ 8 % 4 = 1 → ∀ y : Vi, Tab.find? s.vis (v.toNat % 256) = some y → y.part = p →
        (y.switching ≠ none → again) ∧ (y.switching = none → ends))) ∧
    -- the same writes by themselves, by a thread with the privilege
    (∀ (s : State) (k i p : Nat) (v : Word), s.cur = .slot k i → s.slotBound k i = true → s.privilege s.cur = 2 → s.partOfCore k = some p →
      let act := v.toNat / 2 ^ 32 % 4
      let does := fun (x : Instr) (n : Nat) => exec x s = .next (s.partCsrWrite p n 0 v)
      let nothing := fun (x : Instr) => exec x s = .next s
      does (.fqbaseWrite v) 0x600 ∧ does (.trcalWrite v) 0x618 ∧ does (.lwgtWrite v) 0x620 ∧ does (.resizeWrite v) 0x633 ∧ does (.prtResetWrite v) 0x634 ∧
      (act = 0 → does (.faultresRetry v) 0x610 ∧ does (.trapresResume v) 0x612) ∧ (act ≠ 0 → nothing (.faultresRetry v) ∧ nothing (.trapresResume v)) ∧
      (act = 1 → does (.faultresAbandon v) 0x610 ∧ does (.trapresResumeNext v) 0x612 ∧ does (.graphrelRelease v) 0x621) ∧
      (act ≠ 1 → nothing (.faultresAbandon v) ∧ nothing (.trapresResumeNext v) ∧ nothing (.graphrelRelease v)) ∧
      (act = 2 → does (.graphrelDiscard v) 0x621) ∧ (act ≠ 2 → nothing (.graphrelDiscard v)) ∧
      (v.getLsbD 12 = true → does (.tlbinvAll v) 0x611 ∧ does (.killDrainStart v) 0x614 ∧ nothing (.tlbinvPage v)) ∧
      (v.getLsbD 12 = false → does (.tlbinvPage v) 0x611 ∧ nothing (.tlbinvAll v) ∧ nothing (.killDrainStart v)) ∧
      (v.toNat / 2 ^ 8 % 4 = 1 → does (.viswSwitchOut v) 0x629) ∧ (v.toNat / 2 ^ 8 % 4 ≠ 1 → nothing (.viswSwitchOut v)) ∧
      (v.toNat / 2 ^ 8 % 4 = 2 → does (.viswSwitchIn v) 0x629) ∧ (v.toNat / 2 ^ 8 % 4 ≠ 2 → nothing (.viswSwitchIn v)) ∧
      (∀ n ∈ [(0x601 : BitVec 12), 0x603, 0x613, 0x622, 0x628], exec (.registerWrite n v) s = .next (s.partCsrWrite p n.toNat 0 v))) ∧
    -- by a thread without it they do nothing
    (∀ (s : State) (k i : Nat) (v : Word), s.cur = .slot k i → s.privilege s.cur < 2 →
      ∀ x ∈ [Instr.fqbaseWrite v, .trcalWrite v, .lwgtWrite v, .resizeWrite v, .prtResetWrite v, .faultresRetry v, .faultresAbandon v, .trapresResume v,
        .trapresResumeNext v, .graphrelRelease v, .graphrelDiscard v, .tlbinvAll v, .tlbinvPage v, .killDrainStart v, .viswSwitchOut v, .viswSwitchIn v],
        exec x s = .next s)) ∧
  ((∀ (s : State) (p op : Nat) (v : Word), op < 3 →
      let x := s.part p
      let merge := fun (old rw : Word) => if op = 0 then (old &&& ~~~ rw) ||| (v &&& rw) else if op = 1 then old ||| (v &&& rw) else old &&& ~~~ (v &&& rw)
      let sums := fun (w : Word) => w.toNat % 16 + w.toNat / 16 % 16 + w.toNat / 256 % 16 + w.toNat / 4096 % 16 = 16
      s.partCsrWrite p 0x600 op v = s.setPart p { x with fqbase := merge x.fqbase 0x1FFFFFFFFFFFFF, fqctx := s.curCtx } ∧
      s.partCsrWrite p 0x601 op v = s.setPart p { x with fqhead := merge x.fqhead 0xFFFFFFFF } ∧
      s.partCsrWrite p 0x603 op v = s.setPart p { x with supcore := merge x.supcore 0x1FFFFF } ∧
      s.partCsrWrite p 0x613 op v = s.setPart p { x with trapval := merge x.trapval 0xFFFFFFFFFFFFFFFF } ∧
      s.partCsrWrite p 0x622 op v = s.setPart p { x with featmask := merge x.featmask 0xFFFFFFFFFFFFFFFE } ∧
      (let w := merge x.trcal 0xFFFF
       (sums w → s.partCsrWrite p 0x618 op v = (s.setPart p { x with trcal := w }).restartCalendars p) ∧ (¬ sums w → s.partCsrWrite p 0x618 op v = s)) ∧
      (let w := merge x.lwgt 0xFFFF
       (sums w → s.partCsrWrite p 0x620 op v = s.setPart p { x with lwgt := w, lwptr := 0 }) ∧ (¬ sums w → s.partCsrWrite p 0x620 op v = s)) ∧
      (let t := s.restartCalendars p
       t.packets = s.packets ∧ t.parts = s.parts ∧ t.cores = s.cores ∧ t.mem = s.mem ∧ ∀ o y, Tab.find? s.switches o = some y →
         Tab.find? t.switches o = some (if outStage o ≠ 7 ∧ outStage o ≠ 8 ∧ x.quarters.getLsbD (outQuarter o) = true then { y with ptr := 0 } else y)) ∧
      (∀ n ∈ [0x602, 0x630, 0x631, 0x632], s.partCsrWrite p n op v = s) ∧
      (let w := v.toNat
       let t := s.partCsrWrite p 0x628 0 v
       (t.part p).vicfg = BitVec.ofNat 64 (w % 256) ∧
       (∀ y : Vi, Tab.find? s.vis (w % 256) = some y → Tab.find? t.vis (w % 256) = some (if y.part = p then
         { y with rkbase := w / 2 ^ 8 % 2 ^ 20, rken := v.getLsbD 28, rkpin := v.getLsbD 29, viprio := w / 2 ^ 30 % 4 } else y)) ∧
       (∀ j, j ≠ w % 256 → Tab.find? t.vis j = Tab.find? s.vis j) ∧ t.mem = s.mem ∧ t.cores = s.cores)) ∧
    (∀ (s : State) (p : Nat) (v : Word), let c := v.toNat % 4096
      let pg := v.toNat / 2 ^ 16 % 2 ^ 37
      let t := s.partCsrWrite p 0x611 0 v
      let named := fun (e : TlbEntry) => e.ctx = c ∧ (v.getLsbD 12 = true ∨ e.page = pg * 65536 / 2 ^ e.shift)
      (∀ k e, e ∈ (t.core k).tlb ↔ e ∈ (s.core k).tlb ∧ ¬ (s.partOfCore k = some p ∧ named e)) ∧
      (∀ k e, e ∈ (t.cluster k).tlb ↔ e ∈ (s.cluster k).tlb ∧ ¬ (s.partOfCore (16 * k) = some p ∧ named e)) ∧
      (∀ a, t.thrOf a = s.thrOf a) ∧ t.mem = s.mem ∧ t.vaults = s.vaults ∧ t.packets = s.packets) ∧
    (∀ (s : State) (p : Nat) (v : Word), let j := v.toNat % 256
      let op := v.toNat / 2 ^ 8 % 4
      let t := s.partCsrWrite p 0x629 0 v
      (op ≠ 1 → op ≠ 2 → t = s) ∧
      (∀ y : Vi, Tab.find? s.vis j = some y →
        (y.part ≠ p → Tab.find? t.vis j = some y) ∧
        (y.part = p → op = 1 → Tab.find? t.vis j = some (if y.out = true ∨ y.switching ≠ none then y else
          { y with switching := some true, frozen := BitVec.ofNat 64 (y.consumed.toNat + y.cqtail.toNat * 2 ^ 32) })) ∧
        (y.part = p → op = 2 → (y.out = false ∨ y.switching ≠ none) → Tab.find? t.vis j = some y) ∧
        (y.part = p → op = 2 → 64 ≤ (s.vis.filter (fun y => !y.2.out)).length → Tab.find? t.vis j = some y) ∧
        (y.part = p → op = 2 → (s.vis.filter (fun y => !y.2.out)).length < 64 → y.out = true → y.switching = none → ∃ z, Tab.find? t.vis j = some z ∧ z.out = false ∧ z.image = [] ∧
          z = y.image.foldl (fun u e => u.regWrite e.1 e.2) { y with out := false, image := [] }) ∧
        (∃ u, exec (.viSwitchComplete j) s = .next u ∧ u.mem = s.mem ∧ u.cores = s.cores ∧
          Tab.find? u.vis j = some (if y.switching = none then y else { y with switching := none, out := true }))) ∧
      (∀ m, m ≠ j → Tab.find? t.vis m = Tab.find? s.vis m) ∧ t.mem = s.mem ∧ t.cores = s.cores ∧ t.parts = s.parts))

/-- From R169, R342, R343, R364, R397: what the supervisor's rulings change. A retry resolves the record, drops the page's translations and
lets every joined access walk again; an abandon takes PAGE_FAULT at each joined thread; a record that is not unresolved changes nothing.
A resume writes REG under WREN and lets the halted thread issue at THR_TRAPPC, or 4 on, after the check of R89; a thread no longer
halted by that trap, and a POISON, stay. A release satisfies the dependences on a tainted launch or continues a held successor; a
discard ends the dependents with status DISCARDED. -/
def Obligations.SupervisorRulings : Prop :=
  (∀ (s : State) (p : Nat) (v : Word), let seq := v.toNat % 2 ^ 32
    let act := v.toNat / 2 ^ 32 % 4
    let t := s.partCsrWrite p 0x610 0 v
    let open_ := (s.part p).openFaults.find? (fun o => o.seq == seq && !o.abandoned)
    (act ≠ 0 → act ≠ 1 → t = s) ∧ (open_ = none → t = s) ∧
    (∀ o, open_ = some o →
      let waits := fun (a : Actor) => (∃ va, (a, va) ∈ o.joined) ∧ s.live a = true ∧ (s.thrOf a).faultSeq = some seq
      (act = 0 →
        (t.part p).openFaults = (s.part p).openFaults.filter (fun q => q.seq != seq) ∧ t.mem = s.mem ∧ t.vaults = s.vaults ∧
        (∀ k e, e ∈ (t.core k).tlb ↔ e ∈ (s.core k).tlb ∧ ¬ (s.partOfCore k = some p ∧ e.ctx = o.ctx ∧ e.page = o.addr.toNat / 2 ^ e.shift)) ∧
        (∀ a, ¬ waits a → t.thrOf a = s.thrOf a) ∧
        (∀ a, waits a → (t.thrOf a).faultSeq = none ∧ (t.thrOf a).pc = (s.thrOf a).pc ∧ (∀ e ∈ (t.thrOf a).vq, e.stalled = false) ∧
          (∀ r, (t.thrOf a).getG r = (s.thrOf a).getG r) ∧ (t.thrOf a).csr = (s.thrOf a).csr)) ∧
      (∀ a va, act = 1 → o.joined = [(a, va)] → waits a → (∀ e ∈ (s.thrOf a).vq, e.stalled = false) → (s.thrOf a).runAhead = false →
        let u := (s.setThrOf a { s.thrOf a with faultSeq := none }).takeTrap a .pageFault (BitVec.ofNat 64 va) (s.thrOf a).pc false
        t = u.setPart p { u.part p with openFaults := (u.part p).openFaults.filter (fun q => q.seq != seq) }) ∧
      (∀ k i va e, act = 1 → o.joined = [(.slot k i, va)] → waits (.slot k i) → e ∈ (s.thrOf (.slot k i)).vq → e.stalled = true →
        (t.thrOf (.slot k i)).faultSeq = none ∧ (t.thrOf (.slot k i)).vq = (s.thrOf (.slot k i)).vq.map (fun x =>
          if x.stalled = true then { x with stalled := false, trap := some (.pageFault, BitVec.ofNat 64 va) } else x) ∧
        (t.part p).openFaults = (s.part p).openFaults.filter (fun q => q.seq != seq)))) ∧
  (∀ (s : State) (p : Nat) (v : Word), let seq := v.toNat % 2 ^ 32
    let act := v.toNat / 2 ^ 32 % 4
    let r := BitVec.ofNat 5 (v.toNat / 2 ^ 34 % 32)
    let t := s.partCsrWrite p 0x612 0 v
    let found := (s.part p).trapRecs.find? (fun x => x.1 == seq)
    (2 ≤ act → t = s) ∧ (found = none → t = s) ∧
    (∀ q k i c, found = some (q, k, i, c) → let a := Actor.slot k i
      let u := s.thrOf a
      let halted := s.slotBound k i = true ∧ u.run = .trapped ∧ u.recSeq = seq ∧ c ≠ .poison ∧ c ≠ .imageFeature
      (¬ halted → t = s) ∧
      (halted → act ≤ 1 → let w := t.thrOf a
        w.run = .issuing ∧ w.startCheck = true ∧ w.pc.toNat = (u.csr.trappc.toNat + 4 * act) % 2 ^ 53 ∧ w.loops = u.loops ∧ w.csr = u.csr ∧
        (∀ x, w.getG x = if v.getLsbD 39 = true ∧ x = r ∧ x ≠ 0 then (s.part p).trapval else u.getG x) ∧
        (v.getLsbD 39 = true → w.full r = true) ∧ (∀ b, b ≠ a → t.thrOf b = s.thrOf b) ∧ t.mem = s.mem ∧
        (t.part p).trapRecs = (s.part p).trapRecs.filter (fun x => x.1 != seq)))) ∧
  (∀ (s : State) (p : Nat) (v : Word), let lid := v.toNat % 2 ^ 32
    let act := v.toNat / 2 ^ 32 % 4
    let t := s.partCsrWrite p 0x621 0 v
    (act ≠ 1 → act ≠ 2 → t = s) ∧ (s.launch? p lid = none → t = s) ∧
    (∀ m, s.launch? p lid = some m →
      (s.heldPred p m = none → m.verdict ≠ 2 → t = s) ∧
      (s.heldPred p m = none → m.verdict = 2 → act = 1 → t.launch? p lid = some { m with released := true, ruled := true } ∧ t.mem = s.mem ∧ t.cores = s.cores) ∧
      (s.heldPred p m = none → m.verdict = 2 → act = 2 → t.mem = s.mem ∧ t.cores = s.cores ∧
        (∀ d x, s.launch? p d = some x → x.phase = .queued → d ≠ lid → lid ∈ x.lrec.deps →
          t.launch? p d = some { x with phase := .ended, status := 2 }) ∧ t.launch? p lid = some { m with ruled := true }) ∧
      (∀ l n, s.heldPred p m = some (l, n) →
        (act = 1 → ∃ y z, t.launch? p l.lid = some y ∧ z ∈ y.insts ∧ z.num = n.num ∧ z.seqStage = 3) ∧
        (act = 2 → m.lid ≠ l.lid → t.launch? p lid = some { m with phase := .ended, status := 2 } ∧
          ∃ y, t.launch? p l.lid = some y ∧ ∀ z ∈ y.insts, z.succLid = none) ∧ t.mem = s.mem)))

/-- From R408, R409: the kill-drain. Its start quenches every slot and episode context of the tag and discards their launches without a
record; a unit that no traffic of the tag is bound for, nor a copy engine's still to come, discards its queued work and acknowledges; a lock the tag held there passes on
with AB; with every unit's acknowledgement no packet of the tag is left, its code pages are pinned no more, and the drain ends. -/
def Obligations.KillDrain : Prop :=
  (∀ (s : State) (p : Nat) (v : Word), let tag := v.toNat % 4096
    let t := s.partCsrWrite p 0x614 0 v
    (v.getLsbD 12 = false → t = s) ∧ ((s.part p).killing ≠ none → t = s) ∧ ((Tab.find? s.ctxs tag).map Ctx.part ≠ some p → t = s) ∧
    (∀ c, v.getLsbD 12 = true → (s.part p).killing = none → Tab.find? s.ctxs tag = some c → c.part = p →
      (t.part p).killing = some (tag, []) ∧ Tab.find? t.ctxs tag = some { c with dead := true } ∧
      (∀ x ∈ s.slotsOfCtx tag, t.slotBound x.1 x.2 = false) ∧
      (∀ k i, (k, i) ∉ s.slotsOfCtx tag → t.slotBound k i = s.slotBound k i ∧ ∀ r, (t.thrOf (.slot k i)).getG r = (s.thrOf (.slot k i)).getG r) ∧
      (∀ k i, s.slotBound k i = true → s.partOfCore k = some p → (s.thrOf (.slot k i)).ctx = tag → (k, i) ∈ s.slotsOfCtx tag) ∧
      (∀ x ∈ t.episodes, x.2.ctx ≠ tag) ∧ (∀ l ∈ (t.part p).graph, l.ctx ≠ tag) ∧ (∀ o ∈ (t.part p).openFaults, o.ctx ≠ tag) ∧
      (∀ q ∈ t.packets, q.ctx = tag → q.waiting = false ∧ q.owner = none) ∧ (∀ k, ∀ e ∈ (t.core k).sendbuf, e.ctx ≠ tag) ∧ (∀ k, ∀ m ∈ (t.core k).arrivals, m.thr.ctx ≠ tag) ∧ t.mem = s.mem)) ∧
  (∀ (s : State) (tag unit p : Nat) (acks : List Nat), s.drainOf tag = some (p, acks) → (s.part p).killing = some (tag, acks) →
    let clear := (48 ≤ unit ∧ unit < 112 ∨ s.copiesOf tag = false) ∧ ∀ q ∈ s.packets, q.ctx = tag → q.drainsAt unit = true → q.held = true
    let tok := exec (.drainTokenArrival tag unit) s
    ((129 ≤ unit ∨ unit ∈ acks ∨ ¬ clear) → tok = .next s) ∧
    (unit < 129 → unit ∉ acks → clear → ∃ t, tok = .next t ∧ (t.part p).killing = some (tag, unit :: acks) ∧ (∀ a, t.thrOf a = s.thrOf a) ∧
      (unit < 16 → (∀ l ∈ t.locks, l.slice / 16 = unit → ∀ w ∈ l.waiters, w.2 ≠ tag) ∧
        (∀ w ∈ t.qwaits, w.slice / 16 = unit → ∀ q, s.packet? w.pkt = some q → q.ctx ≠ tag)) ∧
      (∀ l, unit < 16 → s.locks = [l] → l.slice / 16 = unit → l.holder = tag →
        (∀ w c rest, l.waiters = (w, c) :: rest → (∀ x ∈ l.waiters, x.2 ≠ tag) → t.locks = [{ l with holder := c, waiters := rest }] ∧
          t.mem.readLE l.pa 8 = c % 4096 + Nat.min rest.length 65535 * 2 ^ 16 + 2 ^ 62 + 2 ^ 63) ∧
        (l.waiters = [] → t.locks = [] ∧ t.mem.readLE l.pa 8 = 0)) ∧
      (48 ≤ unit → unit < 112 → ∀ c ∈ (t.cluster (unit - 48)).copies, c.ctx ≠ tag) ∧
      (16 ≤ unit → t.mem = s.mem ∧ t.locks = s.locks ∧ t.qwaits = s.qwaits ∧ t.packets = s.packets))) ∧
  (∀ (s : State) (tag p : Nat) (acks : List Nat), s.drainOf tag = some (p, acks) → (s.part p).killing = some (tag, acks) →
    ((∃ u, u < 129 ∧ u ∉ acks) → exec (.killDrainComplete tag) s = .next s) ∧
    ((∀ u, u < 129 → u ∈ acks) → ∃ t, exec (.killDrainComplete tag) s = .next t ∧ (t.part p).killing = none ∧ t.packets = s.packets.filter (fun q => q.ctx != tag) ∧
      (∀ k, (t.core k).l1 = (s.core k).l1.filter (fun l => l.ctx != tag)) ∧ (∀ k, (t.cluster k).cc = (s.cluster k).cc.filter (fun l => l.ctx != tag)) ∧
      (∀ d, t.linesAt 2 d = (s.linesAt 2 d).filter (fun l => l.ctx != tag)) ∧
      (∀ c, Tab.find? s.ctxs tag = some c → Tab.find? t.ctxs tag = some { c with code := [] }) ∧
      (∀ n, n ≠ tag → Tab.find? t.ctxs n = Tab.find? s.ctxs n) ∧
      t.mem = s.mem ∧ t.vaults = s.vaults ∧ (∀ a, t.thrOf a = s.thrOf a))) ∧
  (∀ (s : State) (tag unit : Nat), s.drainOf tag = none → exec (.drainTokenArrival tag unit) s = .next s ∧ exec (.killDrainComplete tag) s = .next s)

/-- R423: a partition is reset by a write of 1 to bit 0 of PRT_RESET, by the management core, by a non-recoverable trap in the supervisor
slot where no other is named, by an error in an owner tag, and by the resize timeout. What it leaves: its contexts, episodes, resident
objects, and all that its cores, clusters and vaults hold are gone; its quarter-dies and cap stay; all 16 key slots hold keys; its
interfaces are emptied; the supervisor is loaded in slot 0 of PRT_SUPCORE.PRI. Memory outside it stays. What its own memory reads after
that is undefined, and each byte a free value (assumption 9). -/
def Obligations.PartitionResetResults : Prop :=
  (∀ (s : State) (p : Nat) (x : Partition), Tab.find? s.parts p = some x →
    let t := s.resetPartition p
    let pri := x.supcore.toNat % 1024
    let inside := fun (k : Nat) => x.quarters.getLsbD (if k < 1024 then k / 64 else (k - 1024) / 8) = true
    let lo := 65536 * x.base
    let hi := 65536 * (x.base + x.granules)
    let loaded : Thread := { pc := Config.supervisorEntry p, startCheck := true }
    let bal : Int := ((100000 * x.capw.toNat : Nat) : Int)
    let emptied : Partition := { quarters := x.quarters, base := x.base, granules := x.granules, built := x.built, homeMap := x.homeMap }
    Tab.find? t.parts p = some { emptied with keys := 0xFFFF, supcore := BitVec.ofNat 64 pri, capw := x.capw, bal := bal, accrued := x.accrued } ∧
    (∀ q, q ≠ p → Tab.find? t.parts q = Tab.find? s.parts q) ∧
    (∀ c, c ∈ t.ctxs ↔ c ∈ s.ctxs ∧ c.2.part ≠ p) ∧ (∀ e, e ∈ t.episodes ↔ e ∈ s.episodes ∧ e.2.part ≠ p) ∧
    (∀ o, o ∈ t.objs ↔ o ∈ s.objs ∧ o.2.part ≠ p) ∧
    (∀ k, k ≠ pri → t.core k = if inside k then {} else s.core k) ∧
    Tab.find? (t.core pri).slots 0 = some loaded ∧ (inside pri → t.core pri = { slots := [(0, loaded)] }) ∧
    (∀ c, t.cluster c = if inside (16 * c) then {} else s.cluster c) ∧
    (∀ c, Tab.find? t.vaults c = if inside (16 * c) then none else Tab.find? s.vaults c) ∧
    (∀ q ∈ t.packets, (Tab.find? s.ctxs q.ctx).map Ctx.part ≠ some p) ∧
    (∀ v y, Tab.find? s.vis v = some y → Tab.find? t.vis v = some (if y.part = p then
      { part := p, device := y.device, ctx := y.ctx, key := y.key, lastSeq := y.lastSeq, reply := y.reply } else y)) ∧
    (Memory.wf s.mem = true → ∀ a, t.mem.byte a = if lo ≤ a ∧ a < hi then Config.freeByte s.fresh a else s.mem.byte a)) ∧
  (∀ (s : State) (p : Nat) (v : Word), s.partCsrWrite p 0x634 0 v = if v.getLsbD 0 = true then s.resetPartition p else s) ∧
  (∀ (s : State) (p : Nat), (Tab.find? s.parts p ≠ none → exec (.mgmtResetRequest p) s = .next (s.resetPartition p) ∧
      exec (.ownerTagError p) s = .next (s.resetPartition p)) ∧
    (Tab.find? s.parts p = none → exec (.mgmtResetRequest p) s = .next s ∧ exec (.ownerTagError p) s = .next s ∧ exec (.resizeTimeout p) s = .next s)) ∧
  (∀ (s : State) (p : Nat) (x : Partition), Tab.find? s.parts p = some x →
    (∀ q n, x.resize = some (q, n) → x.moving = false → n + 1100000000 ≤ s.now / 2 → exec (.resizeTimeout p) s = .next (s.resetPartition p)) ∧
    (∀ q n, x.resize = some (q, n) → (x.moving = true ∨ s.now / 2 < n + 1100000000) → exec (.resizeTimeout p) s = .next s) ∧
    (x.resize = none → exec (.resizeTimeout p) s = .next s)) ∧
  (∀ (s : State) (k i p : Nat) (c : Cause), i = 0 → s.isSupervisorCore k = true → s.partOfCore k = some p → let w := (s.part p).supcore
    (w.getLsbD 20 = false ∨ w.toNat / 1024 % 1024 = w.toNat % 1024) → recoverable c = false → s.supervisorTrap k i c = s.resetPartition p) ∧
  (∀ (s : State) (k p : Nat) (c : Cause) (v : Word) (pc : BitVec 53) (defd : Bool), s.isSupervisorCore k = true → s.partOfCore k = some p →
    (s.part p).supcore.getLsbD 20 = false → recoverable c = false → (s.thrOf (.slot k 0)).popped = [] → (s.thrOf (.slot k 0)).reserved = [] →
    ∃ u : State, s.takeTrap (.slot k 0) c v pc defd = u.resetPartition p ∧ u.mem = s.mem ∧ u.parts = s.parts ∧
      (∀ b, b ≠ .slot k 0 → u.thrOf b = s.thrOf b))

/-- From R28, R29, R414, R421, R425, R426, R429, R430, "Bring-up and recovery": what the management core and the package's firmware do. A
partition is built of quarter-dies no other holds, with keys and its supervisor started; caps that exceed 1,800 W together are refused,
and the balance never exceeds the capacity; a resize is signalled to the primary supervisor with KIND 11 and the departing quarters; a
write of PRT_RESIZE sets it going, each departing granule moves to a die that stays, its dirty words written back first, and PRT_QTRMAP
changes once none departs. Cold reset leaves the package at reset, halted where the signature is bad, else with the limit record loaded; the thermal trip stops the clocks,
and then no step is taken. -/
def Obligations.ManagementResults : Prop :=
  (∀ (s : State) (p : Nat) (q : BitVec 16) (n : Nat) (vis : List Nat),
    let base := s.parts.foldl (fun m x => max m (x.2.base + x.2.granules)) 0
    -- each of its quarter-dies homes 32 GiB at most
    let may := p < 16 ∧ Tab.find? s.parts p = none ∧ q ≠ 0 ∧ (∀ x ∈ s.parts, x.2.quarters &&& q = 0) ∧ 0 < n ∧
      n ≤ 2 ^ 19 * ((List.range 16).filter (fun j => q.getLsbD j)).length ∧ base + n ≤ 8 * 64 * 2 ^ 30 / 65536 ∧
      vis ≠ [] ∧ (∀ v ∈ vis, v < 256 ∧ Tab.find? s.vis v = none) ∧ vis.Nodup
    (¬ may → exec (.mgmtBuildPartition p q (n, vis)) s = .next s) ∧
    (may → ∃ t pri, exec (.mgmtBuildPartition p q (n, vis)) s = .next t ∧ q.getLsbD (pri / 64) = true ∧ pri % 64 = 0 ∧
      (∀ j, j < pri / 64 → q.getLsbD j = false) ∧
      (let built : Partition := { quarters := q, base := base, granules := n, built := q, keys := 0xFFFF, supcore := BitVec.ofNat 64 pri }
       Tab.find? t.parts p = some { built with accrued := s.tb.toNat / 1100 }) ∧
      Tab.find? (t.core pri).slots 0 = some { pc := Config.supervisorEntry p, startCheck := true } ∧ t.mem = s.mem ∧
      (∀ v ∈ vis, ∃ y, Tab.find? t.vis v = some y ∧ y.part = p ∧ y.device = v) ∧ (∀ v, v ∉ vis → Tab.find? t.vis v = Tab.find? s.vis v) ∧
      (∀ j, j ≠ p → Tab.find? t.parts j = Tab.find? s.parts j))) ∧
  (∀ (s : State) (p : Nat) (w : BitVec 16) (x : Partition), Tab.find? s.parts p = some x →
    let others := (s.parts.map (fun y => if y.1 = p then 0 else y.2.capw.toNat)).sum
    -- the limit record's package limit, 1,800 W before it is loaded
    let limit := match s.limits with | some y => y.powerW | none => 1800
    (limit < others + w.toNat → exec (.mgmtSetCap p w) s = .next s) ∧
    (others + w.toNat ≤ limit →
      exec (.mgmtSetCap p w) s = .next (s.setPart p { x with capw := w, bal := min ((w.toNat * 100000 : Nat) : Int) x.bal }))) ∧
  (∀ (s : State) (vi key : Nat), (∀ y, Tab.find? s.vis vi = some y → exec (.mgmtProvisionKey vi key) s = .next (s.setVi vi { y with key := key })) ∧
    (Tab.find? s.vis vi = none → exec (.mgmtProvisionKey vi key) s = .next s)) ∧
  (∀ (s : State) (p : Nat) (q : BitVec 16) (x : Partition), Tab.find? s.parts p = some x →
    let k := x.supcore.toNat % 1024
    let c := s.core k
    ((x.resize ≠ none ∨ q = 0 ∨ q &&& x.quarters ≠ q ∨ q = x.quarters) → exec (.mgmtResizeRequest p q) s = .next s) ∧
    (x.resize = none → q ≠ 0 → q &&& x.quarters = q → q ≠ x.quarters → ∃ t, exec (.mgmtResizeRequest p q) s = .next t ∧
      Tab.find? t.parts p = some { x with resize := some (q, s.now / 2), moving := false } ∧ t.mem = s.mem ∧ (∀ a, t.thrOf a = s.thrOf a) ∧
      ((c.classQ 15).length + Tab.get 0 c.resv 15 < 4 → (t.core k).classQ 15 = c.classQ 15 ++
        [{ words := [BitVec.ofNat 64 (2 ^ 63 + 11 * 2 ^ 32 + q.toNat * 2 ^ 40)] }]))) ∧
  (∀ (s : State) (p : Nat) (v : Word), let x := s.part p
    let t := s.partCsrWrite p 0x633 0 v
    (x.resize = none → t = s) ∧
    (∀ q n, x.resize = some (q, n) →
      ((∃ g, x.base ≤ g ∧ g < x.base + x.granules ∧ x.departs g = true) → t = s.setPart p { x with moving := true }) ∧
      ((∀ g, x.base ≤ g → g < x.base + x.granules → x.departs g = false) → 
        t.part p = { x with quarters := x.quarters &&& ~~~ q, resize := none, moving := false }))) ∧
  (∀ (s : State) (p g die : Nat) (x : Partition), Tab.find? s.parts p = some x →
    let moves := x.moving = true ∧ x.base ≤ g ∧ g < x.base + x.granules ∧ x.departs g = true
    (x.resize = none → exec (.granuleMove p g die) s = .next s) ∧
    ((¬ moves ∨ x.newHome die = none) → exec (.granuleMove p g die) s = .next s) ∧
    (∀ q n h, x.resize = some (q, n) → x.newHome die = some h → h / 4 = die ∧ (x.quarters &&& ~~~ q).getLsbD h = true ∧ x.homed h < 2 ^ 19) ∧
    (∀ q n h, x.resize = some (q, n) → moves → x.newHome die = some h →
      let noLines := (∀ k, ∀ l ∈ (s.core k).l1, l.line / 256 ≠ g) ∧ (∀ c, ∀ l ∈ (s.cluster c).cc, l.line / 256 ≠ g)
      let last := ∀ j, x.base ≤ j → j < x.base + x.granules → j ≠ g → x.departs j = false
      ∃ t, exec (.granuleMove p g die) s = .next t ∧ Tab.find? (t.part p).homeMap g = some h ∧
      (∀ j, j ≠ g → Tab.find? (t.part p).homeMap j = Tab.find? x.homeMap j) ∧
      (∀ k, s.partOfCore k = some p → ∀ l ∈ (t.core k).l1, l.line / 256 ≠ g) ∧
      (∀ c, s.partOfCore (16 * c) = some p → ∀ l ∈ (t.cluster c).cc, l.line / 256 ≠ g) ∧ (∀ d, ∀ l ∈ t.linesAt 2 d, l.line / 256 ≠ g) ∧
      (∀ a, t.thrOf a = s.thrOf a) ∧
      (¬ last → noLines → (∀ d, ∀ l ∈ s.linesAt 2 d, l.line / 256 ≠ g) → t.mem = s.mem) ∧
      (∀ d l, ¬ last → noLines → s.piers = [(d, [l])] →
        l.line / 256 = g → l.s1.dirty = 0 → Memory.wf l.s0.data = true → ∀ y, t.mem.byte y =
          if 256 * l.line ≤ y ∧ y < 256 * l.line + 128 ∧ l.s0.dirty.getLsbD ((y - 256 * l.line) / 4) = true then l.s0.data.byte (y - 256 * l.line)
          else s.mem.byte y) ∧
      (t.part p).quarters = (if last then x.quarters &&& ~~~ q else x.quarters))) ∧
  (∀ (s : State),
    let measured := [Config.measure Config.firmwareImage, Config.measure Config.limitRecord]
    let loaded : Limits := { rails := Config.railRanges, trip := Config.tripTemperature }
    let started : State := { State.reset with agenda := s.agenda, fresh := s.fresh, limits := some loaded, pkg := Config.packageOrdinal, irhamPort := Config.irhamPort }
    exec (.coldReset true) s = .next { started with measures := measured } ∧
    exec (.coldReset false) s = .next { State.reset with agenda := s.agenda, fresh := s.fresh, stopped := true } ∧
    exec .thermalTrip s = .next { s with stopped := true } ∧
    (s.stopped = true → (∀ b rest, s.agenda ≠ some (.coldReset b) :: rest) → step s = .fault .clocksStopped))

/-- R387, R388: SYSC, TRAP and BREAK complete and raise their cause with the number as THR_TVAL and, as THR_TRAPPC, the address at which the
thread would have continued, the step of R85 applied; in slot 0, a supervisor's trap may reset its partition, and the clause on every
slot says which trap is taken. TRET outside a handler is illegal, and within one returns to THR_TRAPPC, checked under R89, with INH
cleared and the loop stack kept; the first vector instruction after it must begin a convoy. -/
def Obligations.SyscTrapBreakAndTret : Prop :=
  ((∀ (s : State) (n : BitVec 12) (k j : Nat), s.cur = .slot k j → j ≠ 0 → s.canIssue [] [] true → s.nextOk → s.hasRoom 0 →
      ∀ x ∈ [(Instr.sysc n, 21), (Instr.trap n, 20), (Instr.break n, 22)],
        ∃ t, exec x.1 s = .next t ∧ t.thr.csr.tval = n.setWidth 64 ∧ t.thr.csr.trappc.toNat = s.thr.seqNext.1.toNat / 4 * 4 ∧
          t.thr.csr.cause.toNat % 256 = x.2 ∧ t.thr.loops = s.thr.seqNext.2.1 ∧ (∀ r, t.thr.getG r = s.thr.getG r) ∧ t.mem = s.mem)) ∧
  ((∀ (s : State) (n : BitVec 12), s.canIssue [] [] true → s.nextOk → s.hasRoom 0 →
      ∀ x ∈ [(Instr.sysc n, Cause.syscall), (Instr.trap n, Cause.userTrap), (Instr.break n, Cause.breakpoint)],
        exec x.1 s = .next ((s.complete s.cur).takeTrap s.cur x.2 (n.setWidth 64) s.thr.seqNext.1 false)) ∧
    (∀ (s : State), s.canIssue [] [] false → s.hasRoom 1 →
      let target := BitVec.ofNat 53 s.thr.csr.trappc.toNat
      (s.thr.csr.status.getLsbD 0 = false → exec .tret s = .next (s.trapTurn .illegalInstruction 0x6063)) ∧
      (s.thr.csr.status.getLsbD 0 = true → s.targetLook s.cur target = .bad → exec .tret s = .next (s.trapTurn .branchTarget (BitVec.ofNat 64 target.toNat))) ∧
      (s.thr.csr.status.getLsbD 0 = true → s.targetLook s.cur target = .miss → exec .tret s = .next (startWalk target.toNat 3 s.parkTurn)) ∧
      (s.thr.csr.status.getLsbD 0 = true → s.targetLook s.cur target = .ok → ∃ t, exec .tret s = .next t ∧ t.thr.pc = target ∧ t.thr.loops = s.thr.loops ∧
        t.thr.csr = { s.thr.csr with status := s.thr.csr.status &&& ~~~ 1 } ∧ t.thr.convoyOpen = false ∧ t.thr.restored = false ∧
        (∀ r, t.thr.getG r = s.thr.getG r) ∧ t.mem = s.mem ∧ (∀ b, b ≠ s.cur → t.thrOf b = s.thrOf b))))

/-- From R389 to R396, R463: at delivery THR_CAUSE, THR_TRAPPC and THR_TVAL are written; a recoverable cause with EN set and INH clear goes
to the handler, whose address is checked; every other halts the thread, posts a trap record, and queues a notice of kind 2. A trap of an
episode context ends it with FAULT. Asynchronous traps and the fault queue. TIMER becomes pending once TB reaches a compare value that
is not 0; the oldest pending trap is taken at an instruction boundary or in a withdrawable wait, outside the handler and run-ahead,
TIMER last, with DEF set, and its delivery disarms the timer. A waiting record is written at PRT_FQBASE + 32 × (PRT_FQTAIL mod 1,024)
where the queue has room and the page can be written, PRT_FQTAIL rises, and the supervisor is signalled with its KIND and SEQ. -/
def Obligations.TrapDelivery : Prop :=
  ((∀ (s : State) (k i p : Nat) (c : Cause) (v : Word) (pc : BitVec 53) (defd : Bool), let a := Actor.slot k i
      let t := s.thrOf a
      t.popped = [] → t.reserved = [] →
      let u := s.takeTrap a c v pc defd
      let inh := t.csr.status.getLsbD 0
      let tries := recoverable c = true ∧ t.csr.trapvec.getLsbD 0 = true ∧ inh = false
      let h := t.csr.trapvec.toNat / 4 % 2 ^ 51 * 4
      let code := causeCode c
      let word := fun (esc vec : Bool) => BitVec.ofNat 64 (code + (if vec then 2 ^ 29 else 0) + (if esc then 2 ^ 30 else 0) + (if defd then 2 ^ 31 else 0))
      let csr := { t.csr with trappc := BitVec.ofNat 64 (pc.toNat / 4 * 4), tval := v }
      (tries → s.codeOk t.ctx h = true →
        (u.thrOf a).pc.toNat = h ∧ (u.thrOf a).csr = { csr with cause := word false false, status := t.csr.status ||| 1 } ∧
        (u.thrOf a).loops = t.loops ∧ (∀ r, (u.thrOf a).getG r = t.getG r) ∧ (u.thrOf a).vec = t.vec ∧ (u.thrOf a).run = t.run ∧
        (u.thrOf a).stage = 0 ∧ (u.thrOf a).convoyOpen = false ∧ u.mem = s.mem ∧ u.parts = s.parts ∧ (∀ b, b ≠ a → u.thrOf b = s.thrOf b)) ∧
      (¬ (tries ∧ s.codeOk t.ctx h = true) → s.partOfCore k = some p →
        (i ≠ 0 ∨ s.isSupervisorCore k = false ∨ ((s.part p).supcore.getLsbD 20 = true ∧
          (s.part p).supcore.toNat / 1024 % 1024 ≠ (s.part p).supcore.toNat % 1024) ∨ recoverable c = true) →
        let vec := recoverable c && t.csr.trapvec.getLsbD 0 && !inh
        let esc := inh || vec
        let x := s.part p
        let r : FaultRec := { kind := 8, addr := v, ctx := t.ctx, b11 := code, core := k, slot := i, seq := x.seqNext, time := csr.trappc }
        (u.thrOf a).run = .trapped ∧ (u.thrOf a).csr = { csr with cause := word esc vec } ∧ (u.thrOf a).pc = pc ∧ (u.thrOf a).loops = t.loops ∧
        (u.thrOf a).recSeq = x.seqNext ∧ (∀ r, (u.thrOf a).getG r = t.getG r) ∧ (u.thrOf a).vec = t.vec ∧ u.mem = s.mem ∧
        (u.part p).waiting = x.waiting ++ [{ r with b12 := (if defd then 1 else 0) + (if esc then 2 else 0) + (if vec then 4 else 0) }] ∧
        (u.part p).seqNext = (x.seqNext + 1) % 2 ^ 32 ∧ (u.part p).trapRecs = x.trapRecs ++ [(x.seqNext, k, i, c)] ∧
        ((∀ w ∈ (s.core k).notices, w.toNat % 16 ≠ i) → i < 16 → (u.core k).notices = (s.core k).notices ++ [BitVec.ofNat 64 (2 ^ 63 + 2 * 256 + i)]) ∧
        (∀ l, s.launch? p t.lid.toNat = some l → u.launch? p t.lid.toNat = some { l with err := some (l.err.getD v) }) ∧
        (∀ b, b ≠ a → u.thrOf b = s.thrOf b))) ∧
    (∀ (s : State) (x : Nat) (c : Cause) (v : Word) (pc : BitVec 53) (defd : Bool),
      s.takeTrap (.episode x) c v pc defd = s.endEpisode x 4 1 0 0 (BitVec.ofNat 64 (causeCode c)) v) ∧
    (∀ s : State, ∀ c v, s.trapTurn c v = if s.thr.runAhead = true then s.parkTurn else
      (s.setThr { s.thr with stage := 0, vals := [], arg := 0 }).takeTrap s.cur c v s.thr.pc false) ∧
    (List.map causeCode [.illegalInstruction, .futureInstruction, .privilege, .pointerFault, .formatFault, .branchTarget, .loopFault, .scratchpadRefusal,
      .vaultFault, .migrationFault, .vectorAbsent, .checkFault, .accumulatorFault, .lateCopy, .messageNack, .sendqReject, .syncFault, .episodeFault,
      .timer, .userTrap, .syscall, .breakpoint, .pageFault, .imageFeature, .poison] = (List.range 25).map (· + 1)) ∧
    (∀ c, recoverable c = true ↔ c ∈ [Cause.pointerFault, .formatFault, .scratchpadRefusal, .lateCopy, .messageNack, .sendqReject, .timer, .userTrap])) ∧
  ((∀ (s : State) (k i : Nat), let a := Actor.slot k i
      let t := s.thrOf a
      let due := s.slotBound k i = true ∧ t.timerDue = false ∧ t.csr.timer ≠ 0 ∧ t.csr.timer.toNat ≤ s.tb.toNat
      let takes := s.slotBound k i = true ∧ t.run = .issuing ∧ t.held = false ∧ t.arriving = false ∧ (t.async ≠ [] ∨ t.timerDue = true) ∧
        t.csr.status.getLsbD 0 = false ∧ t.runAhead = false ∧ t.faultSeq = none ∧ t.walking = none ∧ t.drained = none ∧
        t.startCheck = false ∧ (t.stage = 0 ∧ t.parked = false ∨ t.withdrawable = true)
      let u := s.withdraw a
      (due → exec (.timerExpiry k i) s = .next (s.setThrOf a { t with timerDue := true })) ∧ (¬ due → exec (.timerExpiry k i) s = .next s) ∧
      (¬ takes → exec (.asyncTrapTake k i) s = .next s) ∧
      (∀ x rest, takes → t.async = x :: rest → exec (.asyncTrapTake k i) s =
        .next ((u.setThrOf a { t with async := rest }).takeTrap a x.cause x.tval t.pc true)) ∧
      (takes → t.async = [] → exec (.asyncTrapTake k i) s =
        .next ((u.setThrOf a { t with timerDue := false, csr := { t.csr with timer := 0 } }).takeTrap a .timer t.csr.timer t.pc true)) ∧
      (∀ q, q ∈ u.packets ↔ q ∈ s.packets ∧ ¬ (q.owner = some a ∧ ((∃ pa c v, q.body = .qwait pa c v) ∨ (∃ v, q.body = .qwaitReply v) ∨
        (∃ rank, q.body = .rankAsk rank) ∨ ∃ rank w y, q.body = .rankTold rank w y))) ∧
      u.thrOf a = t ∧ u.mem = s.mem) ∧
    (∀ (s : State) (p : Nat), let x := s.part p
      let full := (x.fqtail.toNat + 2 ^ 32 - x.fqhead.toNat % 2 ^ 32) % 2 ^ 32 = 1024
      let va := x.fqbase.toNat % 2 ^ 53 + 32 * (x.fqtail.toNat % 1024)
      let stays := exec (.faultRecordPost p) s = .next s
      (x.waiting = [] → stays) ∧ (full → stays) ∧ ((Tab.find? s.ctxs x.fqctx = none ∨ (s.ctx x.fqctx).dead = true) → stays) ∧ (s.rangeFault x.fqctx va 32 1 ≠ none → stays) ∧
      (∀ r rest, x.waiting = r :: rest → ¬ full → Tab.find? s.ctxs x.fqctx ≠ none → (s.ctx x.fqctx).dead = false → s.rangeFault x.fqctx va 32 1 = none →
        let own := r.kind = 8 ∧ r.slot = 0 ∧ r.core = x.supcore.toNat % 1024 ∧ x.supcore.getLsbD 20 = true
        let k := if own then x.supcore.toNat / 1024 % 1024 else x.supcore.toNat % 1024
        let c := s.core k
        ∃ t, exec (.faultRecordPost p) s = .next t ∧ t.mem = (s.genWrite x.fqctx va (r.bytes s.tb)).mem ∧ (∀ a, t.thrOf a = s.thrOf a) ∧
          t.part p = { x with waiting := rest, fqtail := BitVec.ofNat 64 ((x.fqtail.toNat % 2 ^ 32 + 1) % 2 ^ 32) } ∧
          ((c.classQ 15).length + Tab.get 0 c.resv 15 < 4 → (t.core k).classQ 15 = c.classQ 15 ++
            [{ words := [BitVec.ofNat 64 (2 ^ 63 + r.kind * 2 ^ 32 + r.seq)] }]) ∧
          (4 ≤ (c.classQ 15).length + Tab.get 0 c.resv 15 → (t.core k).classQ 15 = c.classQ 15))) ∧
    (∀ (r : FaultRec) (tb : Word), let b := r.bytes tb
      b.length = 32 ∧ recField b 0 8 = r.addr.toNat ∧ recField b 8 2 = r.ctx % 4096 ∧ recField b 10 1 = r.kind % 256 ∧ recField b 11 1 = r.b11 % 256 ∧
      recField b 12 1 = r.b12 % 256 ∧ recField b 13 1 = (if r.kind = 8 then 0 else r.b13 % 256) ∧ recField b 14 2 = r.core % 2 ^ 16 ∧
      recField b 16 1 = r.slot % 256 ∧ recField b 17 3 = 0 ∧ recField b 20 4 = r.seq % 2 ^ 32 ∧
      recField b 24 8 = (if r.kind = 8 then r.time else tb).toNat))

/-- From R410 to R413: errors. The scrubber counts a corrected error, or poisons the word and posts a KIND 9 notice to its owner, and kills
nothing. A consumed poison halts the thread with POISON and scrubs it, and taints its launch. An error in owner-tagged metadata posts a
KIND 10 record and ends the context. -/
def Obligations.ErrorEvents : Prop :=
  (∀ (s : State) (place word store unit : Nat),
    -- the storages and units that the scrubber's places name (assumption 88)
    (place = 0 ∧ store = 0 ∧ unit = 0 ∨ 1 ≤ place ∧ place < 1025 ∧ store = 1 ∧ unit = place - 1 ∨ 1025 ≤ place ∧ place < 1089 ∧ store = 2 ∧
      unit = place - 1025 ∨ 1089 ≤ place ∧ place < 2113 ∧ store = 3 ∧ unit = place - 1089 ∨ 2113 ≤ place ∧ place < 2177 ∧ store = 4 ∧ unit = place - 2113 ∨
      2177 ≤ place ∧ place < 2433 ∧ store = 5 ∧ unit = place - 2177) →
    let w := (store, unit, word)
    let counted := fun (t : State) (poisoned : Bool) => ∀ c, (t.cluster c).errcnt =
      if (store = 1 ∨ store = 3) ∧ c = unit / 16 ∨ (store = 2 ∨ store = 4) ∧ c = unit then errCount (s.cluster c).errcnt poisoned else (s.cluster c).errcnt
    let only := fun (t : State) => t.mem = s.mem ∧ t.vaults = s.vaults ∧ t.packets = s.packets ∧ ∀ a, t.thrOf a = s.thrOf a
    let poisons := fun (t : State) => (∀ x, x ∈ t.poison ↔ x = w ∨ x ∈ s.poison) ∧ (∀ x, x ∈ t.flawed ↔ x ≠ w ∧ x ∈ s.flawed)
    (∀ kind, (kind = 0 ∨ 4 < kind ∨ s.hasWord store unit word = false) → exec (.scrubWord place word kind) s = .next s) ∧
    (s.hasWord store unit word = true →
      (∃ t, exec (.scrubWord place word 1) s = .next t ∧ counted t false ∧ only t ∧ t.poison = s.poison ∧ (∀ x, x ∈ t.flawed ↔ x ≠ w ∧ x ∈ s.flawed)) ∧
      (∃ t, exec (.scrubWord place word 2) s = .next t ∧ counted t true ∧ only t ∧ poisons t ∧
        (∀ p c, s.ownerOf store unit (8 * word) (Config.freeValue s.fresh) = some (p, c) →
          (t.part p).waiting = (s.part p).waiting ++ [{ kind := 9, addr := BitVec.ofNat 64 (8 * word / 256 * 256), ctx := c, b13 := 255, seq := (s.part p).seqNext }])) ∧
      exec (.scrubWord place word 3) s = .next { s with flawed := w :: s.flawed.filter (fun x => x != w) } ∧
      (∃ t, exec (.scrubWord place word 4) s = .next t ∧ counted t true ∧ only t ∧ poisons t ∧ t.parts = s.parts))) ∧
  (∀ (s : State) (k i word : Nat), k < 1024 → i < 16 → s.slotBound k i = true → ∀ kind ∈ [2, 4],
    (∃ t, exec (.scrubWord (3457 + 16 * k + i) word kind) s = .next t ∧ (word / 128, word % 128) ∈ (t.thrOf (.slot k i)).vec.bad) ∧
    (∀ y, Tab.find? (s.thrOf (.slot k i)).acc (word / 2048) = some y →
      ∃ t z, exec (.scrubWord (19841 + 16 * k + i) word kind) s = .next t ∧ Tab.find? (t.thrOf (.slot k i)).acc (word / 2048) = some z ∧ word % 2048 ∈ z.bad)) ∧
  (∀ w : Word, (errCount w false).toNat % 2 ^ 32 = min (2 ^ 32 - 1) (w.toNat % 2 ^ 32 + 1) ∧ (errCount w false).toNat / 2 ^ 32 = w.toNat / 2 ^ 32 ∧
    (errCount w true).toNat / 2 ^ 32 % 2 ^ 16 = min (2 ^ 16 - 1) (w.toNat / 2 ^ 32 % 2 ^ 16 + 1) ∧ (errCount w true).toNat % 2 ^ 32 = w.toNat % 2 ^ 32) ∧
  (∀ (s : State) (k i p : Nat) (v : Word) (l : Launch), let a := Actor.slot k i
    let t := s.thrOf a
    t.popped = [] → t.reserved = [] → ¬ (t.run = .trapped ∧ t.csr.cause.toNat % 256 = 25) → s.partOfCore k = some p →
    (i ≠ 0 ∨ s.isSupervisorCore k = false ∨ ((s.part p).supcore.getLsbD 20 = true ∧
      (s.part p).supcore.toNat / 1024 % 1024 ≠ (s.part p).supcore.toNat % 1024)) →
    let u := s.consumePoison a v
    (u.thrOf a).run = .trapped ∧ (u.thrOf a).csr.tval = v ∧ (u.thrOf a).csr.cause.toNat % 256 = 25 ∧
    (∀ r, (u.thrOf a).getG r = 0 ∧ (u.thrOf a).full r = true) ∧ (∀ r, Tab.get 0 (u.thrOf a).vec.w r = 0) ∧ (∀ b, b ≠ a → u.thrOf b = s.thrOf b) ∧
    u.mem = s.mem ∧
    (s.launch? p t.lid.toNat = some l → ∃ m, u.launch? p t.lid.toNat = some m ∧ m.killed = l.killed + 1 ∧ m.status = 1 ∧ m.verdict = 2)) ∧
  (∀ (s : State) (tag : Nat), (Tab.find? s.ctxs tag = none → exec (.metadataError tag) s = .next s) ∧
    (∀ c, Tab.find? s.ctxs tag = some c →
      ((s.part c.part).killing ≠ none → exec (.metadataError tag) s = .next s) ∧
      ((s.part c.part).killing = none → let x := s.part c.part
        let r : FaultRec := { kind := 10, addr := BitVec.ofNat 64 ((Config.freeValue s.fresh).toNat / 256 % 2 ^ 44 * 256), ctx := tag, b13 := 255 }
        let u := ({ s with fresh := s.fresh + 1 } : State).setPart c.part { x with waiting := x.waiting ++ [{ r with seq := x.seqNext }], seqNext := (x.seqNext + 1) % 2 ^ 32 }
        exec (.metadataError tag) s = .next (u.killStart c.part tag) ∧ (∀ v : Word, v.toNat % 4096 = tag → v.getLsbD 12 = true →
          u.partCsrWrite c.part 0x614 0 v = u.killStart c.part tag))))

/-- From R30, R414, R415, R417, R418, R427: the doorbell page and Irham. A tail more than a ring ahead of CONSUMED and a head beyond CQTAIL
are refused with OVF; a ring base is taken only while both rings are idle; writes to an interface that is away are merged into its
image, the last of a register winning, and VI_PROG reads frozen. A datagram with a bad tag is counted, the one after the last accepted
is performed, its reply kept and sent, a repeat of the last is answered with that reply again, any other changes nothing. WRITE writes all its bytes or, on a fault, none, with the first faulting
address; READ, REGR, INFO and ATTEST answer. -/
def Obligations.HostInterfaceResults : Prop :=
  (∀ (v : Vi) (w : Word), let n := w.toNat % 2 ^ 32
    let size := fun (b : Word) => 2 ^ (b.toNat % 16)
    let lead := (n + 2 ^ 32 - v.consumed.toNat) % 2 ^ 32
    let left := (v.cqtail.toNat + 2 ^ 32 - n) % 2 ^ 32
    let q := w.toNat % 16
    let base := BitVec.ofNat 64 ((if 4 ≤ q ∧ q ≤ 12 then q else 4) + w.toNat / 64 % 2 ^ 47 * 64)
    let idle := v.consumed = v.tail ∧ v.cqhead = v.cqtail
    v.regWrite 0x08 w = (if size v.qbase < lead then { v with ovf := true } else { v with tail := BitVec.ofNat 32 n }) ∧
    v.regWrite 0x20 w = (if size v.cqbase < left then { v with ovf := true } else { v with cqhead := BitVec.ofNat 32 n }) ∧
    (idle → v.regWrite 0x00 w = { v with qbase := base } ∧ v.regWrite 0x18 w = { v with cqbase := base }) ∧
    (¬ idle → v.regWrite 0x00 w = v ∧ v.regWrite 0x18 w = v) ∧
    v.regWrite 0x28 w = (if w.getLsbD 0 = true then { v with ovf := false } else v) ∧ v.regWrite 0x10 w = v ∧
    (∀ off, (v.out = true ∨ v.switching ≠ none) → v.hostWrite off w = { v with image := v.image.filter (fun x => x.1 != off) ++ [(off, w)] }) ∧
    (∀ off, v.out = false → v.switching = none → v.hostWrite off w = v.regWrite off w) ∧
    v.regRead 0x00 = v.qbase ∧ v.regRead 0x08 = BitVec.ofNat 64 v.tail.toNat ∧ v.regRead 0x18 = v.cqbase ∧ v.regRead 0x20 = BitVec.ofNat 64 v.cqhead.toNat ∧
    ((v.out = true ∨ v.switching ≠ none) → v.regRead 0x10 = v.frozen) ∧
    (v.out = false → v.switching = none → v.regRead 0x10 = BitVec.ofNat 64 (v.consumed.toNat + v.cqtail.toNat * 2 ^ 32)) ∧
    v.regRead 0x28 = BitVec.ofNat 64 ((if v.ovf = true then 1 else 0) + (if v.out = true then 2 else 0) + v.authf.toNat * 2 ^ 32)) ∧
  (∀ (s : State) (vi : Nat) (w : Word) (v : Vi), Tab.find? s.vis vi = some v →
    exec (.viTailWrite vi w) s = .next (s.setVi vi (v.hostWrite 0x08 w)) ∧ exec (.viCqheadWrite vi w) s = .next (s.setVi vi (v.hostWrite 0x20 w)) ∧
    exec (.viRingBaseWrite vi false w) s = .next (s.setVi vi (v.hostWrite 0x00 w)) ∧
    exec (.viRingBaseWrite vi true w) s = .next (s.setVi vi (v.hostWrite 0x18 w))) ∧
  (∀ (s : State) (vi : Nat) (sq : BitVec 48) (tag : BitVec 128) (addr w : Word) (n : Nat) (off : BitVec 12) (bytes nonce : List (BitVec 8)) (v : Vi),
    Tab.find? s.vis vi = some v →
    let le := fun (k x : Nat) => (List.range k).map (fun j => BitVec.ofNat 8 (x / 256 ^ j))
    let cmds := [(Instr.irhamWrite vi sq tag addr bytes, 1 :: le 8 addr.toNat ++ bytes), (.irhamRead vi sq tag addr n, 2 :: le 8 addr.toNat ++ le 8 n),
      (.irhamRegw vi sq tag off w, 3 :: le 2 off.toNat ++ le 8 w.toNat), (.irhamRegr vi sq tag off, 4 :: le 2 off.toNat), (.irhamInfo vi sq tag, [5]),
      (.irhamAttest vi sq tag nonce, 6 :: nonce)]
    let good := fun (c : List Byte) => Config.datagramTag v.key vi sq.toNat c = tag
    -- the interface after a command that leaves it as `y` and answers `r`
    let answers := fun (i : Instr) (u : State) (y : Vi) (r : List Byte) => exec i s = .next (u.setVi vi { y with lastSeq := sq, reply := r, acks := v.acks ++ [r] })
    let nak := fun (a : Nat) => 1 :: le 8 a
    let a := addr.toNat
    -- the interface's context exists and has not ended
    let alive := Tab.find? s.ctxs v.ctx ≠ none ∧ (s.ctx v.ctx).dead = false
    (∀ c ∈ cmds, ¬ good c.2 → exec c.1 s = .next (s.setVi vi { v with authf := if v.authf.toNat = 2 ^ 32 - 1 then v.authf else v.authf + 1 })) ∧
    (∀ c ∈ cmds, good c.2 → sq = v.lastSeq → exec c.1 s = .next (s.setVi vi { v with acks := v.acks ++ [v.reply] })) ∧
    (∀ c ∈ cmds, good c.2 → sq ≠ v.lastSeq → sq ≠ v.lastSeq + 1 → exec c.1 s = .next s) ∧
    (sq = v.lastSeq + 1 →
      (good (1 :: le 8 a ++ bytes) → let i := Instr.irhamWrite vi sq tag addr bytes
        (bytes = [] → answers i s v [0]) ∧
        ((4096 < bytes.length ∨ 2 ^ 53 < a + bytes.length) → bytes ≠ [] → answers i s v (nak a)) ∧
        (bytes ≠ [] → ¬ alive → answers i s v (nak a)) ∧
        (∀ f, bytes ≠ [] → bytes.length ≤ 4096 → a + bytes.length ≤ 2 ^ 53 → alive → s.rangeFault v.ctx a bytes.length 1 = some f → answers i s v (nak f.1)) ∧
        (bytes ≠ [] → bytes.length ≤ 4096 → a + bytes.length ≤ 2 ^ 53 → alive → s.rangeFault v.ctx a bytes.length 1 = none →
          answers i (s.genWrite v.ctx a bytes) v [0])) ∧
      (good (2 :: le 8 a ++ le 8 n) → let i := Instr.irhamRead vi sq tag addr n
        (n = 0 → answers i s v [0]) ∧
        ((4096 < n ∨ 2 ^ 53 < a + n) → n ≠ 0 → answers i s v (nak a)) ∧
        (n ≠ 0 → ¬ alive → answers i s v (nak a)) ∧
        (∀ f, n ≠ 0 → n ≤ 4096 → a + n ≤ 2 ^ 53 → alive → s.rangeFault v.ctx a n 0 = some f → answers i s v (nak f.1)) ∧
        (n ≠ 0 → n ≤ 4096 → a + n ≤ 2 ^ 53 → alive → s.rangeFault v.ctx a n 0 = none → answers i s v (0 :: s.genRead v.ctx a n))) ∧
      (good (3 :: le 2 off.toNat ++ le 8 w.toNat) → answers (.irhamRegw vi sq tag off w) s (v.hostWrite off.toNat w) [0]) ∧
      (good (4 :: le 2 off.toNat) → answers (.irhamRegr vi sq tag off) s v (0 :: le 8 (v.regRead off.toNat).toNat)) ∧
      (good [5] → let q := ((List.range 16).filter (fun j => (s.part v.part).quarters.getLsbD j)).length
        answers (.irhamInfo vi sq tag) s v (0 :: (le 4 (64 * q) ++ le 4 (16 * q) ++ le 4 (4 * q) ++ le 4 (8 * q) ++ le 8 (s.part v.part).granules))) ∧
      (good (6 :: nonce) → (32 < nonce.length → answers (.irhamAttest vi sq tag nonce) s v (nak 0)) ∧
        (nonce.length ≤ 32 → let x := s.part v.part
          let m := s.measures.flatten ++ Config.measure (le 2 x.quarters.toNat ++ le 2 x.capw.toNat) ++ Config.measure (Config.supervisorImage v.part) ++
            ((s.objs.filter (fun o => o.2.part == v.part)).flatMap (fun o => Config.measure o.2.bytes)) ++ nonce
          answers (.irhamAttest vi sq tag nonce) s v (0 :: (m ++ Config.quoteSignature m ++ Config.certificate s.pkg)))))) ∧
  (∀ (s : State) (vi : Nat) (sq : BitVec 48) (tag : BitVec 128) (w : Word), Tab.find? s.vis vi = none →
    exec (.irhamInfo vi sq tag) s = .next s ∧ exec (.viTailWrite vi w) s = .next s)
end

