-- ==== Sys2Proof/Laws/Arms.lean ====
section
/-! SUPPORT. `exec` at each constructor: the meaning its arm calls. -/

namespace Sys2Proof.Machine

@[simp] theorem exec_ldb (x0 : BitVec 12) (x1 : Reg) (x2 : Reg) (s : State) : exec (.ldb x0 x1 x2) s = execLdb x0 x1 x2 s := rfl
@[simp] theorem exec_ldh (x0 : BitVec 12) (x1 : Reg) (x2 : Reg) (s : State) : exec (.ldh x0 x1 x2) s = execLdh x0 x1 x2 s := rfl
@[simp] theorem exec_ldw (x0 : BitVec 12) (x1 : Reg) (x2 : Reg) (s : State) : exec (.ldw x0 x1 x2) s = execLdw x0 x1 x2 s := rfl
@[simp] theorem exec_ldd (x0 : BitVec 12) (x1 : Reg) (x2 : Reg) (s : State) : exec (.ldd x0 x1 x2) s = execLdd x0 x1 x2 s := rfl
@[simp] theorem exec_ldbu (x0 : BitVec 12) (x1 : Reg) (x2 : Reg) (s : State) : exec (.ldbu x0 x1 x2) s = execLdbu x0 x1 x2 s := rfl
@[simp] theorem exec_ldhu (x0 : BitVec 12) (x1 : Reg) (x2 : Reg) (s : State) : exec (.ldhu x0 x1 x2) s = execLdhu x0 x1 x2 s := rfl
@[simp] theorem exec_ldwu (x0 : BitVec 12) (x1 : Reg) (x2 : Reg) (s : State) : exec (.ldwu x0 x1 x2) s = execLdwu x0 x1 x2 s := rfl
@[simp] theorem exec_pref (x0 : BitVec 12) (x1 : Reg) (x2 : Reg) (s : State) : exec (.pref x0 x1 x2) s = execPref x0 x1 x2 s := rfl
@[simp] theorem exec_stb (x0 : BitVec 12) (x1 : Reg) (x2 : Reg) (s : State) : exec (.stb x0 x1 x2) s = execStb x0 x1 x2 s := rfl
@[simp] theorem exec_sth (x0 : BitVec 12) (x1 : Reg) (x2 : Reg) (s : State) : exec (.sth x0 x1 x2) s = execSth x0 x1 x2 s := rfl
@[simp] theorem exec_stw (x0 : BitVec 12) (x1 : Reg) (x2 : Reg) (s : State) : exec (.stw x0 x1 x2) s = execStw x0 x1 x2 s := rfl
@[simp] theorem exec_std (x0 : BitVec 12) (x1 : Reg) (x2 : Reg) (s : State) : exec (.std x0 x1 x2) s = execStd x0 x1 x2 s := rfl
@[simp] theorem exec_cpin (x0 : BitVec 12) (x1 : Reg) (s : State) : exec (.cpin x0 x1) s = execCpin x0 x1 s := rfl
@[simp] theorem exec_cunpin (x0 : BitVec 12) (x1 : Reg) (s : State) : exec (.cunpin x0 x1) s = execCunpin x0 x1 s := rfl
@[simp] theorem exec_cflush (x0 : BitVec 12) (x1 : Reg) (s : State) : exec (.cflush x0 x1) s = execCflush x0 x1 s := rfl
@[simp] theorem exec_addi (x0 : BitVec 12) (x1 : Reg) (x2 : Reg) (s : State) : exec (.addi x0 x1 x2) s = execAddi x0 x1 x2 s := rfl
@[simp] theorem exec_andi (x0 : BitVec 12) (x1 : Reg) (x2 : Reg) (s : State) : exec (.andi x0 x1 x2) s = execAndi x0 x1 x2 s := rfl
@[simp] theorem exec_ori (x0 : BitVec 12) (x1 : Reg) (x2 : Reg) (s : State) : exec (.ori x0 x1 x2) s = execOri x0 x1 x2 s := rfl
@[simp] theorem exec_xori (x0 : BitVec 12) (x1 : Reg) (x2 : Reg) (s : State) : exec (.xori x0 x1 x2) s = execXori x0 x1 x2 s := rfl
@[simp] theorem exec_slti (x0 : BitVec 12) (x1 : Reg) (x2 : Reg) (s : State) : exec (.slti x0 x1 x2) s = execSlti x0 x1 x2 s := rfl
@[simp] theorem exec_sltiu (x0 : BitVec 12) (x1 : Reg) (x2 : Reg) (s : State) : exec (.sltiu x0 x1 x2) s = execSltiu x0 x1 x2 s := rfl
@[simp] theorem exec_slli (x0 : BitVec 6) (x1 : Reg) (x2 : Reg) (s : State) : exec (.slli x0 x1 x2) s = execSlli x0 x1 x2 s := rfl
@[simp] theorem exec_srli (x0 : BitVec 6) (x1 : Reg) (x2 : Reg) (s : State) : exec (.srli x0 x1 x2) s = execSrli x0 x1 x2 s := rfl
@[simp] theorem exec_srai (x0 : BitVec 6) (x1 : Reg) (x2 : Reg) (s : State) : exec (.srai x0 x1 x2) s = execSrai x0 x1 x2 s := rfl
@[simp] theorem exec_rori (x0 : BitVec 6) (x1 : Reg) (x2 : Reg) (s : State) : exec (.rori x0 x1 x2) s = execRori x0 x1 x2 s := rfl
@[simp] theorem exec_sextb (x0 : Reg) (x1 : Reg) (s : State) : exec (.sextb x0 x1) s = execSextb x0 x1 s := rfl
@[simp] theorem exec_sexth (x0 : Reg) (x1 : Reg) (s : State) : exec (.sexth x0 x1) s = execSexth x0 x1 s := rfl
@[simp] theorem exec_sextw (x0 : Reg) (x1 : Reg) (s : State) : exec (.sextw x0 x1) s = execSextw x0 x1 s := rfl
@[simp] theorem exec_zextb (x0 : Reg) (x1 : Reg) (s : State) : exec (.zextb x0 x1) s = execZextb x0 x1 s := rfl
@[simp] theorem exec_zexth (x0 : Reg) (x1 : Reg) (s : State) : exec (.zexth x0 x1) s = execZexth x0 x1 s := rfl
@[simp] theorem exec_zextw (x0 : Reg) (x1 : Reg) (s : State) : exec (.zextw x0 x1) s = execZextw x0 x1 s := rfl
@[simp] theorem exec_add (x0 : Reg) (x1 : Reg) (x2 : Reg) (s : State) : exec (.add x0 x1 x2) s = execAdd x0 x1 x2 s := rfl
@[simp] theorem exec_sub (x0 : Reg) (x1 : Reg) (x2 : Reg) (s : State) : exec (.sub x0 x1 x2) s = execSub x0 x1 x2 s := rfl
@[simp] theorem exec_and (x0 : Reg) (x1 : Reg) (x2 : Reg) (s : State) : exec (.and x0 x1 x2) s = execAnd x0 x1 x2 s := rfl
@[simp] theorem exec_or (x0 : Reg) (x1 : Reg) (x2 : Reg) (s : State) : exec (.or x0 x1 x2) s = execOr x0 x1 x2 s := rfl
@[simp] theorem exec_xor (x0 : Reg) (x1 : Reg) (x2 : Reg) (s : State) : exec (.xor x0 x1 x2) s = execXor x0 x1 x2 s := rfl
@[simp] theorem exec_sll (x0 : Reg) (x1 : Reg) (x2 : Reg) (s : State) : exec (.sll x0 x1 x2) s = execSll x0 x1 x2 s := rfl
@[simp] theorem exec_srl (x0 : Reg) (x1 : Reg) (x2 : Reg) (s : State) : exec (.srl x0 x1 x2) s = execSrl x0 x1 x2 s := rfl
@[simp] theorem exec_sra (x0 : Reg) (x1 : Reg) (x2 : Reg) (s : State) : exec (.sra x0 x1 x2) s = execSra x0 x1 x2 s := rfl
@[simp] theorem exec_ror (x0 : Reg) (x1 : Reg) (x2 : Reg) (s : State) : exec (.ror x0 x1 x2) s = execRor x0 x1 x2 s := rfl
@[simp] theorem exec_slt (x0 : Reg) (x1 : Reg) (x2 : Reg) (s : State) : exec (.slt x0 x1 x2) s = execSlt x0 x1 x2 s := rfl
@[simp] theorem exec_sltu (x0 : Reg) (x1 : Reg) (x2 : Reg) (s : State) : exec (.sltu x0 x1 x2) s = execSltu x0 x1 x2 s := rfl
@[simp] theorem exec_min (x0 : Reg) (x1 : Reg) (x2 : Reg) (s : State) : exec (.min x0 x1 x2) s = execMin x0 x1 x2 s := rfl
@[simp] theorem exec_max (x0 : Reg) (x1 : Reg) (x2 : Reg) (s : State) : exec (.max x0 x1 x2) s = execMax x0 x1 x2 s := rfl
@[simp] theorem exec_minu (x0 : Reg) (x1 : Reg) (x2 : Reg) (s : State) : exec (.minu x0 x1 x2) s = execMinu x0 x1 x2 s := rfl
@[simp] theorem exec_maxu (x0 : Reg) (x1 : Reg) (x2 : Reg) (s : State) : exec (.maxu x0 x1 x2) s = execMaxu x0 x1 x2 s := rfl
@[simp] theorem exec_mul (x0 : Reg) (x1 : Reg) (x2 : Reg) (s : State) : exec (.mul x0 x1 x2) s = execMul x0 x1 x2 s := rfl
@[simp] theorem exec_mulh (x0 : Reg) (x1 : Reg) (x2 : Reg) (s : State) : exec (.mulh x0 x1 x2) s = execMulh x0 x1 x2 s := rfl
@[simp] theorem exec_mulhu (x0 : Reg) (x1 : Reg) (x2 : Reg) (s : State) : exec (.mulhu x0 x1 x2) s = execMulhu x0 x1 x2 s := rfl
@[simp] theorem exec_div (x0 : Reg) (x1 : Reg) (x2 : Reg) (s : State) : exec (.div x0 x1 x2) s = execDiv x0 x1 x2 s := rfl
@[simp] theorem exec_divu (x0 : Reg) (x1 : Reg) (x2 : Reg) (s : State) : exec (.divu x0 x1 x2) s = execDivu x0 x1 x2 s := rfl
@[simp] theorem exec_rem (x0 : Reg) (x1 : Reg) (x2 : Reg) (s : State) : exec (.rem x0 x1 x2) s = execRem x0 x1 x2 s := rfl
@[simp] theorem exec_remu (x0 : Reg) (x1 : Reg) (x2 : Reg) (s : State) : exec (.remu x0 x1 x2) s = execRemu x0 x1 x2 s := rfl
@[simp] theorem exec_clz (x0 : Reg) (x1 : Reg) (s : State) : exec (.clz x0 x1) s = execClz x0 x1 s := rfl
@[simp] theorem exec_ctz (x0 : Reg) (x1 : Reg) (s : State) : exec (.ctz x0 x1) s = execCtz x0 x1 s := rfl
@[simp] theorem exec_popc (x0 : Reg) (x1 : Reg) (s : State) : exec (.popc x0 x1) s = execPopc x0 x1 s := rfl
@[simp] theorem exec_bswap (x0 : Reg) (x1 : Reg) (s : State) : exec (.bswap x0 x1) s = execBswap x0 x1 s := rfl
@[simp] theorem exec_sel (x0 : Reg) (x1 : Reg) (x2 : Reg) (s : State) : exec (.sel x0 x1 x2) s = execSel x0 x1 x2 s := rfl
@[simp] theorem exec_andn (x0 : Reg) (x1 : Reg) (x2 : Reg) (s : State) : exec (.andn x0 x1 x2) s = execAndn x0 x1 x2 s := rfl
@[simp] theorem exec_addw (x0 : Reg) (x1 : Reg) (x2 : Reg) (s : State) : exec (.addw x0 x1 x2) s = execAddw x0 x1 x2 s := rfl
@[simp] theorem exec_subw (x0 : Reg) (x1 : Reg) (x2 : Reg) (s : State) : exec (.subw x0 x1 x2) s = execSubw x0 x1 x2 s := rfl
@[simp] theorem exec_mulw (x0 : Reg) (x1 : Reg) (x2 : Reg) (s : State) : exec (.mulw x0 x1 x2) s = execMulw x0 x1 x2 s := rfl
@[simp] theorem exec_sllw (x0 : Reg) (x1 : Reg) (x2 : Reg) (s : State) : exec (.sllw x0 x1 x2) s = execSllw x0 x1 x2 s := rfl
@[simp] theorem exec_srlw (x0 : Reg) (x1 : Reg) (x2 : Reg) (s : State) : exec (.srlw x0 x1 x2) s = execSrlw x0 x1 x2 s := rfl
@[simp] theorem exec_sraw (x0 : Reg) (x1 : Reg) (x2 : Reg) (s : State) : exec (.sraw x0 x1 x2) s = execSraw x0 x1 x2 s := rfl
@[simp] theorem exec_divw (x0 : Reg) (x1 : Reg) (x2 : Reg) (s : State) : exec (.divw x0 x1 x2) s = execDivw x0 x1 x2 s := rfl
@[simp] theorem exec_remw (x0 : Reg) (x1 : Reg) (x2 : Reg) (s : State) : exec (.remw x0 x1 x2) s = execRemw x0 x1 x2 s := rfl
@[simp] theorem exec_lui (x0 : BitVec 20) (x1 : Reg) (s : State) : exec (.lui x0 x1) s = execLui x0 x1 s := rfl
@[simp] theorem exec_apc (x0 : BitVec 20) (x1 : Reg) (s : State) : exec (.apc x0 x1) s = execApc x0 x1 s := rfl
@[simp] theorem exec_beq (x0 : BitVec 12) (x1 : Reg) (x2 : Reg) (s : State) : exec (.beq x0 x1 x2) s = execBeq x0 x1 x2 s := rfl
@[simp] theorem exec_bne (x0 : BitVec 12) (x1 : Reg) (x2 : Reg) (s : State) : exec (.bne x0 x1 x2) s = execBne x0 x1 x2 s := rfl
@[simp] theorem exec_blt (x0 : BitVec 12) (x1 : Reg) (x2 : Reg) (s : State) : exec (.blt x0 x1 x2) s = execBlt x0 x1 x2 s := rfl
@[simp] theorem exec_bge (x0 : BitVec 12) (x1 : Reg) (x2 : Reg) (s : State) : exec (.bge x0 x1 x2) s = execBge x0 x1 x2 s := rfl
@[simp] theorem exec_bltu (x0 : BitVec 12) (x1 : Reg) (x2 : Reg) (s : State) : exec (.bltu x0 x1 x2) s = execBltu x0 x1 x2 s := rfl
@[simp] theorem exec_bgeu (x0 : BitVec 12) (x1 : Reg) (x2 : Reg) (s : State) : exec (.bgeu x0 x1 x2) s = execBgeu x0 x1 x2 s := rfl
@[simp] theorem exec_bfull (x0 : BitVec 12) (x1 : Reg) (s : State) : exec (.bfull x0 x1) s = execBfull x0 x1 s := rfl
@[simp] theorem exec_bempty (x0 : BitVec 12) (x1 : Reg) (s : State) : exec (.bempty x0 x1) s = execBempty x0 x1 s := rfl
@[simp] theorem exec_jal (x0 : BitVec 20) (x1 : Reg) (s : State) : exec (.jal x0 x1) s = execJal x0 x1 s := rfl
@[simp] theorem exec_jalr (x0 : BitVec 12) (x1 : Reg) (x2 : Reg) (s : State) : exec (.jalr x0 x1 x2) s = execJalr x0 x1 x2 s := rfl
@[simp] theorem exec_loop (x0 : BitVec 12) (x1 : Reg) (s : State) : exec (.loop x0 x1) s = execLoop x0 x1 s := rfl
@[simp] theorem exec_loopi (x0 : BitVec 12) (x1 : BitVec 10) (s : State) : exec (.loopi x0 x1) s = execLoopi x0 x1 s := rfl
@[simp] theorem exec_lbrk (s : State) : exec (.lbrk) s = execLbrk s := rfl
@[simp] theorem exec_lnext (s : State) : exec (.lnext) s = execLnext s := rfl
@[simp] theorem exec_lidx (x0 : BitVec 3) (x1 : Reg) (s : State) : exec (.lidx x0 x1) s = execLidx x0 x1 s := rfl
@[simp] theorem exec_yield (x0 : BitVec 8) (s : State) : exec (.yield x0) s = execYield x0 s := rfl
@[simp] theorem exec_padd (x0 : Reg) (x1 : Reg) (x2 : Reg) (s : State) : exec (.padd x0 x1 x2) s = execPadd x0 x1 x2 s := rfl
@[simp] theorem exec_paddi (x0 : BitVec 12) (x1 : Reg) (x2 : Reg) (s : State) : exec (.paddi x0 x1 x2) s = execPaddi x0 x1 x2 s := rfl
@[simp] theorem exec_psub (x0 : Reg) (x1 : Reg) (x2 : Reg) (s : State) : exec (.psub x0 x1 x2) s = execPsub x0 x1 x2 s := rfl
@[simp] theorem exec_psetf (x0 : BitVec 3) (x1 : BitVec 5) (x2 : Reg) (x3 : Reg) (s : State) : exec (.psetf x0 x1 x2 x3) s = execPsetf x0 x1 x2 x3 s := rfl
@[simp] theorem exec_psetp (x0 : BitVec 3) (x1 : Reg) (x2 : Reg) (s : State) : exec (.psetp x0 x1 x2) s = execPsetp x0 x1 x2 s := rfl
@[simp] theorem exec_pgetf (x0 : Reg) (x1 : Reg) (s : State) : exec (.pgetf x0 x1) s = execPgetf x0 x1 s := rfl
@[simp] theorem exec_pchk (x0 : Reg) (x1 : Reg) (x2 : Reg) (s : State) : exec (.pchk x0 x1 x2) s = execPchk x0 x1 x2 s := rfl
@[simp] theorem exec_fadd (x0 : Reg) (x1 : Reg) (x2 : BitVec 2) (x3 : Reg) (s : State) : exec (.fadd x0 x1 x2 x3) s = execFadd x0 x1 x2 x3 s := rfl
@[simp] theorem exec_fsub (x0 : Reg) (x1 : Reg) (x2 : BitVec 2) (x3 : Reg) (s : State) : exec (.fsub x0 x1 x2 x3) s = execFsub x0 x1 x2 x3 s := rfl
@[simp] theorem exec_fmul (x0 : Reg) (x1 : Reg) (x2 : BitVec 2) (x3 : Reg) (s : State) : exec (.fmul x0 x1 x2 x3) s = execFmul x0 x1 x2 x3 s := rfl
@[simp] theorem exec_fdiv (x0 : Reg) (x1 : Reg) (x2 : BitVec 2) (x3 : Reg) (s : State) : exec (.fdiv x0 x1 x2 x3) s = execFdiv x0 x1 x2 x3 s := rfl
@[simp] theorem exec_fsqrt (x0 : Reg) (x1 : BitVec 2) (x2 : Reg) (s : State) : exec (.fsqrt x0 x1 x2) s = execFsqrt x0 x1 x2 s := rfl
@[simp] theorem exec_fma (x0 : Reg) (x1 : Reg) (x2 : BitVec 2) (x3 : Reg) (s : State) : exec (.fma x0 x1 x2 x3) s = execFma x0 x1 x2 x3 s := rfl
@[simp] theorem exec_fmin (x0 : Reg) (x1 : Reg) (x2 : BitVec 2) (x3 : Reg) (s : State) : exec (.fmin x0 x1 x2 x3) s = execFmin x0 x1 x2 x3 s := rfl
@[simp] theorem exec_fmax (x0 : Reg) (x1 : Reg) (x2 : BitVec 2) (x3 : Reg) (s : State) : exec (.fmax x0 x1 x2 x3) s = execFmax x0 x1 x2 x3 s := rfl
@[simp] theorem exec_fneg (x0 : Reg) (x1 : BitVec 2) (x2 : Reg) (s : State) : exec (.fneg x0 x1 x2) s = execFneg x0 x1 x2 s := rfl
@[simp] theorem exec_fabs (x0 : Reg) (x1 : BitVec 2) (x2 : Reg) (s : State) : exec (.fabs x0 x1 x2) s = execFabs x0 x1 x2 s := rfl
@[simp] theorem exec_fsgn (x0 : Reg) (x1 : Reg) (x2 : BitVec 2) (x3 : Reg) (s : State) : exec (.fsgn x0 x1 x2 x3) s = execFsgn x0 x1 x2 x3 s := rfl
@[simp] theorem exec_feq (x0 : Reg) (x1 : Reg) (x2 : BitVec 2) (x3 : Reg) (s : State) : exec (.feq x0 x1 x2 x3) s = execFeq x0 x1 x2 x3 s := rfl
@[simp] theorem exec_flt (x0 : Reg) (x1 : Reg) (x2 : BitVec 2) (x3 : Reg) (s : State) : exec (.flt x0 x1 x2 x3) s = execFlt x0 x1 x2 x3 s := rfl
@[simp] theorem exec_fle (x0 : Reg) (x1 : Reg) (x2 : BitVec 2) (x3 : Reg) (s : State) : exec (.fle x0 x1 x2 x3) s = execFle x0 x1 x2 x3 s := rfl
@[simp] theorem exec_fcls (x0 : Reg) (x1 : BitVec 2) (x2 : Reg) (s : State) : exec (.fcls x0 x1 x2) s = execFcls x0 x1 x2 s := rfl
@[simp] theorem exec_fcvti (x0 : BitVec 5) (x1 : Reg) (x2 : BitVec 2) (x3 : Reg) (s : State) : exec (.fcvti x0 x1 x2 x3) s = execFcvti x0 x1 x2 x3 s := rfl
@[simp] theorem exec_fcvtf (x0 : BitVec 5) (x1 : Reg) (x2 : BitVec 2) (x3 : Reg) (s : State) : exec (.fcvtf x0 x1 x2 x3) s = execFcvtf x0 x1 x2 x3 s := rfl
@[simp] theorem exec_fcvtff (x0 : BitVec 5) (x1 : Reg) (x2 : BitVec 2) (x3 : Reg) (s : State) : exec (.fcvtff x0 x1 x2 x3) s = execFcvtff x0 x1 x2 x3 s := rfl
@[simp] theorem exec_vld (x0 : Bool) (x1 : Bool) (x2 : Reg) (x3 : Reg) (s : State) : exec (.vld x0 x1 x2 x3) s = execVld x0 x1 x2 x3 s := rfl
@[simp] theorem exec_vlds (x0 : Bool) (x1 : Bool) (x2 : Reg) (x3 : Reg) (x4 : Reg) (s : State) : exec (.vlds x0 x1 x2 x3 x4) s = execVlds x0 x1 x2 x3 x4 s := rfl
@[simp] theorem exec_vldx (x0 : Bool) (x1 : Bool) (x2 : Reg) (x3 : Reg) (x4 : Reg) (s : State) : exec (.vldx x0 x1 x2 x3 x4) s = execVldx x0 x1 x2 x3 x4 s := rfl
@[simp] theorem exec_vst (x0 : Bool) (x1 : Bool) (x2 : Reg) (x3 : Reg) (s : State) : exec (.vst x0 x1 x2 x3) s = execVst x0 x1 x2 x3 s := rfl
@[simp] theorem exec_vsts (x0 : Bool) (x1 : Bool) (x2 : Reg) (x3 : Reg) (x4 : Reg) (s : State) : exec (.vsts x0 x1 x2 x3 x4) s = execVsts x0 x1 x2 x3 x4 s := rfl
@[simp] theorem exec_vstx (x0 : Bool) (x1 : Bool) (x2 : Reg) (x3 : Reg) (x4 : Reg) (s : State) : exec (.vstx x0 x1 x2 x3 x4) s = execVstx x0 x1 x2 x3 x4 s := rfl
@[simp] theorem exec_vlda (x0 : Bool) (x1 : Bool) (x2 : Reg) (x3 : Reg) (x4 : Reg) (s : State) : exec (.vlda x0 x1 x2 x3 x4) s = execVlda x0 x1 x2 x3 x4 s := rfl
@[simp] theorem exec_vldm (x0 : Bool) (x1 : Reg) (x2 : BitVec 3) (s : State) : exec (.vldm x0 x1 x2) s = execVldm x0 x1 x2 s := rfl
@[simp] theorem exec_vstm (x0 : Bool) (x1 : Reg) (x2 : BitVec 3) (s : State) : exec (.vstm x0 x1 x2) s = execVstm x0 x1 x2 s := rfl
@[simp] theorem exec_vadd (x0 : Bool) (x1 : Bool) (x2 : Reg) (x3 : Reg) (x4 : BitVec 2) (x5 : Reg) (s : State) : exec (.vadd x0 x1 x2 x3 x4 x5) s = execVadd x0 x1 x2 x3 x4 x5 s := rfl
@[simp] theorem exec_vsub (x0 : Bool) (x1 : Bool) (x2 : Reg) (x3 : Reg) (x4 : BitVec 2) (x5 : Reg) (s : State) : exec (.vsub x0 x1 x2 x3 x4 x5) s = execVsub x0 x1 x2 x3 x4 x5 s := rfl
@[simp] theorem exec_vmul (x0 : Bool) (x1 : Bool) (x2 : Reg) (x3 : Reg) (x4 : BitVec 2) (x5 : Reg) (s : State) : exec (.vmul x0 x1 x2 x3 x4 x5) s = execVmul x0 x1 x2 x3 x4 x5 s := rfl
@[simp] theorem exec_vmulh (x0 : Bool) (x1 : Bool) (x2 : Reg) (x3 : Reg) (x4 : BitVec 2) (x5 : Reg) (s : State) : exec (.vmulh x0 x1 x2 x3 x4 x5) s = execVmulh x0 x1 x2 x3 x4 x5 s := rfl
@[simp] theorem exec_vmulhu (x0 : Bool) (x1 : Bool) (x2 : Reg) (x3 : Reg) (x4 : BitVec 2) (x5 : Reg) (s : State) : exec (.vmulhu x0 x1 x2 x3 x4 x5) s = execVmulhu x0 x1 x2 x3 x4 x5 s := rfl
@[simp] theorem exec_vmadd (x0 : Bool) (x1 : Bool) (x2 : Reg) (x3 : Reg) (x4 : BitVec 2) (x5 : Reg) (s : State) : exec (.vmadd x0 x1 x2 x3 x4 x5) s = execVmadd x0 x1 x2 x3 x4 x5 s := rfl
@[simp] theorem exec_vmin (x0 : Bool) (x1 : Bool) (x2 : Reg) (x3 : Reg) (x4 : BitVec 2) (x5 : Reg) (s : State) : exec (.vmin x0 x1 x2 x3 x4 x5) s = execVmin x0 x1 x2 x3 x4 x5 s := rfl
@[simp] theorem exec_vmax (x0 : Bool) (x1 : Bool) (x2 : Reg) (x3 : Reg) (x4 : BitVec 2) (x5 : Reg) (s : State) : exec (.vmax x0 x1 x2 x3 x4 x5) s = execVmax x0 x1 x2 x3 x4 x5 s := rfl
@[simp] theorem exec_vminu (x0 : Bool) (x1 : Bool) (x2 : Reg) (x3 : Reg) (x4 : BitVec 2) (x5 : Reg) (s : State) : exec (.vminu x0 x1 x2 x3 x4 x5) s = execVminu x0 x1 x2 x3 x4 x5 s := rfl
@[simp] theorem exec_vmaxu (x0 : Bool) (x1 : Bool) (x2 : Reg) (x3 : Reg) (x4 : BitVec 2) (x5 : Reg) (s : State) : exec (.vmaxu x0 x1 x2 x3 x4 x5) s = execVmaxu x0 x1 x2 x3 x4 x5 s := rfl
@[simp] theorem exec_vand (x0 : Bool) (x1 : Bool) (x2 : Reg) (x3 : Reg) (x4 : BitVec 2) (x5 : Reg) (s : State) : exec (.vand x0 x1 x2 x3 x4 x5) s = execVand x0 x1 x2 x3 x4 x5 s := rfl
@[simp] theorem exec_vor (x0 : Bool) (x1 : Bool) (x2 : Reg) (x3 : Reg) (x4 : BitVec 2) (x5 : Reg) (s : State) : exec (.vor x0 x1 x2 x3 x4 x5) s = execVor x0 x1 x2 x3 x4 x5 s := rfl
@[simp] theorem exec_vxor (x0 : Bool) (x1 : Bool) (x2 : Reg) (x3 : Reg) (x4 : BitVec 2) (x5 : Reg) (s : State) : exec (.vxor x0 x1 x2 x3 x4 x5) s = execVxor x0 x1 x2 x3 x4 x5 s := rfl
@[simp] theorem exec_vsll (x0 : Bool) (x1 : Bool) (x2 : Reg) (x3 : Reg) (x4 : BitVec 2) (x5 : Reg) (s : State) : exec (.vsll x0 x1 x2 x3 x4 x5) s = execVsll x0 x1 x2 x3 x4 x5 s := rfl
@[simp] theorem exec_vsrl (x0 : Bool) (x1 : Bool) (x2 : Reg) (x3 : Reg) (x4 : BitVec 2) (x5 : Reg) (s : State) : exec (.vsrl x0 x1 x2 x3 x4 x5) s = execVsrl x0 x1 x2 x3 x4 x5 s := rfl
@[simp] theorem exec_vsra (x0 : Bool) (x1 : Bool) (x2 : Reg) (x3 : Reg) (x4 : BitVec 2) (x5 : Reg) (s : State) : exec (.vsra x0 x1 x2 x3 x4 x5) s = execVsra x0 x1 x2 x3 x4 x5 s := rfl
@[simp] theorem exec_vsadd (x0 : Bool) (x1 : Bool) (x2 : Reg) (x3 : Reg) (x4 : BitVec 2) (x5 : Reg) (s : State) : exec (.vsadd x0 x1 x2 x3 x4 x5) s = execVsadd x0 x1 x2 x3 x4 x5 s := rfl
@[simp] theorem exec_vssub (x0 : Bool) (x1 : Bool) (x2 : Reg) (x3 : Reg) (x4 : BitVec 2) (x5 : Reg) (s : State) : exec (.vssub x0 x1 x2 x3 x4 x5) s = execVssub x0 x1 x2 x3 x4 x5 s := rfl
@[simp] theorem exec_vceq (x0 : Bool) (x1 : Bool) (x2 : Reg) (x3 : Reg) (x4 : BitVec 2) (x5 : BitVec 3) (s : State) : exec (.vceq x0 x1 x2 x3 x4 x5) s = execVceq x0 x1 x2 x3 x4 x5 s := rfl
@[simp] theorem exec_vcne (x0 : Bool) (x1 : Bool) (x2 : Reg) (x3 : Reg) (x4 : BitVec 2) (x5 : BitVec 3) (s : State) : exec (.vcne x0 x1 x2 x3 x4 x5) s = execVcne x0 x1 x2 x3 x4 x5 s := rfl
@[simp] theorem exec_vclt (x0 : Bool) (x1 : Bool) (x2 : Reg) (x3 : Reg) (x4 : BitVec 2) (x5 : BitVec 3) (s : State) : exec (.vclt x0 x1 x2 x3 x4 x5) s = execVclt x0 x1 x2 x3 x4 x5 s := rfl
@[simp] theorem exec_vcle (x0 : Bool) (x1 : Bool) (x2 : Reg) (x3 : Reg) (x4 : BitVec 2) (x5 : BitVec 3) (s : State) : exec (.vcle x0 x1 x2 x3 x4 x5) s = execVcle x0 x1 x2 x3 x4 x5 s := rfl
@[simp] theorem exec_vcltu (x0 : Bool) (x1 : Bool) (x2 : Reg) (x3 : Reg) (x4 : BitVec 2) (x5 : BitVec 3) (s : State) : exec (.vcltu x0 x1 x2 x3 x4 x5) s = execVcltu x0 x1 x2 x3 x4 x5 s := rfl
@[simp] theorem exec_vcleu (x0 : Bool) (x1 : Bool) (x2 : Reg) (x3 : Reg) (x4 : BitVec 2) (x5 : BitVec 3) (s : State) : exec (.vcleu x0 x1 x2 x3 x4 x5) s = execVcleu x0 x1 x2 x3 x4 x5 s := rfl
@[simp] theorem exec_vfadd (x0 : Bool) (x1 : Bool) (x2 : Reg) (x3 : Reg) (x4 : BitVec 2) (x5 : Reg) (s : State) : exec (.vfadd x0 x1 x2 x3 x4 x5) s = execVfadd x0 x1 x2 x3 x4 x5 s := rfl
@[simp] theorem exec_vfsub (x0 : Bool) (x1 : Bool) (x2 : Reg) (x3 : Reg) (x4 : BitVec 2) (x5 : Reg) (s : State) : exec (.vfsub x0 x1 x2 x3 x4 x5) s = execVfsub x0 x1 x2 x3 x4 x5 s := rfl
@[simp] theorem exec_vfmul (x0 : Bool) (x1 : Bool) (x2 : Reg) (x3 : Reg) (x4 : BitVec 2) (x5 : Reg) (s : State) : exec (.vfmul x0 x1 x2 x3 x4 x5) s = execVfmul x0 x1 x2 x3 x4 x5 s := rfl
@[simp] theorem exec_vfdiv (x0 : Bool) (x1 : Bool) (x2 : Reg) (x3 : Reg) (x4 : BitVec 2) (x5 : Reg) (s : State) : exec (.vfdiv x0 x1 x2 x3 x4 x5) s = execVfdiv x0 x1 x2 x3 x4 x5 s := rfl
@[simp] theorem exec_vfsqrt (x0 : Bool) (x1 : Bool) (x2 : Reg) (x3 : Reg) (s : State) : exec (.vfsqrt x0 x1 x2 x3) s = execVfsqrt x0 x1 x2 x3 s := rfl
@[simp] theorem exec_vfma (x0 : Bool) (x1 : Bool) (x2 : Reg) (x3 : Reg) (x4 : BitVec 2) (x5 : Reg) (s : State) : exec (.vfma x0 x1 x2 x3 x4 x5) s = execVfma x0 x1 x2 x3 x4 x5 s := rfl
@[simp] theorem exec_vfms (x0 : Bool) (x1 : Bool) (x2 : Reg) (x3 : Reg) (x4 : BitVec 2) (x5 : Reg) (s : State) : exec (.vfms x0 x1 x2 x3 x4 x5) s = execVfms x0 x1 x2 x3 x4 x5 s := rfl
@[simp] theorem exec_vfnma (x0 : Bool) (x1 : Bool) (x2 : Reg) (x3 : Reg) (x4 : BitVec 2) (x5 : Reg) (s : State) : exec (.vfnma x0 x1 x2 x3 x4 x5) s = execVfnma x0 x1 x2 x3 x4 x5 s := rfl
@[simp] theorem exec_vfmin (x0 : Bool) (x1 : Bool) (x2 : Reg) (x3 : Reg) (x4 : BitVec 2) (x5 : Reg) (s : State) : exec (.vfmin x0 x1 x2 x3 x4 x5) s = execVfmin x0 x1 x2 x3 x4 x5 s := rfl
@[simp] theorem exec_vfmax (x0 : Bool) (x1 : Bool) (x2 : Reg) (x3 : Reg) (x4 : BitVec 2) (x5 : Reg) (s : State) : exec (.vfmax x0 x1 x2 x3 x4 x5) s = execVfmax x0 x1 x2 x3 x4 x5 s := rfl
@[simp] theorem exec_vfabs (x0 : Bool) (x1 : Bool) (x2 : Reg) (x3 : Reg) (s : State) : exec (.vfabs x0 x1 x2 x3) s = execVfabs x0 x1 x2 x3 s := rfl
@[simp] theorem exec_vfneg (x0 : Bool) (x1 : Bool) (x2 : Reg) (x3 : Reg) (s : State) : exec (.vfneg x0 x1 x2 x3) s = execVfneg x0 x1 x2 x3 s := rfl
@[simp] theorem exec_vfrcp (x0 : Bool) (x1 : Bool) (x2 : Reg) (x3 : Reg) (s : State) : exec (.vfrcp x0 x1 x2 x3) s = execVfrcp x0 x1 x2 x3 s := rfl
@[simp] theorem exec_vfrsq (x0 : Bool) (x1 : Bool) (x2 : Reg) (x3 : Reg) (s : State) : exec (.vfrsq x0 x1 x2 x3) s = execVfrsq x0 x1 x2 x3 s := rfl
@[simp] theorem exec_vfexp2 (x0 : Bool) (x1 : Bool) (x2 : Reg) (x3 : Reg) (s : State) : exec (.vfexp2 x0 x1 x2 x3) s = execVfexp2 x0 x1 x2 x3 s := rfl
@[simp] theorem exec_vfceq (x0 : Bool) (x1 : Bool) (x2 : Reg) (x3 : Reg) (x4 : BitVec 2) (x5 : BitVec 3) (s : State) : exec (.vfceq x0 x1 x2 x3 x4 x5) s = execVfceq x0 x1 x2 x3 x4 x5 s := rfl
@[simp] theorem exec_vfclt (x0 : Bool) (x1 : Bool) (x2 : Reg) (x3 : Reg) (x4 : BitVec 2) (x5 : BitVec 3) (s : State) : exec (.vfclt x0 x1 x2 x3 x4 x5) s = execVfclt x0 x1 x2 x3 x4 x5 s := rfl
@[simp] theorem exec_vfcle (x0 : Bool) (x1 : Bool) (x2 : Reg) (x3 : Reg) (x4 : BitVec 2) (x5 : BitVec 3) (s : State) : exec (.vfcle x0 x1 x2 x3 x4 x5) s = execVfcle x0 x1 x2 x3 x4 x5 s := rfl
@[simp] theorem exec_vfcls (x0 : Bool) (x1 : Bool) (x2 : Reg) (x3 : Reg) (s : State) : exec (.vfcls x0 x1 x2 x3) s = execVfcls x0 x1 x2 x3 s := rfl
@[simp] theorem exec_vcfg (x0 : Bool) (x1 : Reg) (x2 : Reg) (x3 : Reg) (s : State) : exec (.vcfg x0 x1 x2 x3) s = execVcfg x0 x1 x2 x3 s := rfl
@[simp] theorem exec_vgrant (x0 : Bool) (x1 : Reg) (s : State) : exec (.vgrant x0 x1) s = execVgrant x0 x1 s := rfl
@[simp] theorem exec_vcvt (x0 : Bool) (x1 : Bool) (x2 : BitVec 5) (x3 : Reg) (x4 : Reg) (s : State) : exec (.vcvt x0 x1 x2 x3 x4) s = execVcvt x0 x1 x2 x3 x4 s := rfl
@[simp] theorem exec_vcvtSr (x0 : Bool) (x1 : Bool) (x2 : BitVec 5) (x3 : Reg) (x4 : Reg) (s : State) : exec (.vcvtSr x0 x1 x2 x3 x4) s = execVcvtSr x0 x1 x2 x3 x4 s := rfl
@[simp] theorem exec_vsplat (x0 : Bool) (x1 : Bool) (x2 : Reg) (x3 : BitVec 2) (x4 : Reg) (s : State) : exec (.vsplat x0 x1 x2 x3 x4) s = execVsplat x0 x1 x2 x3 x4 s := rfl
@[simp] theorem exec_vmvs (x0 : Bool) (x1 : Reg) (x2 : Reg) (x3 : BitVec 2) (x4 : Reg) (s : State) : exec (.vmvs x0 x1 x2 x3 x4) s = execVmvs x0 x1 x2 x3 x4 s := rfl
@[simp] theorem exec_vmvv (x0 : Bool) (x1 : Bool) (x2 : Reg) (x3 : Reg) (s : State) : exec (.vmvv x0 x1 x2 x3) s = execVmvv x0 x1 x2 x3 s := rfl
@[simp] theorem exec_viota (x0 : Bool) (x1 : Bool) (x2 : Reg) (s : State) : exec (.viota x0 x1 x2) s = execViota x0 x1 x2 s := rfl
@[simp] theorem exec_vslup (x0 : Bool) (x1 : Bool) (x2 : Reg) (x3 : Reg) (x4 : BitVec 2) (x5 : Reg) (s : State) : exec (.vslup x0 x1 x2 x3 x4 x5) s = execVslup x0 x1 x2 x3 x4 x5 s := rfl
@[simp] theorem exec_vsldn (x0 : Bool) (x1 : Bool) (x2 : Reg) (x3 : Reg) (x4 : BitVec 2) (x5 : Reg) (s : State) : exec (.vsldn x0 x1 x2 x3 x4 x5) s = execVsldn x0 x1 x2 x3 x4 x5 s := rfl
@[simp] theorem exec_vgathr (x0 : Bool) (x1 : Reg) (x2 : Reg) (x3 : BitVec 2) (x4 : Reg) (s : State) : exec (.vgathr x0 x1 x2 x3 x4) s = execVgathr x0 x1 x2 x3 x4 s := rfl
@[simp] theorem exec_vcompr (x0 : Bool) (x1 : Reg) (x2 : Reg) (s : State) : exec (.vcompr x0 x1 x2) s = execVcompr x0 x1 x2 s := rfl
@[simp] theorem exec_vmerge (x0 : Bool) (x1 : Reg) (x2 : Reg) (x3 : BitVec 2) (x4 : Reg) (s : State) : exec (.vmerge x0 x1 x2 x3 x4) s = execVmerge x0 x1 x2 x3 x4 s := rfl
@[simp] theorem exec_vredsum (x0 : Bool) (x1 : Bool) (x2 : Reg) (x3 : Reg) (x4 : Reg) (s : State) : exec (.vredsum x0 x1 x2 x3 x4) s = execVredsum x0 x1 x2 x3 x4 s := rfl
@[simp] theorem exec_vredmin (x0 : Bool) (x1 : Bool) (x2 : Reg) (x3 : Reg) (x4 : Reg) (s : State) : exec (.vredmin x0 x1 x2 x3 x4) s = execVredmin x0 x1 x2 x3 x4 s := rfl
@[simp] theorem exec_vredmax (x0 : Bool) (x1 : Bool) (x2 : Reg) (x3 : Reg) (x4 : Reg) (s : State) : exec (.vredmax x0 x1 x2 x3 x4) s = execVredmax x0 x1 x2 x3 x4 s := rfl
@[simp] theorem exec_vfredsum (x0 : Bool) (x1 : Bool) (x2 : Reg) (x3 : Reg) (x4 : Reg) (s : State) : exec (.vfredsum x0 x1 x2 x3 x4) s = execVfredsum x0 x1 x2 x3 x4 s := rfl
@[simp] theorem exec_vfredmin (x0 : Bool) (x1 : Bool) (x2 : Reg) (x3 : Reg) (x4 : Reg) (s : State) : exec (.vfredmin x0 x1 x2 x3 x4) s = execVfredmin x0 x1 x2 x3 x4 s := rfl
@[simp] theorem exec_vfredmax (x0 : Bool) (x1 : Bool) (x2 : Reg) (x3 : Reg) (x4 : Reg) (s : State) : exec (.vfredmax x0 x1 x2 x3 x4) s = execVfredmax x0 x1 x2 x3 x4 s := rfl
@[simp] theorem exec_mlog (x0 : Bool) (x1 : BitVec 3) (x2 : BitVec 3) (x3 : BitVec 2) (x4 : BitVec 3) (s : State) : exec (.mlog x0 x1 x2 x3 x4) s = execMlog x0 x1 x2 x3 x4 s := rfl
@[simp] theorem exec_mpop (x0 : Bool) (x1 : BitVec 3) (x2 : Reg) (s : State) : exec (.mpop x0 x1 x2) s = execMpop x0 x1 x2 s := rfl
@[simp] theorem exec_mfirst (x0 : Bool) (x1 : BitVec 3) (x2 : Reg) (s : State) : exec (.mfirst x0 x1 x2) s = execMfirst x0 x1 x2 s := rfl
@[simp] theorem exec_vhwm (x0 : Bool) (x1 : Reg) (x2 : Reg) (s : State) : exec (.vhwm x0 x1 x2) s = execVhwm x0 x1 x2 s := rfl
@[simp] theorem exec_vhwmClr (x0 : Bool) (x1 : Reg) (x2 : Reg) (s : State) : exec (.vhwmClr x0 x1 x2) s = execVhwmClr x0 x1 x2 s := rfl
@[simp] theorem exec_mclaim (x0 : BitVec 3) (s : State) : exec (.mclaim x0) s = execMclaim x0 s := rfl
@[simp] theorem exec_mrels (x0 : BitVec 3) (s : State) : exec (.mrels x0) s = execMrels x0 s := rfl
@[simp] theorem exec_mzero (x0 : BitVec 3) (s : State) : exec (.mzero x0) s = execMzero x0 s := rfl
@[simp] theorem exec_mtask (x0 : Reg) (x1 : Reg) (s : State) : exec (.mtask x0 x1) s = execMtask x0 x1 s := rfl
@[simp] theorem exec_mwait (x0 : Reg) (s : State) : exec (.mwait x0) s = execMwait x0 s := rfl
@[simp] theorem exec_mwaitAcc (x0 : BitVec 3) (s : State) : exec (.mwaitAcc x0) s = execMwaitAcc x0 s := rfl
@[simp] theorem exec_mrd (x0 : Reg) (x1 : BitVec 3) (x2 : Reg) (s : State) : exec (.mrd x0 x1 x2) s = execMrd x0 x1 x2 s := rfl
@[simp] theorem exec_mwr (x0 : Reg) (x1 : Reg) (x2 : BitVec 3) (s : State) : exec (.mwr x0 x1 x2) s = execMwr x0 x1 x2 s := rfl
@[simp] theorem exec_mstat (x0 : BitVec 3) (x1 : Reg) (s : State) : exec (.mstat x0 x1) s = execMstat x0 x1 s := rfl
@[simp] theorem exec_xcopy (x0 : Reg) (x1 : Reg) (x2 : BitVec 3) (x3 : Reg) (s : State) : exec (.xcopy x0 x1 x2 x3) s = execXcopy x0 x1 x2 x3 s := rfl
@[simp] theorem exec_xcopy2 (x0 : Reg) (x1 : Reg) (x2 : BitVec 3) (x3 : Reg) (s : State) : exec (.xcopy2 x0 x1 x2 x3) s = execXcopy2 x0 x1 x2 x3 s := rfl
@[simp] theorem exec_xpln (x0 : Reg) (x1 : Reg) (x2 : BitVec 3) (x3 : Reg) (s : State) : exec (.xpln x0 x1 x2 x3) s = execXpln x0 x1 x2 x3 s := rfl
@[simp] theorem exec_xfill (x0 : Reg) (x1 : Reg) (x2 : BitVec 3) (x3 : Reg) (s : State) : exec (.xfill x0 x1 x2 x3) s = execXfill x0 x1 x2 x3 s := rfl
@[simp] theorem exec_xred (x0 : Reg) (x1 : Reg) (x2 : BitVec 3) (x3 : Reg) (s : State) : exec (.xred x0 x1 x2 x3) s = execXred x0 x1 x2 x3 s := rfl
@[simp] theorem exec_xcoll (x0 : Reg) (x1 : Reg) (x2 : BitVec 3) (x3 : Reg) (s : State) : exec (.xcoll x0 x1 x2 x3) s = execXcoll x0 x1 x2 x3 s := rfl
@[simp] theorem exec_xwait (x0 : Reg) (x1 : BitVec 3) (s : State) : exec (.xwait x0 x1) s = execXwait x0 x1 s := rfl
@[simp] theorem exec_mbput (x0 : BitVec 2) (x1 : Reg) (s : State) : exec (.mbput x0 x1) s = execMbput x0 x1 s := rfl
@[simp] theorem exec_mbtake (x0 : BitVec 2) (x1 : Reg) (s : State) : exec (.mbtake x0 x1) s = execMbtake x0 x1 s := rfl
@[simp] theorem exec_send (x0 : Reg) (x1 : Reg) (x2 : BitVec 3) (x3 : BitVec 4) (s : State) : exec (.send x0 x1 x2 x3) s = execSend x0 x1 x2 x3 s := rfl
@[simp] theorem exec_sendq (x0 : Reg) (x1 : Reg) (x2 : BitVec 4) (s : State) : exec (.sendq x0 x1 x2) s = execSendq x0 x1 x2 s := rfl
@[simp] theorem exec_recv (x0 : BitVec 4) (x1 : BitVec 3) (x2 : Reg) (s : State) : exec (.recv x0 x1 x2) s = execRecv x0 x1 x2 s := rfl
@[simp] theorem exec_rpoll (x0 : BitVec 4) (x1 : Reg) (s : State) : exec (.rpoll x0 x1) s = execRpoll x0 x1 s := rfl
@[simp] theorem exec_mclass (x0 : BitVec 4) (x1 : Reg) (s : State) : exec (.mclass x0 x1) s = execMclass x0 x1 s := rfl
@[simp] theorem exec_migr (x0 : Reg) (s : State) : exec (.migr x0) s = execMigr x0 s := rfl
@[simp] theorem exec_rank (x0 : Reg) (s : State) : exec (.rank x0) s = execRank x0 s := rfl
@[simp] theorem exec_rkset (x0 : Reg) (x1 : Reg) (s : State) : exec (.rkset x0 x1) s = execRkset x0 x1 s := rfl
@[simp] theorem exec_epopen (x0 : Reg) (x1 : Reg) (s : State) : exec (.epopen x0 x1) s = execEpopen x0 x1 s := rfl
@[simp] theorem exec_epsend (x0 : Reg) (x1 : Reg) (s : State) : exec (.epsend x0 x1) s = execEpsend x0 x1 s := rfl
@[simp] theorem exec_eprecv (x0 : Reg) (x1 : Reg) (x2 : Reg) (s : State) : exec (.eprecv x0 x1 x2) s = execEprecv x0 x1 x2 s := rfl
@[simp] theorem exec_epclose (x0 : Reg) (s : State) : exec (.epclose x0) s = execEpclose x0 s := rfl
@[simp] theorem exec_epabort (x0 : Reg) (s : State) : exec (.epabort x0) s = execEpabort x0 s := rfl
@[simp] theorem exec_epverAnn (x0 : Reg) (s : State) : exec (.epverAnn x0) s = execEpverAnn x0 s := rfl
@[simp] theorem exec_epverWait (x0 : Reg) (s : State) : exec (.epverWait x0) s = execEpverWait x0 s := rfl
@[simp] theorem exec_epverAbort (x0 : Reg) (s : State) : exec (.epverAbort x0) s = execEpverAbort x0 s := rfl
@[simp] theorem exec_epact (x0 : Reg) (x1 : Reg) (s : State) : exec (.epact x0 x1) s = execEpact x0 x1 s := rfl
@[simp] theorem exec_epobs (x0 : Reg) (x1 : Reg) (s : State) : exec (.epobs x0 x1) s = execEpobs x0 x1 s := rfl
@[simp] theorem exec_epend (x0 : Reg) (x1 : Reg) (s : State) : exec (.epend x0 x1) s = execEpend x0 x1 s := rfl
@[simp] theorem exec_amoadd (x0 : BitVec 2) (x1 : Reg) (x2 : Reg) (x3 : BitVec 2) (x4 : Bool) (x5 : Reg) (s : State) : exec (.amoadd x0 x1 x2 x3 x4 x5) s = execAmoadd x0 x1 x2 x3 x4 x5 s := rfl
@[simp] theorem exec_amoswp (x0 : BitVec 2) (x1 : Reg) (x2 : Reg) (x3 : BitVec 2) (x4 : Bool) (x5 : Reg) (s : State) : exec (.amoswp x0 x1 x2 x3 x4 x5) s = execAmoswp x0 x1 x2 x3 x4 x5 s := rfl
@[simp] theorem exec_amocas (x0 : BitVec 2) (x1 : Reg) (x2 : Reg) (x3 : BitVec 2) (x4 : Bool) (x5 : Reg) (s : State) : exec (.amocas x0 x1 x2 x3 x4 x5) s = execAmocas x0 x1 x2 x3 x4 x5 s := rfl
@[simp] theorem exec_amomin (x0 : BitVec 2) (x1 : Reg) (x2 : Reg) (x3 : BitVec 2) (x4 : Bool) (x5 : Reg) (s : State) : exec (.amomin x0 x1 x2 x3 x4 x5) s = execAmomin x0 x1 x2 x3 x4 x5 s := rfl
@[simp] theorem exec_amomax (x0 : BitVec 2) (x1 : Reg) (x2 : Reg) (x3 : BitVec 2) (x4 : Bool) (x5 : Reg) (s : State) : exec (.amomax x0 x1 x2 x3 x4 x5) s = execAmomax x0 x1 x2 x3 x4 x5 s := rfl
@[simp] theorem exec_amominu (x0 : BitVec 2) (x1 : Reg) (x2 : Reg) (x3 : BitVec 2) (x4 : Bool) (x5 : Reg) (s : State) : exec (.amominu x0 x1 x2 x3 x4 x5) s = execAmominu x0 x1 x2 x3 x4 x5 s := rfl
@[simp] theorem exec_amomaxu (x0 : BitVec 2) (x1 : Reg) (x2 : Reg) (x3 : BitVec 2) (x4 : Bool) (x5 : Reg) (s : State) : exec (.amomaxu x0 x1 x2 x3 x4 x5) s = execAmomaxu x0 x1 x2 x3 x4 x5 s := rfl
@[simp] theorem exec_amoand (x0 : BitVec 2) (x1 : Reg) (x2 : Reg) (x3 : BitVec 2) (x4 : Bool) (x5 : Reg) (s : State) : exec (.amoand x0 x1 x2 x3 x4 x5) s = execAmoand x0 x1 x2 x3 x4 x5 s := rfl
@[simp] theorem exec_amoor (x0 : BitVec 2) (x1 : Reg) (x2 : Reg) (x3 : BitVec 2) (x4 : Bool) (x5 : Reg) (s : State) : exec (.amoor x0 x1 x2 x3 x4 x5) s = execAmoor x0 x1 x2 x3 x4 x5 s := rfl
@[simp] theorem exec_amoxor (x0 : BitVec 2) (x1 : Reg) (x2 : Reg) (x3 : BitVec 2) (x4 : Bool) (x5 : Reg) (s : State) : exec (.amoxor x0 x1 x2 x3 x4 x5) s = execAmoxor x0 x1 x2 x3 x4 x5 s := rfl
@[simp] theorem exec_acq (x0 : BitVec 4) (x1 : Reg) (x2 : BitVec 2) (s : State) : exec (.acq x0 x1 x2) s = execAcq x0 x1 x2 s := rfl
@[simp] theorem exec_rel (x0 : BitVec 4) (x1 : Reg) (x2 : BitVec 2) (s : State) : exec (.rel x0 x1 x2) s = execRel x0 x1 x2 s := rfl
@[simp] theorem exec_fence (x0 : BitVec 4) (x1 : BitVec 2) (s : State) : exec (.fence x0 x1) s = execFence x0 x1 s := rfl
@[simp] theorem exec_xfence (x0 : Reg) (x1 : Reg) (x2 : BitVec 2) (s : State) : exec (.xfence x0 x1 x2) s = execXfence x0 x1 x2 s := rfl
@[simp] theorem exec_qlock (x0 : Reg) (x1 : BitVec 2) (s : State) : exec (.qlock x0 x1) s = execQlock x0 x1 s := rfl
@[simp] theorem exec_qunlk (x0 : Reg) (x1 : BitVec 2) (s : State) : exec (.qunlk x0 x1) s = execQunlk x0 x1 s := rfl
@[simp] theorem exec_qwait (x0 : Reg) (x1 : Reg) (x2 : BitVec 3) (x3 : Reg) (s : State) : exec (.qwait x0 x1 x2 x3) s = execQwait x0 x1 x2 x3 s := rfl
@[simp] theorem exec_bar (x0 : Reg) (x1 : BitVec 3) (s : State) : exec (.bar x0 x1) s = execBar x0 x1 s := rfl
@[simp] theorem exec_take (x0 : Reg) (x1 : Reg) (s : State) : exec (.take x0 x1) s = execTake x0 x1 s := rfl
@[simp] theorem exec_fill (x0 : Reg) (x1 : Reg) (x2 : Reg) (s : State) : exec (.fill x0 x1 x2) s = execFill x0 x1 x2 s := rfl
@[simp] theorem exec_empty (x0 : Reg) (s : State) : exec (.empty x0) s = execEmpty x0 s := rfl
@[simp] theorem exec_waitt (x0 : Reg) (s : State) : exec (.waitt x0) s = execWaitt x0 s := rfl
@[simp] theorem exec_tstart (x0 : Reg) (x1 : Reg) (s : State) : exec (.tstart x0 x1) s = execTstart x0 x1 s := rfl
@[simp] theorem exec_treap (x0 : Reg) (x1 : Reg) (s : State) : exec (.treap x0 x1) s = execTreap x0 x1 s := rfl
@[simp] theorem exec_tkill (x0 : Reg) (s : State) : exec (.tkill x0) s = execTkill x0 s := rfl
@[simp] theorem exec_tsave (x0 : Reg) (x1 : Reg) (s : State) : exec (.tsave x0 x1) s = execTsave x0 x1 s := rfl
@[simp] theorem exec_tload (x0 : Reg) (x1 : Reg) (s : State) : exec (.tload x0 x1) s = execTload x0 x1 s := rfl
@[simp] theorem exec_tstat (x0 : Reg) (x1 : Reg) (s : State) : exec (.tstat x0 x1) s = execTstat x0 x1 s := rfl
@[simp] theorem exec_tself (x0 : Reg) (s : State) : exec (.tself x0) s = execTself x0 s := rfl
@[simp] theorem exec_succ (x0 : Reg) (x1 : Reg) (s : State) : exec (.succ x0 x1) s = execSucc x0 x1 s := rfl
@[simp] theorem exec_retire (s : State) : exec (.retire) s = execRetire s := rfl
@[simp] theorem exec_exit (s : State) : exec (.exit) s = execExit s := rfl
@[simp] theorem exec_launch (x0 : Reg) (x1 : Reg) (s : State) : exec (.launch x0 x1) s = execLaunch x0 x1 s := rfl
@[simp] theorem exec_csrr (x0 : BitVec 12) (x1 : Reg) (s : State) : exec (.csrr x0 x1) s = execCsrr x0 x1 s := rfl
@[simp] theorem exec_csrw (x0 : BitVec 12) (x1 : Reg) (s : State) : exec (.csrw x0 x1) s = execCsrw x0 x1 s := rfl
@[simp] theorem exec_csrs (x0 : BitVec 12) (x1 : Reg) (s : State) : exec (.csrs x0 x1) s = execCsrs x0 x1 s := rfl
@[simp] theorem exec_csrc (x0 : BitVec 12) (x1 : Reg) (s : State) : exec (.csrc x0 x1) s = execCsrc x0 x1 s := rfl
@[simp] theorem exec_sysc (x0 : BitVec 12) (s : State) : exec (.sysc x0) s = execSysc x0 s := rfl
@[simp] theorem exec_trap (x0 : BitVec 12) (s : State) : exec (.trap x0) s = execTrap x0 s := rfl
@[simp] theorem exec_tret (s : State) : exec (.tret) s = execTret s := rfl
@[simp] theorem exec_break (x0 : BitVec 12) (s : State) : exec (.break x0) s = execBreak x0 s := rfl
@[simp] theorem exec_registerWrite (x0 : BitVec 12) (x1 : Word) (s : State) : exec (.registerWrite x0 x1) s = execRegisterWrite x0 x1 s := rfl
@[simp] theorem exec_corWinWrite (x0 : BitVec 3) (x1 : Word) (s : State) : exec (.corWinWrite x0 x1) s = execCorWinWrite x0 x1 s := rfl
@[simp] theorem exec_xcStatClear (x0 : BitVec 3) (x1 : Word) (s : State) : exec (.xcStatClear x0 x1) s = execXcStatClear x0 x1 s := rfl
@[simp] theorem exec_faultresRetry (x0 : Word) (s : State) : exec (.faultresRetry x0) s = execFaultresRetry x0 s := rfl
@[simp] theorem exec_faultresAbandon (x0 : Word) (s : State) : exec (.faultresAbandon x0) s = execFaultresAbandon x0 s := rfl
@[simp] theorem exec_tlbinvPage (x0 : Word) (s : State) : exec (.tlbinvPage x0) s = execTlbinvPage x0 s := rfl
@[simp] theorem exec_tlbinvAll (x0 : Word) (s : State) : exec (.tlbinvAll x0) s = execTlbinvAll x0 s := rfl
@[simp] theorem exec_trcalWrite (x0 : Word) (s : State) : exec (.trcalWrite x0) s = execTrcalWrite x0 s := rfl
@[simp] theorem exec_lwgtWrite (x0 : Word) (s : State) : exec (.lwgtWrite x0) s = execLwgtWrite x0 s := rfl
@[simp] theorem exec_graphrelRelease (x0 : Word) (s : State) : exec (.graphrelRelease x0) s = execGraphrelRelease x0 s := rfl
@[simp] theorem exec_graphrelDiscard (x0 : Word) (s : State) : exec (.graphrelDiscard x0) s = execGraphrelDiscard x0 s := rfl
@[simp] theorem exec_trapresResume (x0 : Word) (s : State) : exec (.trapresResume x0) s = execTrapresResume x0 s := rfl
@[simp] theorem exec_trapresResumeNext (x0 : Word) (s : State) : exec (.trapresResumeNext x0) s = execTrapresResumeNext x0 s := rfl
@[simp] theorem exec_killDrainStart (x0 : Word) (s : State) : exec (.killDrainStart x0) s = execKillDrainStart x0 s := rfl
@[simp] theorem exec_viswSwitchOut (x0 : Word) (s : State) : exec (.viswSwitchOut x0) s = execViswSwitchOut x0 s := rfl
@[simp] theorem exec_viswSwitchIn (x0 : Word) (s : State) : exec (.viswSwitchIn x0) s = execViswSwitchIn x0 s := rfl
@[simp] theorem exec_viSwitchComplete (x0 : Nat) (s : State) : exec (.viSwitchComplete x0) s = execViSwitchComplete x0 s := rfl
@[simp] theorem exec_resizeWrite (x0 : Word) (s : State) : exec (.resizeWrite x0) s = execResizeWrite x0 s := rfl
@[simp] theorem exec_granuleMove (x0 : Nat) (x1 : Nat) (x2 : Nat) (s : State) : exec (.granuleMove x0 x1 x2) s = execGranuleMove x0 x1 x2 s := rfl
@[simp] theorem exec_resizeTimeout (x0 : Nat) (s : State) : exec (.resizeTimeout x0) s = execResizeTimeout x0 s := rfl
@[simp] theorem exec_prtResetWrite (x0 : Word) (s : State) : exec (.prtResetWrite x0) s = execPrtResetWrite x0 s := rfl
@[simp] theorem exec_ctxinvWrite (x0 : Word) (s : State) : exec (.ctxinvWrite x0) s = execCtxinvWrite x0 s := rfl
@[simp] theorem exec_fqbaseWrite (x0 : Word) (s : State) : exec (.fqbaseWrite x0) s = execFqbaseWrite x0 s := rfl
@[simp] theorem exec_thrTimerWrite (x0 : Word) (s : State) : exec (.thrTimerWrite x0) s = execThrTimerWrite x0 s := rfl
@[simp] theorem exec_viTailWrite (x0 : Nat) (x1 : Word) (s : State) : exec (.viTailWrite x0 x1) s = execViTailWrite x0 x1 s := rfl
@[simp] theorem exec_viCqheadWrite (x0 : Nat) (x1 : Word) (s : State) : exec (.viCqheadWrite x0 x1) s = execViCqheadWrite x0 x1 s := rfl
@[simp] theorem exec_viRingBaseWrite (x0 : Nat) (x1 : Bool) (x2 : Word) (s : State) : exec (.viRingBaseWrite x0 x1 x2) s = execViRingBaseWrite x0 x1 x2 s := rfl
@[simp] theorem exec_irhamWrite (x0 : Nat) (x1 : BitVec 48) (x2 : BitVec 128) (x3 : Word) (x4 : List (BitVec 8)) (s : State) : exec (.irhamWrite x0 x1 x2 x3 x4) s = execIrhamWrite x0 x1 x2 x3 x4 s := rfl
@[simp] theorem exec_irhamRead (x0 : Nat) (x1 : BitVec 48) (x2 : BitVec 128) (x3 : Word) (x4 : Nat) (s : State) : exec (.irhamRead x0 x1 x2 x3 x4) s = execIrhamRead x0 x1 x2 x3 x4 s := rfl
@[simp] theorem exec_irhamRegw (x0 : Nat) (x1 : BitVec 48) (x2 : BitVec 128) (x3 : BitVec 12) (x4 : Word) (s : State) : exec (.irhamRegw x0 x1 x2 x3 x4) s = execIrhamRegw x0 x1 x2 x3 x4 s := rfl
@[simp] theorem exec_irhamRegr (x0 : Nat) (x1 : BitVec 48) (x2 : BitVec 128) (x3 : BitVec 12) (s : State) : exec (.irhamRegr x0 x1 x2 x3) s = execIrhamRegr x0 x1 x2 x3 s := rfl
@[simp] theorem exec_irhamInfo (x0 : Nat) (x1 : BitVec 48) (x2 : BitVec 128) (s : State) : exec (.irhamInfo x0 x1 x2) s = execIrhamInfo x0 x1 x2 s := rfl
@[simp] theorem exec_irhamAttest (x0 : Nat) (x1 : BitVec 48) (x2 : BitVec 128) (x3 : List (BitVec 8)) (s : State) : exec (.irhamAttest x0 x1 x2 x3) s = execIrhamAttest x0 x1 x2 x3 s := rfl
@[simp] theorem exec_mgmtBuildPartition (x0 : Nat) (x1 : BitVec 16) (x2 : Nat × List Nat) (s : State) : exec (.mgmtBuildPartition x0 x1 x2) s = execMgmtBuildPartition x0 x1 x2 s := rfl
@[simp] theorem exec_mgmtSetCap (x0 : Nat) (x1 : BitVec 16) (s : State) : exec (.mgmtSetCap x0 x1) s = execMgmtSetCap x0 x1 s := rfl
@[simp] theorem exec_mgmtProvisionKey (x0 : Nat) (x1 : Nat) (s : State) : exec (.mgmtProvisionKey x0 x1) s = execMgmtProvisionKey x0 x1 s := rfl
@[simp] theorem exec_mgmtResizeRequest (x0 : Nat) (x1 : BitVec 16) (s : State) : exec (.mgmtResizeRequest x0 x1) s = execMgmtResizeRequest x0 x1 s := rfl
@[simp] theorem exec_mgmtResetRequest (x0 : Nat) (s : State) : exec (.mgmtResetRequest x0) s = execMgmtResetRequest x0 s := rfl
@[simp] theorem exec_coldReset (x0 : Bool) (s : State) : exec (.coldReset x0) s = execColdReset x0 s := rfl
@[simp] theorem exec_thermalTrip (s : State) : exec (.thermalTrip) s = execThermalTrip s := rfl
@[simp] theorem exec_energyAccrual (x0 : Nat) (s : State) : exec (.energyAccrual x0) s = execEnergyAccrual x0 s := rfl
@[simp] theorem exec_icacheRefill (x0 : Nat) (x1 : Nat) (s : State) : exec (.icacheRefill x0 x1) s = execIcacheRefill x0 x1 s := rfl
@[simp] theorem exec_loadReply (x0 : Nat) (s : State) : exec (.loadReply x0) s = execLoadReply x0 s := rfl
@[simp] theorem exec_dividerComplete (x0 : Nat) (x1 : Nat) (s : State) : exec (.dividerComplete x0 x1) s = execDividerComplete x0 x1 s := rfl
@[simp] theorem exec_translationWalkComplete (x0 : Nat) (s : State) : exec (.translationWalkComplete x0) s = execTranslationWalkComplete x0 s := rfl
@[simp] theorem exec_faultRecordPost (x0 : Nat) (s : State) : exec (.faultRecordPost x0) s = execFaultRecordPost x0 s := rfl
@[simp] theorem exec_remoteScratchpadAccess (x0 : Nat) (s : State) : exec (.remoteScratchpadAccess x0) s = execRemoteScratchpadAccess x0 s := rfl
@[simp] theorem exec_remoteAck (x0 : Nat) (s : State) : exec (.remoteAck x0) s = execRemoteAck x0 s := rfl
@[simp] theorem exec_sprRefusalArrival (x0 : Nat) (s : State) : exec (.sprRefusalArrival x0) s = execSprRefusalArrival x0 s := rfl
@[simp] theorem exec_deregistrationNotice (x0 : Nat) (s : State) : exec (.deregistrationNotice x0) s = execDeregistrationNotice x0 s := rfl
@[simp] theorem exec_fenceProbeEcho (x0 : Nat) (s : State) : exec (.fenceProbeEcho x0) s = execFenceProbeEcho x0 s := rfl
@[simp] theorem exec_atomicAtPoint (x0 : Nat) (s : State) : exec (.atomicAtPoint x0) s = execAtomicAtPoint x0 s := rfl
@[simp] theorem exec_lockRequestHome (x0 : Nat) (s : State) : exec (.lockRequestHome x0) s = execLockRequestHome x0 s := rfl
@[simp] theorem exec_lockReleaseHome (x0 : Nat) (s : State) : exec (.lockReleaseHome x0) s = execLockReleaseHome x0 s := rfl
@[simp] theorem exec_qwaitRequestHome (x0 : Nat) (s : State) : exec (.qwaitRequestHome x0) s = execQwaitRequestHome x0 s := rfl
@[simp] theorem exec_switchGrant (x0 : Nat) (s : State) : exec (.switchGrant x0) s = execSwitchGrant x0 s := rfl
@[simp] theorem exec_resend (x0 : Nat) (s : State) : exec (.resend x0) s = execResend x0 s := rfl
@[simp] theorem exec_laneGrant (x0 : Nat) (s : State) : exec (.laneGrant x0) s = execLaneGrant x0 s := rfl
@[simp] theorem exec_vectorConvoyStart (x0 : Nat) (x1 : Nat) (s : State) : exec (.vectorConvoyStart x0 x1) s = execVectorConvoyStart x0 x1 s := rfl
@[simp] theorem exec_vectorConfirm (x0 : Nat) (x1 : Nat) (s : State) : exec (.vectorConfirm x0 x1) s = execVectorConfirm x0 x1 s := rfl
@[simp] theorem exec_vectorTrapUnwind (x0 : Nat) (x1 : Nat) (s : State) : exec (.vectorTrapUnwind x0 x1) s = execVectorTrapUnwind x0 x1 s := rfl
@[simp] theorem exec_checkCompare (x0 : Nat) (x1 : Nat) (x2 : Bool) (s : State) : exec (.checkCompare x0 x1 x2) s = execCheckCompare x0 x1 x2 s := rfl
@[simp] theorem exec_checkReplay (x0 : Nat) (x1 : Nat) (x2 : Bool) (s : State) : exec (.checkReplay x0 x1 x2) s = execCheckReplay x0 x1 x2 s := rfl
@[simp] theorem exec_vldaReadLand (x0 : Nat) (x1 : Nat) (x2 : Nat) (x3 : Nat) (s : State) : exec (.vldaReadLand x0 x1 x2 x3) s = execVldaReadLand x0 x1 x2 x3 s := rfl
@[simp] theorem exec_tileTaskStart (x0 : Nat) (x1 : Nat) (s : State) : exec (.tileTaskStart x0 x1) s = execTileTaskStart x0 x1 s := rfl
@[simp] theorem exec_tileTaskComplete (x0 : Nat) (x1 : Nat) (x2 : Nat) (s : State) : exec (.tileTaskComplete x0 x1 x2) s = execTileTaskComplete x0 x1 x2 s := rfl
@[simp] theorem exec_copyPiece (x0 : Nat) (x1 : Nat) (s : State) : exec (.copyPiece x0 x1) s = execCopyPiece x0 x1 s := rfl
@[simp] theorem exec_copyComplete (x0 : Nat) (x1 : Nat) (s : State) : exec (.copyComplete x0 x1) s = execCopyComplete x0 x1 s := rfl
@[simp] theorem exec_promiseRenewal (x0 : Nat) (x1 : Nat) (s : State) : exec (.promiseRenewal x0 x1) s = execPromiseRenewal x0 x1 s := rfl
@[simp] theorem exec_collectiveResult (x0 : Nat) (s : State) : exec (.collectiveResult x0) s = execCollectiveResult x0 s := rfl
@[simp] theorem exec_messageArrival (x0 : Nat) (s : State) : exec (.messageArrival x0) s = execMessageArrival x0 s := rfl
@[simp] theorem exec_messageAck (x0 : Nat) (s : State) : exec (.messageAck x0) s = execMessageAck x0 s := rfl
@[simp] theorem exec_messageRefusal (x0 : Nat) (s : State) : exec (.messageRefusal x0) s = execMessageRefusal x0 s := rfl
@[simp] theorem exec_packetReturn (x0 : Nat) (s : State) : exec (.packetReturn x0) s = execPacketReturn x0 s := rfl
@[simp] theorem exec_homeForward (x0 : Nat) (s : State) : exec (.homeForward x0) s = execHomeForward x0 s := rfl
@[simp] theorem exec_rankEntryFetch (x0 : Nat) (s : State) : exec (.rankEntryFetch x0) s = execRankEntryFetch x0 s := rfl
@[simp] theorem exec_homeDepart (x0 : Nat) (s : State) : exec (.homeDepart x0) s = execHomeDepart x0 s := rfl
@[simp] theorem exec_drainTokenAtSource (x0 : Nat) (s : State) : exec (.drainTokenAtSource x0) s = execDrainTokenAtSource x0 s := rfl
@[simp] theorem exec_homeArrive (x0 : Nat) (s : State) : exec (.homeArrive x0) s = execHomeArrive x0 s := rfl
@[simp] theorem exec_homeEntryWrite (x0 : Nat) (s : State) : exec (.homeEntryWrite x0) s = execHomeEntryWrite x0 s := rfl
@[simp] theorem exec_fillArrival (x0 : Nat) (s : State) : exec (.fillArrival x0) s = execFillArrival x0 s := rfl
@[simp] theorem exec_fillBufferApply (x0 : Nat) (s : State) : exec (.fillBufferApply x0) s = execFillBufferApply x0 s := rfl
@[simp] theorem exec_migrantArrival (x0 : Nat) (s : State) : exec (.migrantArrival x0) s = execMigrantArrival x0 s := rfl
@[simp] theorem exec_migrantInstall (x0 : Nat) (s : State) : exec (.migrantInstall x0) s = execMigrantInstall x0 s := rfl
@[simp] theorem exec_sendqRequest (x0 : Nat) (s : State) : exec (.sendqRequest x0) s = execSendqRequest x0 s := rfl
@[simp] theorem exec_sendqReply (x0 : Nat) (s : State) : exec (.sendqReply x0) s = execSendqReply x0 s := rfl
@[simp] theorem exec_sendqDelivery (x0 : Nat) (s : State) : exec (.sendqDelivery x0) s = execSendqDelivery x0 s := rfl
@[simp] theorem exec_launchRingRead (x0 : Nat) (s : State) : exec (.launchRingRead x0) s = execLaunchRingRead x0 s := rfl
@[simp] theorem exec_launchAdmit (x0 : Nat) (s : State) : exec (.launchAdmit x0) s = execLaunchAdmit x0 s := rfl
@[simp] theorem exec_instancePlace (x0 : Nat) (x1 : Nat) (x2 : List (Nat × Nat)) (s : State) : exec (.instancePlace x0 x1 x2) s = execInstancePlace x0 x1 x2 s := rfl
@[simp] theorem exec_completionRecordWrite (x0 : Nat) (x1 : Nat) (x2 : BitVec 32) (s : State) : exec (.completionRecordWrite x0 x1 x2) s = execCompletionRecordWrite x0 x1 x2 s := rfl
@[simp] theorem exec_successionSequence (x0 : Nat) (x1 : Nat) (s : State) : exec (.successionSequence x0 x1) s = execSuccessionSequence x0 x1 s := rfl
@[simp] theorem exec_successorStart (x0 : Nat) (x1 : Nat) (s : State) : exec (.successorStart x0 x1) s = execSuccessorStart x0 x1 s := rfl
@[simp] theorem exec_preemptLanding (x0 : Nat) (x1 : Nat) (s : State) : exec (.preemptLanding x0 x1) s = execPreemptLanding x0 x1 s := rfl
@[simp] theorem exec_forcedSave (x0 : Nat) (x1 : Nat) (s : State) : exec (.forcedSave x0 x1) s = execForcedSave x0 x1 s := rfl
@[simp] theorem exec_saveWrite (x0 : Nat) (x1 : Nat) (s : State) : exec (.saveWrite x0 x1) s = execSaveWrite x0 x1 s := rfl
@[simp] theorem exec_timerExpiry (x0 : Nat) (x1 : Nat) (s : State) : exec (.timerExpiry x0 x1) s = execTimerExpiry x0 x1 s := rfl
@[simp] theorem exec_asyncTrapTake (x0 : Nat) (x1 : Nat) (s : State) : exec (.asyncTrapTake x0 x1) s = execAsyncTrapTake x0 x1 s := rfl
@[simp] theorem exec_drainTokenArrival (x0 : Nat) (x1 : Nat) (s : State) : exec (.drainTokenArrival x0 x1) s = execDrainTokenArrival x0 x1 s := rfl
@[simp] theorem exec_killDrainComplete (x0 : Nat) (s : State) : exec (.killDrainComplete x0) s = execKillDrainComplete x0 s := rfl
@[simp] theorem exec_scrubWord (x0 : Nat) (x1 : Nat) (x2 : Nat) (s : State) : exec (.scrubWord x0 x1 x2) s = execScrubWord x0 x1 x2 s := rfl
@[simp] theorem exec_metadataError (x0 : Nat) (s : State) : exec (.metadataError x0) s = execMetadataError x0 s := rfl
@[simp] theorem exec_ownerTagError (x0 : Nat) (s : State) : exec (.ownerTagError x0) s = execOwnerTagError x0 s := rfl
@[simp] theorem exec_episodeDeadline (x0 : Nat) (s : State) : exec (.episodeDeadline x0) s = execEpisodeDeadline x0 s := rfl
@[simp] theorem exec_episodeBudget (x0 : Nat) (s : State) : exec (.episodeBudget x0) s = execEpisodeBudget x0 s := rfl
@[simp] theorem exec_homePierStore (x0 : Nat) (s : State) : exec (.homePierStore x0) s = execHomePierStore x0 s := rfl
@[simp] theorem exec_registration (x0 : Nat) (s : State) : exec (.registration x0) s = execRegistration x0 s := rfl
@[simp] theorem exec_registrationReply (x0 : Nat) (s : State) : exec (.registrationReply x0) s = execRegistrationReply x0 s := rfl
@[simp] theorem exec_succResultLanding (x0 : Nat) (s : State) : exec (.succResultLanding x0) s = execSuccResultLanding x0 s := rfl
@[simp] theorem exec_vectorAccessPerformed (x0 : Nat) (x1 : Nat) (s : State) : exec (.vectorAccessPerformed x0 x1) s = execVectorAccessPerformed x0 x1 s := rfl
@[simp] theorem exec_convoyDrained (x0 : Nat) (x1 : Nat) (s : State) : exec (.convoyDrained x0 x1) s = execConvoyDrained x0 x1 s := rfl

end Sys2Proof.Machine
end

