-- ==== Sys2Proof/Laws/Memory.lean ====
section
/-! SUPPORT. Tables and byte memories: reading after writing, and the canonical form that every memory operation keeps. -/

namespace Sys2Proof.Machine

/-! ### Tables -/

@[simp] theorem Tab.find?_nil {α : Type} (k : Nat) : Tab.find? ([] : Tab α) k = none := rfl

@[simp] theorem Tab.find?_set_same {α : Type} (t : Tab α) (k : Nat) (v : α) : Tab.find? (Tab.set t k v) k = some v := by
  induction t with
  | nil => simp [Tab.set, Tab.find?]
  | cons c t ih =>
    obtain ⟨j, w⟩ := c
    by_cases h : j = k
    · simp [Tab.set, Tab.find?, h]
    · by_cases h' : k < j <;> simp [Tab.set, Tab.find?, h, h', ih]

theorem Tab.find?_set_other {α : Type} (t : Tab α) {k k' : Nat} (v : α) (h : k' ≠ k) :
    Tab.find? (Tab.set t k v) k' = Tab.find? t k' := by
  induction t with
  | nil => simp [Tab.set, Tab.find?, Ne.symm h]
  | cons c t ih =>
    obtain ⟨j, w⟩ := c
    by_cases hj : j = k
    · subst hj; simp [Tab.set, Tab.find?, Ne.symm h]
    · by_cases h' : k < j <;> simp [Tab.set, Tab.find?, hj, h', ih, Ne.symm h]

@[simp] theorem Tab.get_set_same {α : Type} (d : α) (t : Tab α) (k : Nat) (v : α) : Tab.get d (Tab.set t k v) k = v := by
  simp [Tab.get]

theorem Tab.get_set_other {α : Type} (d : α) (t : Tab α) {k k' : Nat} (v : α) (h : k' ≠ k) :
    Tab.get d (Tab.set t k v) k' = Tab.get d t k' := by
  simp [Tab.get, Tab.find?_set_other t v h]

@[simp] theorem Tab.find?_erase_same {α : Type} (t : Tab α) (k : Nat) : Tab.find? (Tab.erase t k) k = none := by
  induction t with
  | nil => rfl
  | cons c t ih =>
    obtain ⟨j, w⟩ := c
    by_cases h : j = k
    · simp only [Tab.erase, List.filter, h, bne_self_eq_false] at ih ⊢; exact ih
    · have : ((j, w).1 != k) = true := by simpa using h
      simp only [Tab.erase, List.filter, this] at ih ⊢
      simp [Tab.find?, h, ih]

theorem Tab.find?_erase_other {α : Type} (t : Tab α) {k k' : Nat} (h : k' ≠ k) :
    Tab.find? (Tab.erase t k) k' = Tab.find? t k' := by
  induction t with
  | nil => rfl
  | cons c t ih =>
    obtain ⟨j, w⟩ := c
    by_cases hj : j = k
    · subst hj
      simp only [Tab.erase, List.filter, bne_self_eq_false] at ih ⊢
      simp [Tab.find?, Ne.symm h, ih]
    · have : ((j, w).1 != k) = true := by simpa using hj
      simp only [Tab.erase, List.filter, this] at ih ⊢
      simp [Tab.find?, ih]

/-! ### Bytes -/

@[simp] theorem Memory.byte_setByte_same (m : Memory) (a : Nat) (b : Byte) : (m.setByte a b).byte a = b := by
  unfold Memory.setByte Memory.byte
  split
  · simp [Tab.get, *]
  · simp

theorem Memory.byte_setByte_other (m : Memory) {a a' : Nat} (b : Byte) (h : a' ≠ a) :
    (m.setByte a b).byte a' = m.byte a' := by
  unfold Memory.setByte Memory.byte
  split
  · simp [Tab.get, Tab.find?_erase_other m h]
  · exact Tab.get_set_other 0 m b h

/-- A store changes no byte outside its own. -/
theorem Memory.byte_writeLE_other (m : Memory) (a n v a' : Nat) (h : a' < a ∨ a + n ≤ a') :
    (m.writeLE a n v).byte a' = m.byte a' := by
  induction n generalizing m a v with
  | zero => rfl
  | succ n ih =>
    rw [Memory.writeLE, ih _ _ _ (by omega), Memory.byte_setByte_other _ _ (by omega)]

/-- A store puts down its bytes, least significant first (R4). -/
theorem Memory.byte_writeLE_same (m : Memory) (a n v i : Nat) (h : i < n) :
    (m.writeLE a n v).byte (a + i) = BitVec.ofNat 8 (v / 256 ^ i) := by
  induction n generalizing m a v i with
  | zero => omega
  | succ n ih =>
    rw [Memory.writeLE]
    cases i with
    | zero => rw [Memory.byte_writeLE_other _ _ _ _ _ (by omega)]; simp
    | succ i =>
      rw [show a + (i + 1) = a + 1 + i by omega, ih _ _ _ _ (by omega), Nat.pow_succ, Nat.div_div_eq_div_mul,
        Nat.mul_comm 256]

/-- A read after a write to the same place gives the value written. -/
theorem Memory.readLE_writeLE_same (m : Memory) (a n v : Nat) : (m.writeLE a n v).readLE a n = v % 256 ^ n := by
  induction n generalizing m a v with
  | zero => simp [Memory.readLE, Nat.mod_one]
  | succ n ih =>
    rw [Memory.readLE, Memory.writeLE, ih, Memory.byte_writeLE_other _ _ _ _ _ (by omega)]
    simp only [Memory.byte_setByte_same, BitVec.toNat_ofNat]
    rw [show 256 ^ (n + 1) = 256 * 256 ^ n from Nat.pow_succ', Nat.mod_mul]

theorem Memory.byte_writeBytes_other (m : Memory) (a : Nat) (bs : List Byte) (a' : Nat)
    (h : a' < a ∨ a + bs.length ≤ a') : (m.writeBytes a bs).byte a' = m.byte a' := by
  induction bs generalizing m a with
  | nil => rfl
  | cons b bs ih =>
    simp only [List.length_cons] at h
    rw [Memory.writeBytes, ih _ _ (by omega), Memory.byte_setByte_other _ _ (by omega)]

theorem Memory.readBytes_congr (m m' : Memory) (a n : Nat) (h : ∀ i, i < n → m.byte (a + i) = m'.byte (a + i)) :
    m.readBytes a n = m'.readBytes a n := by
  induction n generalizing a with
  | zero => rfl
  | succ n ih =>
    rw [Memory.readBytes, Memory.readBytes, ih (a + 1) (fun i hi => by
      have := h (i + 1) (by omega)
      rwa [show a + (i + 1) = a + 1 + i by omega] at this)]
    have := h 0 (by omega)
    rw [Nat.add_zero] at this
    rw [this]

theorem Memory.readBytes_writeBytes_same (m : Memory) (a : Nat) (bs : List Byte) :
    (m.writeBytes a bs).readBytes a bs.length = bs := by
  induction bs generalizing m a with
  | nil => rfl
  | cons b bs ih =>
    rw [List.length_cons, Memory.readBytes, Memory.writeBytes, ih, Memory.byte_writeBytes_other _ _ _ _ (by omega)]
    simp

/-! ### The canonical form -/

/-- The canonical form says: addresses rise strictly, and no listed byte is what an unlisted address reads as. -/
theorem Memory.wf_iff (m : Memory) :
    m.wf = true ↔ m.Pairwise (fun c c' => c.1 < c'.1) ∧ ∀ c ∈ m, c.2 ≠ 0 := by
  induction m with
  | nil => simp [Memory.wf]
  | cons c m ih =>
    obtain ⟨a, b⟩ := c
    cases m with
    | nil => simp [Memory.wf]
    | cons c' m =>
      obtain ⟨a', b'⟩ := c'
      rw [Memory.wf, Bool.and_eq_true, Bool.and_eq_true, ih]
      constructor
      · rintro ⟨⟨hb, ha⟩, hp, hn⟩
        have ha : a < a' := by simpa using ha
        refine ⟨List.pairwise_cons.2 ⟨?_, hp⟩, ?_⟩
        · intro c hc
          rcases List.mem_cons.1 hc with rfl | hc
          · exact ha
          · exact Nat.lt_trans ha ((List.pairwise_cons.1 hp).1 c hc)
        · intro c hc
          rcases List.mem_cons.1 hc with rfl | hc
          · simpa using hb
          · exact hn c hc
      · rintro ⟨hp, hn⟩
        have hp' := List.pairwise_cons.1 hp
        refine ⟨⟨?_, ?_⟩, hp'.2, fun c hc => hn c (List.mem_cons_of_mem _ hc)⟩
        · simpa using hn (a, b) List.mem_cons_self
        · simpa using hp'.1 (a', b') List.mem_cons_self

theorem Memory.wf_nil : Memory.wf [] = true := rfl

theorem Memory.wf_filter (m : Memory) (p : Host.Cell → Bool) (h : m.wf = true) : Memory.wf (m.filter p) = true := by
  rw [Memory.wf_iff] at *
  exact ⟨h.1.filter p, fun c hc => h.2 c (List.mem_filter.1 hc).1⟩

theorem Tab.mem_set {α : Type} (t : Tab α) (k : Nat) (v : α) (c : Nat × α) (h : c ∈ Tab.set t k v) : c = (k, v) ∨ c ∈ t := by
  induction t with
  | nil => simpa [Tab.set] using h
  | cons x t ih =>
    obtain ⟨j, w⟩ := x
    by_cases hj : j = k
    · simp only [Tab.set, hj, if_true, List.mem_cons] at h ⊢; tauto
    · by_cases h' : k < j
      · simp only [Tab.set, hj, if_false, h', if_true, List.mem_cons] at h ⊢; tauto
      · simp only [Tab.set, hj, if_false, h', List.mem_cons] at h ⊢
        rcases h with h | h
        · tauto
        · rcases ih h with h | h <;> tauto

theorem Tab.pairwise_set {α : Type} (t : Tab α) (k : Nat) (v : α) (h : t.Pairwise (fun c c' => c.1 < c'.1)) :
    (Tab.set t k v).Pairwise (fun c c' => c.1 < c'.1) := by
  induction t with
  | nil => simp [Tab.set]
  | cons x t ih =>
    obtain ⟨j, w⟩ := x
    obtain ⟨h1, h2⟩ := List.pairwise_cons.1 h
    by_cases hj : j = k
    · simp only [Tab.set, hj, if_true]
      exact List.pairwise_cons.2 ⟨fun c hc => hj ▸ h1 c hc, h2⟩
    · by_cases h' : k < j
      · simp only [Tab.set, hj, if_false, h', if_true]
        refine List.pairwise_cons.2 ⟨fun c hc => ?_, h⟩
        rcases List.mem_cons.1 hc with rfl | hc
        · exact h'
        · exact Nat.lt_trans h' (h1 c hc)
      · simp only [Tab.set, hj, if_false, h']
        refine List.pairwise_cons.2 ⟨fun c hc => ?_, ih h2⟩
        rcases Tab.mem_set t k v c hc with rfl | hc
        · exact show j < k by omega
        · exact h1 c hc

theorem Memory.wf_setByte (m : Memory) (a : Nat) (b : Byte) (h : m.wf = true) : (m.setByte a b).wf = true := by
  unfold Memory.setByte
  split
  · exact Memory.wf_filter m _ h
  · rename_i hb
    rw [Memory.wf_iff] at *
    refine ⟨Tab.pairwise_set m a b h.1, fun c hc => ?_⟩
    rcases Tab.mem_set m a b c hc with rfl | hc
    · exact hb
    · exact h.2 c hc

theorem Memory.wf_writeLE (m : Memory) (a n v : Nat) (h : m.wf = true) : (m.writeLE a n v).wf = true := by
  induction n generalizing m a v with
  | zero => exact h
  | succ n ih => exact ih _ _ _ (Memory.wf_setByte m a _ h)

theorem Memory.wf_writeBytes (m : Memory) (a : Nat) (bs : List Byte) (h : m.wf = true) : (m.writeBytes a bs).wf = true := by
  induction bs generalizing m a with
  | nil => exact h
  | cons b bs ih => exact ih _ _ (Memory.wf_setByte m a b h)

theorem Memory.wf_clear (m : Memory) (a n : Nat) (h : m.wf = true) : (m.clear a n).wf = true := Memory.wf_filter m _ h

theorem Memory.wf_maskKeep (m : Memory) (mask : BitVec 32) (k : Bool) (h : m.wf = true) : Memory.wf (maskKeep m mask k) = true :=
  Memory.wf_filter m _ h

theorem Memory.wf_foldl_setByte {α : Type} (l : List α) (f : α → Nat) (g : α → Byte) (m : Memory) (h : m.wf = true) :
    Memory.wf (l.foldl (fun m c => Memory.setByte m (f c) (g c)) m) = true := by
  induction l generalizing m with
  | nil => exact h
  | cons c l ih => exact ih _ (Memory.wf_setByte m _ _ h)

theorem Memory.wf_over (m base : Memory) (h : base.wf = true) : (Memory.over m base).wf = true :=
  Memory.wf_foldl_setByte m Prod.fst Prod.snd base h

theorem Memory.wf_mergeUnder (own inc : Memory) (d : BitVec 32) (h : inc.wf = true) : Memory.wf (mergeUnder own d inc) = true :=
  Memory.wf_over _ _ (Memory.wf_maskKeep inc d false h)

theorem Memory.wf_mergeOver (copy inc : Memory) (d : BitVec 32) (h : copy.wf = true) : Memory.wf (mergeOver copy d inc) = true :=
  Memory.wf_over _ _ (Memory.wf_maskKeep copy d false h)

theorem Memory.wf_slice (m : Memory) (a n : Nat) (h : m.wf = true) : (m.slice a n).wf = true := by
  have hf := Memory.wf_filter m (fun p => decide (a ≤ p.1 ∧ p.1 < a + n)) h
  rw [Memory.wf_iff] at *
  refine ⟨List.pairwise_map.2 (hf.1.imp_of_mem ?_), ?_⟩
  · intro x y hx hy hxy
    have := (List.mem_filter.1 hx).2
    have := (List.mem_filter.1 hy).2
    simp at *
    omega
  · intro c hc
    obtain ⟨x, hx, rfl⟩ := List.mem_map.1 hc
    exact hf.2 x hx

/-- A memory in canonical form is determined by its bytes. -/
theorem Memory.ext_of_wf (m m' : Memory) (h : m.wf = true) (h' : m'.wf = true) (e : ∀ a, m.byte a = m'.byte a) : m = m' := by
  rw [Memory.wf_iff] at h h'
  induction m generalizing m' with
  | nil =>
    cases m' with
    | nil => rfl
    | cons c m' =>
      have := e c.1
      simp [Memory.byte, Tab.get, Tab.find?] at this
      exact absurd this.symm (h'.2 c List.mem_cons_self)
  | cons c m ih =>
    have below : ∀ (l : Memory) (a : Nat), (∀ x ∈ l, a < x.1) → Memory.byte l a = 0 := by
      intro l a hl
      induction l with
      | nil => rfl
      | cons x l ih =>
        have := hl x List.mem_cons_self
        have hx : ¬ x.1 = a := by omega
        simpa [Memory.byte, Tab.get, Tab.find?, hx] using ih (fun y hy => hl y (List.mem_cons_of_mem _ hy))
    cases m' with
    | nil =>
      have := e c.1
      simp [Memory.byte, Tab.get, Tab.find?] at this
      exact absurd this (h.2 c List.mem_cons_self)
    | cons c' m' =>
      obtain ⟨a, b⟩ := c
      obtain ⟨a', b'⟩ := c'
      obtain ⟨p1, p2⟩ := List.pairwise_cons.1 h.1
      obtain ⟨q1, q2⟩ := List.pairwise_cons.1 h'.1
      have hb : b ≠ 0 := h.2 (a, b) List.mem_cons_self
      have hb' : b' ≠ 0 := h'.2 (a', b') List.mem_cons_self
      have haa : a = a' := by
        rcases Nat.lt_trichotomy a a' with hlt | heq | hgt
        · have := e a
          have z : Memory.byte ((a', b') :: m') a = 0 := below _ _ (fun x hx => by
            rcases List.mem_cons.1 hx with rfl | hx
            · exact hlt
            · exact Nat.lt_trans hlt (q1 x hx))
          rw [z] at this
          simp [Memory.byte, Tab.get, Tab.find?] at this
          exact absurd this hb
        · exact heq
        · have := e a'
          have z : Memory.byte ((a, b) :: m) a' = 0 := below _ _ (fun x hx => by
            rcases List.mem_cons.1 hx with rfl | hx
            · exact hgt
            · exact Nat.lt_trans hgt (p1 x hx))
          rw [z] at this
          simp [Memory.byte, Tab.get, Tab.find?] at this
          exact absurd this.symm hb'
      subst haa
      have hbb : b = b' := by
        have := e a
        simpa [Memory.byte, Tab.get, Tab.find?] using this
      subst hbb
      congr 1
      refine ih m' ⟨p2, fun x hx => h.2 x (List.mem_cons_of_mem _ hx)⟩
        ⟨q2, fun x hx => h'.2 x (List.mem_cons_of_mem _ hx)⟩ (fun x => ?_)
      by_cases hx : a = x
      · subst hx
        rw [below m a p1, below m' a q1]
      · have := e x
        simpa [Memory.byte, Tab.get, Tab.find?, hx] using this

theorem State.reset_mem_wf : State.reset.mem.wf = true := rfl

end Sys2Proof.Machine
end

