-- ==== Sys2Proof/Laws/State.lean ====
section
/-! SUPPORT. One lemma for each field and each named update of a state or a thread, so that no proof unfolds an update. -/

namespace Sys2Proof.Machine

/-! ### State.setCore -/

@[simp] theorem State.now_setCore (s : State) (k : Nat) (c : Core) : (s.setCore k c).now = s.now := rfl
@[simp] theorem State.stopped_setCore (s : State) (k : Nat) (c : Core) : (s.setCore k c).stopped = s.stopped := rfl
@[simp] theorem State.pkg_setCore (s : State) (k : Nat) (c : Core) : (s.setCore k c).pkg = s.pkg := rfl
@[simp] theorem State.cur_setCore (s : State) (k : Nat) (c : Core) : (s.setCore k c).cur = s.cur := rfl
@[simp] theorem State.rot_setCore (s : State) (k : Nat) (c : Core) : (s.setCore k c).rot = s.rot := rfl
@[simp] theorem State.agenda_setCore (s : State) (k : Nat) (c : Core) : (s.setCore k c).agenda = s.agenda := rfl
@[simp] theorem State.fresh_setCore (s : State) (k : Nat) (c : Core) : (s.setCore k c).fresh = s.fresh := rfl
@[simp] theorem State.nextId_setCore (s : State) (k : Nat) (c : Core) : (s.setCore k c).nextId = s.nextId := rfl
@[simp] theorem State.quads_setCore (s : State) (k : Nat) (c : Core) : (s.setCore k c).quads = s.quads := rfl
@[simp] theorem State.clusters_setCore (s : State) (k : Nat) (c : Core) : (s.setCore k c).clusters = s.clusters := rfl
@[simp] theorem State.piers_setCore (s : State) (k : Nat) (c : Core) : (s.setCore k c).piers = s.piers := rfl
@[simp] theorem State.homeReg_setCore (s : State) (k : Nat) (c : Core) : (s.setCore k c).homeReg = s.homeReg := rfl
@[simp] theorem State.mem_setCore (s : State) (k : Nat) (c : Core) : (s.setCore k c).mem = s.mem := rfl
@[simp] theorem State.vaults_setCore (s : State) (k : Nat) (c : Core) : (s.setCore k c).vaults = s.vaults := rfl
@[simp] theorem State.poison_setCore (s : State) (k : Nat) (c : Core) : (s.setCore k c).poison = s.poison := rfl
@[simp] theorem State.packets_setCore (s : State) (k : Nat) (c : Core) : (s.setCore k c).packets = s.packets := rfl
@[simp] theorem State.switches_setCore (s : State) (k : Nat) (c : Core) : (s.setCore k c).switches = s.switches := rfl
@[simp] theorem State.locks_setCore (s : State) (k : Nat) (c : Core) : (s.setCore k c).locks = s.locks := rfl
@[simp] theorem State.qwaits_setCore (s : State) (k : Nat) (c : Core) : (s.setCore k c).qwaits = s.qwaits := rfl
@[simp] theorem State.parts_setCore (s : State) (k : Nat) (c : Core) : (s.setCore k c).parts = s.parts := rfl
@[simp] theorem State.ctxs_setCore (s : State) (k : Nat) (c : Core) : (s.setCore k c).ctxs = s.ctxs := rfl
@[simp] theorem State.vis_setCore (s : State) (k : Nat) (c : Core) : (s.setCore k c).vis = s.vis := rfl
@[simp] theorem State.objs_setCore (s : State) (k : Nat) (c : Core) : (s.setCore k c).objs = s.objs := rfl
@[simp] theorem State.episodes_setCore (s : State) (k : Nat) (c : Core) : (s.setCore k c).episodes = s.episodes := rfl
@[simp] theorem State.groups_setCore (s : State) (k : Nat) (c : Core) : (s.setCore k c).groups = s.groups := rfl
@[simp] theorem State.members_setCore (s : State) (k : Nat) (c : Core) : (s.setCore k c).members = s.members := rfl
@[simp] theorem State.contribs_setCore (s : State) (k : Nat) (c : Core) : (s.setCore k c).contribs = s.contribs := rfl
@[simp] theorem State.limits_setCore (s : State) (k : Nat) (c : Core) : (s.setCore k c).limits = s.limits := rfl
@[simp] theorem State.measures_setCore (s : State) (k : Nat) (c : Core) : (s.setCore k c).measures = s.measures := rfl
@[simp] theorem State.flawed_setCore (s : State) (k : Nat) (c : Core) : (s.setCore k c).flawed = s.flawed := rfl
@[simp] theorem State.irhamPort_setCore (s : State) (k : Nat) (c : Core) : (s.setCore k c).irhamPort = s.irhamPort := rfl

/-! ### State.setCluster -/

@[simp] theorem State.now_setCluster (s : State) (k : Nat) (x : Cluster) : (s.setCluster k x).now = s.now := rfl
@[simp] theorem State.stopped_setCluster (s : State) (k : Nat) (x : Cluster) : (s.setCluster k x).stopped = s.stopped := rfl
@[simp] theorem State.pkg_setCluster (s : State) (k : Nat) (x : Cluster) : (s.setCluster k x).pkg = s.pkg := rfl
@[simp] theorem State.cur_setCluster (s : State) (k : Nat) (x : Cluster) : (s.setCluster k x).cur = s.cur := rfl
@[simp] theorem State.rot_setCluster (s : State) (k : Nat) (x : Cluster) : (s.setCluster k x).rot = s.rot := rfl
@[simp] theorem State.agenda_setCluster (s : State) (k : Nat) (x : Cluster) : (s.setCluster k x).agenda = s.agenda := rfl
@[simp] theorem State.fresh_setCluster (s : State) (k : Nat) (x : Cluster) : (s.setCluster k x).fresh = s.fresh := rfl
@[simp] theorem State.nextId_setCluster (s : State) (k : Nat) (x : Cluster) : (s.setCluster k x).nextId = s.nextId := rfl
@[simp] theorem State.cores_setCluster (s : State) (k : Nat) (x : Cluster) : (s.setCluster k x).cores = s.cores := rfl
@[simp] theorem State.quads_setCluster (s : State) (k : Nat) (x : Cluster) : (s.setCluster k x).quads = s.quads := rfl
@[simp] theorem State.piers_setCluster (s : State) (k : Nat) (x : Cluster) : (s.setCluster k x).piers = s.piers := rfl
@[simp] theorem State.homeReg_setCluster (s : State) (k : Nat) (x : Cluster) : (s.setCluster k x).homeReg = s.homeReg := rfl
@[simp] theorem State.mem_setCluster (s : State) (k : Nat) (x : Cluster) : (s.setCluster k x).mem = s.mem := rfl
@[simp] theorem State.vaults_setCluster (s : State) (k : Nat) (x : Cluster) : (s.setCluster k x).vaults = s.vaults := rfl
@[simp] theorem State.poison_setCluster (s : State) (k : Nat) (x : Cluster) : (s.setCluster k x).poison = s.poison := rfl
@[simp] theorem State.packets_setCluster (s : State) (k : Nat) (x : Cluster) : (s.setCluster k x).packets = s.packets := rfl
@[simp] theorem State.switches_setCluster (s : State) (k : Nat) (x : Cluster) : (s.setCluster k x).switches = s.switches := rfl
@[simp] theorem State.locks_setCluster (s : State) (k : Nat) (x : Cluster) : (s.setCluster k x).locks = s.locks := rfl
@[simp] theorem State.qwaits_setCluster (s : State) (k : Nat) (x : Cluster) : (s.setCluster k x).qwaits = s.qwaits := rfl
@[simp] theorem State.parts_setCluster (s : State) (k : Nat) (x : Cluster) : (s.setCluster k x).parts = s.parts := rfl
@[simp] theorem State.ctxs_setCluster (s : State) (k : Nat) (x : Cluster) : (s.setCluster k x).ctxs = s.ctxs := rfl
@[simp] theorem State.vis_setCluster (s : State) (k : Nat) (x : Cluster) : (s.setCluster k x).vis = s.vis := rfl
@[simp] theorem State.objs_setCluster (s : State) (k : Nat) (x : Cluster) : (s.setCluster k x).objs = s.objs := rfl
@[simp] theorem State.episodes_setCluster (s : State) (k : Nat) (x : Cluster) : (s.setCluster k x).episodes = s.episodes := rfl
@[simp] theorem State.groups_setCluster (s : State) (k : Nat) (x : Cluster) : (s.setCluster k x).groups = s.groups := rfl
@[simp] theorem State.members_setCluster (s : State) (k : Nat) (x : Cluster) : (s.setCluster k x).members = s.members := rfl
@[simp] theorem State.contribs_setCluster (s : State) (k : Nat) (x : Cluster) : (s.setCluster k x).contribs = s.contribs := rfl
@[simp] theorem State.limits_setCluster (s : State) (k : Nat) (x : Cluster) : (s.setCluster k x).limits = s.limits := rfl
@[simp] theorem State.measures_setCluster (s : State) (k : Nat) (x : Cluster) : (s.setCluster k x).measures = s.measures := rfl
@[simp] theorem State.flawed_setCluster (s : State) (k : Nat) (x : Cluster) : (s.setCluster k x).flawed = s.flawed := rfl
@[simp] theorem State.irhamPort_setCluster (s : State) (k : Nat) (x : Cluster) : (s.setCluster k x).irhamPort = s.irhamPort := rfl

/-! ### State.setQuad -/

@[simp] theorem State.now_setQuad (s : State) (k : Nat) (x : Quad) : (s.setQuad k x).now = s.now := rfl
@[simp] theorem State.stopped_setQuad (s : State) (k : Nat) (x : Quad) : (s.setQuad k x).stopped = s.stopped := rfl
@[simp] theorem State.pkg_setQuad (s : State) (k : Nat) (x : Quad) : (s.setQuad k x).pkg = s.pkg := rfl
@[simp] theorem State.cur_setQuad (s : State) (k : Nat) (x : Quad) : (s.setQuad k x).cur = s.cur := rfl
@[simp] theorem State.rot_setQuad (s : State) (k : Nat) (x : Quad) : (s.setQuad k x).rot = s.rot := rfl
@[simp] theorem State.agenda_setQuad (s : State) (k : Nat) (x : Quad) : (s.setQuad k x).agenda = s.agenda := rfl
@[simp] theorem State.fresh_setQuad (s : State) (k : Nat) (x : Quad) : (s.setQuad k x).fresh = s.fresh := rfl
@[simp] theorem State.nextId_setQuad (s : State) (k : Nat) (x : Quad) : (s.setQuad k x).nextId = s.nextId := rfl
@[simp] theorem State.cores_setQuad (s : State) (k : Nat) (x : Quad) : (s.setQuad k x).cores = s.cores := rfl
@[simp] theorem State.clusters_setQuad (s : State) (k : Nat) (x : Quad) : (s.setQuad k x).clusters = s.clusters := rfl
@[simp] theorem State.piers_setQuad (s : State) (k : Nat) (x : Quad) : (s.setQuad k x).piers = s.piers := rfl
@[simp] theorem State.homeReg_setQuad (s : State) (k : Nat) (x : Quad) : (s.setQuad k x).homeReg = s.homeReg := rfl
@[simp] theorem State.mem_setQuad (s : State) (k : Nat) (x : Quad) : (s.setQuad k x).mem = s.mem := rfl
@[simp] theorem State.vaults_setQuad (s : State) (k : Nat) (x : Quad) : (s.setQuad k x).vaults = s.vaults := rfl
@[simp] theorem State.poison_setQuad (s : State) (k : Nat) (x : Quad) : (s.setQuad k x).poison = s.poison := rfl
@[simp] theorem State.packets_setQuad (s : State) (k : Nat) (x : Quad) : (s.setQuad k x).packets = s.packets := rfl
@[simp] theorem State.switches_setQuad (s : State) (k : Nat) (x : Quad) : (s.setQuad k x).switches = s.switches := rfl
@[simp] theorem State.locks_setQuad (s : State) (k : Nat) (x : Quad) : (s.setQuad k x).locks = s.locks := rfl
@[simp] theorem State.qwaits_setQuad (s : State) (k : Nat) (x : Quad) : (s.setQuad k x).qwaits = s.qwaits := rfl
@[simp] theorem State.parts_setQuad (s : State) (k : Nat) (x : Quad) : (s.setQuad k x).parts = s.parts := rfl
@[simp] theorem State.ctxs_setQuad (s : State) (k : Nat) (x : Quad) : (s.setQuad k x).ctxs = s.ctxs := rfl
@[simp] theorem State.vis_setQuad (s : State) (k : Nat) (x : Quad) : (s.setQuad k x).vis = s.vis := rfl
@[simp] theorem State.objs_setQuad (s : State) (k : Nat) (x : Quad) : (s.setQuad k x).objs = s.objs := rfl
@[simp] theorem State.episodes_setQuad (s : State) (k : Nat) (x : Quad) : (s.setQuad k x).episodes = s.episodes := rfl
@[simp] theorem State.groups_setQuad (s : State) (k : Nat) (x : Quad) : (s.setQuad k x).groups = s.groups := rfl
@[simp] theorem State.members_setQuad (s : State) (k : Nat) (x : Quad) : (s.setQuad k x).members = s.members := rfl
@[simp] theorem State.contribs_setQuad (s : State) (k : Nat) (x : Quad) : (s.setQuad k x).contribs = s.contribs := rfl
@[simp] theorem State.limits_setQuad (s : State) (k : Nat) (x : Quad) : (s.setQuad k x).limits = s.limits := rfl
@[simp] theorem State.measures_setQuad (s : State) (k : Nat) (x : Quad) : (s.setQuad k x).measures = s.measures := rfl
@[simp] theorem State.flawed_setQuad (s : State) (k : Nat) (x : Quad) : (s.setQuad k x).flawed = s.flawed := rfl
@[simp] theorem State.irhamPort_setQuad (s : State) (k : Nat) (x : Quad) : (s.setQuad k x).irhamPort = s.irhamPort := rfl

/-! ### State.setPart -/

@[simp] theorem State.now_setPart (s : State) (k : Nat) (x : Partition) : (s.setPart k x).now = s.now := rfl
@[simp] theorem State.stopped_setPart (s : State) (k : Nat) (x : Partition) : (s.setPart k x).stopped = s.stopped := rfl
@[simp] theorem State.pkg_setPart (s : State) (k : Nat) (x : Partition) : (s.setPart k x).pkg = s.pkg := rfl
@[simp] theorem State.cur_setPart (s : State) (k : Nat) (x : Partition) : (s.setPart k x).cur = s.cur := rfl
@[simp] theorem State.rot_setPart (s : State) (k : Nat) (x : Partition) : (s.setPart k x).rot = s.rot := rfl
@[simp] theorem State.agenda_setPart (s : State) (k : Nat) (x : Partition) : (s.setPart k x).agenda = s.agenda := rfl
@[simp] theorem State.fresh_setPart (s : State) (k : Nat) (x : Partition) : (s.setPart k x).fresh = s.fresh := rfl
@[simp] theorem State.nextId_setPart (s : State) (k : Nat) (x : Partition) : (s.setPart k x).nextId = s.nextId := rfl
@[simp] theorem State.cores_setPart (s : State) (k : Nat) (x : Partition) : (s.setPart k x).cores = s.cores := rfl
@[simp] theorem State.quads_setPart (s : State) (k : Nat) (x : Partition) : (s.setPart k x).quads = s.quads := rfl
@[simp] theorem State.clusters_setPart (s : State) (k : Nat) (x : Partition) : (s.setPart k x).clusters = s.clusters := rfl
@[simp] theorem State.piers_setPart (s : State) (k : Nat) (x : Partition) : (s.setPart k x).piers = s.piers := rfl
@[simp] theorem State.homeReg_setPart (s : State) (k : Nat) (x : Partition) : (s.setPart k x).homeReg = s.homeReg := rfl
@[simp] theorem State.mem_setPart (s : State) (k : Nat) (x : Partition) : (s.setPart k x).mem = s.mem := rfl
@[simp] theorem State.vaults_setPart (s : State) (k : Nat) (x : Partition) : (s.setPart k x).vaults = s.vaults := rfl
@[simp] theorem State.poison_setPart (s : State) (k : Nat) (x : Partition) : (s.setPart k x).poison = s.poison := rfl
@[simp] theorem State.packets_setPart (s : State) (k : Nat) (x : Partition) : (s.setPart k x).packets = s.packets := rfl
@[simp] theorem State.switches_setPart (s : State) (k : Nat) (x : Partition) : (s.setPart k x).switches = s.switches := rfl
@[simp] theorem State.locks_setPart (s : State) (k : Nat) (x : Partition) : (s.setPart k x).locks = s.locks := rfl
@[simp] theorem State.qwaits_setPart (s : State) (k : Nat) (x : Partition) : (s.setPart k x).qwaits = s.qwaits := rfl
@[simp] theorem State.ctxs_setPart (s : State) (k : Nat) (x : Partition) : (s.setPart k x).ctxs = s.ctxs := rfl
@[simp] theorem State.vis_setPart (s : State) (k : Nat) (x : Partition) : (s.setPart k x).vis = s.vis := rfl
@[simp] theorem State.objs_setPart (s : State) (k : Nat) (x : Partition) : (s.setPart k x).objs = s.objs := rfl
@[simp] theorem State.episodes_setPart (s : State) (k : Nat) (x : Partition) : (s.setPart k x).episodes = s.episodes := rfl
@[simp] theorem State.groups_setPart (s : State) (k : Nat) (x : Partition) : (s.setPart k x).groups = s.groups := rfl
@[simp] theorem State.members_setPart (s : State) (k : Nat) (x : Partition) : (s.setPart k x).members = s.members := rfl
@[simp] theorem State.contribs_setPart (s : State) (k : Nat) (x : Partition) : (s.setPart k x).contribs = s.contribs := rfl
@[simp] theorem State.limits_setPart (s : State) (k : Nat) (x : Partition) : (s.setPart k x).limits = s.limits := rfl
@[simp] theorem State.measures_setPart (s : State) (k : Nat) (x : Partition) : (s.setPart k x).measures = s.measures := rfl
@[simp] theorem State.flawed_setPart (s : State) (k : Nat) (x : Partition) : (s.setPart k x).flawed = s.flawed := rfl
@[simp] theorem State.irhamPort_setPart (s : State) (k : Nat) (x : Partition) : (s.setPart k x).irhamPort = s.irhamPort := rfl

/-! ### State.setVi -/

@[simp] theorem State.now_setVi (s : State) (k : Nat) (x : Vi) : (s.setVi k x).now = s.now := rfl
@[simp] theorem State.stopped_setVi (s : State) (k : Nat) (x : Vi) : (s.setVi k x).stopped = s.stopped := rfl
@[simp] theorem State.pkg_setVi (s : State) (k : Nat) (x : Vi) : (s.setVi k x).pkg = s.pkg := rfl
@[simp] theorem State.cur_setVi (s : State) (k : Nat) (x : Vi) : (s.setVi k x).cur = s.cur := rfl
@[simp] theorem State.rot_setVi (s : State) (k : Nat) (x : Vi) : (s.setVi k x).rot = s.rot := rfl
@[simp] theorem State.agenda_setVi (s : State) (k : Nat) (x : Vi) : (s.setVi k x).agenda = s.agenda := rfl
@[simp] theorem State.fresh_setVi (s : State) (k : Nat) (x : Vi) : (s.setVi k x).fresh = s.fresh := rfl
@[simp] theorem State.nextId_setVi (s : State) (k : Nat) (x : Vi) : (s.setVi k x).nextId = s.nextId := rfl
@[simp] theorem State.cores_setVi (s : State) (k : Nat) (x : Vi) : (s.setVi k x).cores = s.cores := rfl
@[simp] theorem State.quads_setVi (s : State) (k : Nat) (x : Vi) : (s.setVi k x).quads = s.quads := rfl
@[simp] theorem State.clusters_setVi (s : State) (k : Nat) (x : Vi) : (s.setVi k x).clusters = s.clusters := rfl
@[simp] theorem State.piers_setVi (s : State) (k : Nat) (x : Vi) : (s.setVi k x).piers = s.piers := rfl
@[simp] theorem State.homeReg_setVi (s : State) (k : Nat) (x : Vi) : (s.setVi k x).homeReg = s.homeReg := rfl
@[simp] theorem State.mem_setVi (s : State) (k : Nat) (x : Vi) : (s.setVi k x).mem = s.mem := rfl
@[simp] theorem State.vaults_setVi (s : State) (k : Nat) (x : Vi) : (s.setVi k x).vaults = s.vaults := rfl
@[simp] theorem State.poison_setVi (s : State) (k : Nat) (x : Vi) : (s.setVi k x).poison = s.poison := rfl
@[simp] theorem State.packets_setVi (s : State) (k : Nat) (x : Vi) : (s.setVi k x).packets = s.packets := rfl
@[simp] theorem State.switches_setVi (s : State) (k : Nat) (x : Vi) : (s.setVi k x).switches = s.switches := rfl
@[simp] theorem State.locks_setVi (s : State) (k : Nat) (x : Vi) : (s.setVi k x).locks = s.locks := rfl
@[simp] theorem State.qwaits_setVi (s : State) (k : Nat) (x : Vi) : (s.setVi k x).qwaits = s.qwaits := rfl
@[simp] theorem State.parts_setVi (s : State) (k : Nat) (x : Vi) : (s.setVi k x).parts = s.parts := rfl
@[simp] theorem State.ctxs_setVi (s : State) (k : Nat) (x : Vi) : (s.setVi k x).ctxs = s.ctxs := rfl
@[simp] theorem State.objs_setVi (s : State) (k : Nat) (x : Vi) : (s.setVi k x).objs = s.objs := rfl
@[simp] theorem State.episodes_setVi (s : State) (k : Nat) (x : Vi) : (s.setVi k x).episodes = s.episodes := rfl
@[simp] theorem State.groups_setVi (s : State) (k : Nat) (x : Vi) : (s.setVi k x).groups = s.groups := rfl
@[simp] theorem State.members_setVi (s : State) (k : Nat) (x : Vi) : (s.setVi k x).members = s.members := rfl
@[simp] theorem State.contribs_setVi (s : State) (k : Nat) (x : Vi) : (s.setVi k x).contribs = s.contribs := rfl
@[simp] theorem State.limits_setVi (s : State) (k : Nat) (x : Vi) : (s.setVi k x).limits = s.limits := rfl
@[simp] theorem State.measures_setVi (s : State) (k : Nat) (x : Vi) : (s.setVi k x).measures = s.measures := rfl
@[simp] theorem State.flawed_setVi (s : State) (k : Nat) (x : Vi) : (s.setVi k x).flawed = s.flawed := rfl
@[simp] theorem State.irhamPort_setVi (s : State) (k : Nat) (x : Vi) : (s.setVi k x).irhamPort = s.irhamPort := rfl

/-! ### State.setEpisode -/

@[simp] theorem State.now_setEpisode (s : State) (k : Nat) (x : Episode) : (s.setEpisode k x).now = s.now := rfl
@[simp] theorem State.stopped_setEpisode (s : State) (k : Nat) (x : Episode) : (s.setEpisode k x).stopped = s.stopped := rfl
@[simp] theorem State.pkg_setEpisode (s : State) (k : Nat) (x : Episode) : (s.setEpisode k x).pkg = s.pkg := rfl
@[simp] theorem State.cur_setEpisode (s : State) (k : Nat) (x : Episode) : (s.setEpisode k x).cur = s.cur := rfl
@[simp] theorem State.rot_setEpisode (s : State) (k : Nat) (x : Episode) : (s.setEpisode k x).rot = s.rot := rfl
@[simp] theorem State.agenda_setEpisode (s : State) (k : Nat) (x : Episode) : (s.setEpisode k x).agenda = s.agenda := rfl
@[simp] theorem State.fresh_setEpisode (s : State) (k : Nat) (x : Episode) : (s.setEpisode k x).fresh = s.fresh := rfl
@[simp] theorem State.nextId_setEpisode (s : State) (k : Nat) (x : Episode) : (s.setEpisode k x).nextId = s.nextId := rfl
@[simp] theorem State.cores_setEpisode (s : State) (k : Nat) (x : Episode) : (s.setEpisode k x).cores = s.cores := rfl
@[simp] theorem State.quads_setEpisode (s : State) (k : Nat) (x : Episode) : (s.setEpisode k x).quads = s.quads := rfl
@[simp] theorem State.clusters_setEpisode (s : State) (k : Nat) (x : Episode) : (s.setEpisode k x).clusters = s.clusters := rfl
@[simp] theorem State.piers_setEpisode (s : State) (k : Nat) (x : Episode) : (s.setEpisode k x).piers = s.piers := rfl
@[simp] theorem State.homeReg_setEpisode (s : State) (k : Nat) (x : Episode) : (s.setEpisode k x).homeReg = s.homeReg := rfl
@[simp] theorem State.mem_setEpisode (s : State) (k : Nat) (x : Episode) : (s.setEpisode k x).mem = s.mem := rfl
@[simp] theorem State.vaults_setEpisode (s : State) (k : Nat) (x : Episode) : (s.setEpisode k x).vaults = s.vaults := rfl
@[simp] theorem State.poison_setEpisode (s : State) (k : Nat) (x : Episode) : (s.setEpisode k x).poison = s.poison := rfl
@[simp] theorem State.packets_setEpisode (s : State) (k : Nat) (x : Episode) : (s.setEpisode k x).packets = s.packets := rfl
@[simp] theorem State.switches_setEpisode (s : State) (k : Nat) (x : Episode) : (s.setEpisode k x).switches = s.switches := rfl
@[simp] theorem State.locks_setEpisode (s : State) (k : Nat) (x : Episode) : (s.setEpisode k x).locks = s.locks := rfl
@[simp] theorem State.qwaits_setEpisode (s : State) (k : Nat) (x : Episode) : (s.setEpisode k x).qwaits = s.qwaits := rfl
@[simp] theorem State.parts_setEpisode (s : State) (k : Nat) (x : Episode) : (s.setEpisode k x).parts = s.parts := rfl
@[simp] theorem State.ctxs_setEpisode (s : State) (k : Nat) (x : Episode) : (s.setEpisode k x).ctxs = s.ctxs := rfl
@[simp] theorem State.vis_setEpisode (s : State) (k : Nat) (x : Episode) : (s.setEpisode k x).vis = s.vis := rfl
@[simp] theorem State.objs_setEpisode (s : State) (k : Nat) (x : Episode) : (s.setEpisode k x).objs = s.objs := rfl
@[simp] theorem State.groups_setEpisode (s : State) (k : Nat) (x : Episode) : (s.setEpisode k x).groups = s.groups := rfl
@[simp] theorem State.members_setEpisode (s : State) (k : Nat) (x : Episode) : (s.setEpisode k x).members = s.members := rfl
@[simp] theorem State.contribs_setEpisode (s : State) (k : Nat) (x : Episode) : (s.setEpisode k x).contribs = s.contribs := rfl
@[simp] theorem State.limits_setEpisode (s : State) (k : Nat) (x : Episode) : (s.setEpisode k x).limits = s.limits := rfl
@[simp] theorem State.measures_setEpisode (s : State) (k : Nat) (x : Episode) : (s.setEpisode k x).measures = s.measures := rfl
@[simp] theorem State.flawed_setEpisode (s : State) (k : Nat) (x : Episode) : (s.setEpisode k x).flawed = s.flawed := rfl
@[simp] theorem State.irhamPort_setEpisode (s : State) (k : Nat) (x : Episode) : (s.setEpisode k x).irhamPort = s.irhamPort := rfl

/-! ### State.send -/

@[simp] theorem State.now_send (s : State) (p : Packet) : (s.send p).now = s.now := rfl
@[simp] theorem State.stopped_send (s : State) (p : Packet) : (s.send p).stopped = s.stopped := rfl
@[simp] theorem State.pkg_send (s : State) (p : Packet) : (s.send p).pkg = s.pkg := rfl
@[simp] theorem State.cur_send (s : State) (p : Packet) : (s.send p).cur = s.cur := rfl
@[simp] theorem State.rot_send (s : State) (p : Packet) : (s.send p).rot = s.rot := rfl
@[simp] theorem State.agenda_send (s : State) (p : Packet) : (s.send p).agenda = s.agenda := rfl
@[simp] theorem State.fresh_send (s : State) (p : Packet) : (s.send p).fresh = s.fresh := rfl
@[simp] theorem State.cores_send (s : State) (p : Packet) : (s.send p).cores = s.cores := rfl
@[simp] theorem State.quads_send (s : State) (p : Packet) : (s.send p).quads = s.quads := rfl
@[simp] theorem State.clusters_send (s : State) (p : Packet) : (s.send p).clusters = s.clusters := rfl
@[simp] theorem State.piers_send (s : State) (p : Packet) : (s.send p).piers = s.piers := rfl
@[simp] theorem State.homeReg_send (s : State) (p : Packet) : (s.send p).homeReg = s.homeReg := rfl
@[simp] theorem State.mem_send (s : State) (p : Packet) : (s.send p).mem = s.mem := rfl
@[simp] theorem State.vaults_send (s : State) (p : Packet) : (s.send p).vaults = s.vaults := rfl
@[simp] theorem State.poison_send (s : State) (p : Packet) : (s.send p).poison = s.poison := rfl
@[simp] theorem State.switches_send (s : State) (p : Packet) : (s.send p).switches = s.switches := rfl
@[simp] theorem State.locks_send (s : State) (p : Packet) : (s.send p).locks = s.locks := rfl
@[simp] theorem State.qwaits_send (s : State) (p : Packet) : (s.send p).qwaits = s.qwaits := rfl
@[simp] theorem State.parts_send (s : State) (p : Packet) : (s.send p).parts = s.parts := rfl
@[simp] theorem State.ctxs_send (s : State) (p : Packet) : (s.send p).ctxs = s.ctxs := rfl
@[simp] theorem State.vis_send (s : State) (p : Packet) : (s.send p).vis = s.vis := rfl
@[simp] theorem State.objs_send (s : State) (p : Packet) : (s.send p).objs = s.objs := rfl
@[simp] theorem State.episodes_send (s : State) (p : Packet) : (s.send p).episodes = s.episodes := rfl
@[simp] theorem State.groups_send (s : State) (p : Packet) : (s.send p).groups = s.groups := rfl
@[simp] theorem State.members_send (s : State) (p : Packet) : (s.send p).members = s.members := rfl
@[simp] theorem State.contribs_send (s : State) (p : Packet) : (s.send p).contribs = s.contribs := rfl
@[simp] theorem State.limits_send (s : State) (p : Packet) : (s.send p).limits = s.limits := rfl
@[simp] theorem State.measures_send (s : State) (p : Packet) : (s.send p).measures = s.measures := rfl
@[simp] theorem State.flawed_send (s : State) (p : Packet) : (s.send p).flawed = s.flawed := rfl
@[simp] theorem State.irhamPort_send (s : State) (p : Packet) : (s.send p).irhamPort = s.irhamPort := rfl

/-! ### State.setPacket -/

@[simp] theorem State.now_setPacket (s : State) (p : Packet) : (s.setPacket p).now = s.now := rfl
@[simp] theorem State.stopped_setPacket (s : State) (p : Packet) : (s.setPacket p).stopped = s.stopped := rfl
@[simp] theorem State.pkg_setPacket (s : State) (p : Packet) : (s.setPacket p).pkg = s.pkg := rfl
@[simp] theorem State.cur_setPacket (s : State) (p : Packet) : (s.setPacket p).cur = s.cur := rfl
@[simp] theorem State.rot_setPacket (s : State) (p : Packet) : (s.setPacket p).rot = s.rot := rfl
@[simp] theorem State.agenda_setPacket (s : State) (p : Packet) : (s.setPacket p).agenda = s.agenda := rfl
@[simp] theorem State.fresh_setPacket (s : State) (p : Packet) : (s.setPacket p).fresh = s.fresh := rfl
@[simp] theorem State.nextId_setPacket (s : State) (p : Packet) : (s.setPacket p).nextId = s.nextId := rfl
@[simp] theorem State.cores_setPacket (s : State) (p : Packet) : (s.setPacket p).cores = s.cores := rfl
@[simp] theorem State.quads_setPacket (s : State) (p : Packet) : (s.setPacket p).quads = s.quads := rfl
@[simp] theorem State.clusters_setPacket (s : State) (p : Packet) : (s.setPacket p).clusters = s.clusters := rfl
@[simp] theorem State.piers_setPacket (s : State) (p : Packet) : (s.setPacket p).piers = s.piers := rfl
@[simp] theorem State.homeReg_setPacket (s : State) (p : Packet) : (s.setPacket p).homeReg = s.homeReg := rfl
@[simp] theorem State.mem_setPacket (s : State) (p : Packet) : (s.setPacket p).mem = s.mem := rfl
@[simp] theorem State.vaults_setPacket (s : State) (p : Packet) : (s.setPacket p).vaults = s.vaults := rfl
@[simp] theorem State.poison_setPacket (s : State) (p : Packet) : (s.setPacket p).poison = s.poison := rfl
@[simp] theorem State.switches_setPacket (s : State) (p : Packet) : (s.setPacket p).switches = s.switches := rfl
@[simp] theorem State.locks_setPacket (s : State) (p : Packet) : (s.setPacket p).locks = s.locks := rfl
@[simp] theorem State.qwaits_setPacket (s : State) (p : Packet) : (s.setPacket p).qwaits = s.qwaits := rfl
@[simp] theorem State.parts_setPacket (s : State) (p : Packet) : (s.setPacket p).parts = s.parts := rfl
@[simp] theorem State.ctxs_setPacket (s : State) (p : Packet) : (s.setPacket p).ctxs = s.ctxs := rfl
@[simp] theorem State.vis_setPacket (s : State) (p : Packet) : (s.setPacket p).vis = s.vis := rfl
@[simp] theorem State.objs_setPacket (s : State) (p : Packet) : (s.setPacket p).objs = s.objs := rfl
@[simp] theorem State.episodes_setPacket (s : State) (p : Packet) : (s.setPacket p).episodes = s.episodes := rfl
@[simp] theorem State.groups_setPacket (s : State) (p : Packet) : (s.setPacket p).groups = s.groups := rfl
@[simp] theorem State.members_setPacket (s : State) (p : Packet) : (s.setPacket p).members = s.members := rfl
@[simp] theorem State.contribs_setPacket (s : State) (p : Packet) : (s.setPacket p).contribs = s.contribs := rfl
@[simp] theorem State.limits_setPacket (s : State) (p : Packet) : (s.setPacket p).limits = s.limits := rfl
@[simp] theorem State.measures_setPacket (s : State) (p : Packet) : (s.setPacket p).measures = s.measures := rfl
@[simp] theorem State.flawed_setPacket (s : State) (p : Packet) : (s.setPacket p).flawed = s.flawed := rfl
@[simp] theorem State.irhamPort_setPacket (s : State) (p : Packet) : (s.setPacket p).irhamPort = s.irhamPort := rfl

/-! ### State.dropPacket -/

@[simp] theorem State.now_dropPacket (s : State) (k : Nat) : (s.dropPacket k).now = s.now := rfl
@[simp] theorem State.stopped_dropPacket (s : State) (k : Nat) : (s.dropPacket k).stopped = s.stopped := rfl
@[simp] theorem State.pkg_dropPacket (s : State) (k : Nat) : (s.dropPacket k).pkg = s.pkg := rfl
@[simp] theorem State.cur_dropPacket (s : State) (k : Nat) : (s.dropPacket k).cur = s.cur := rfl
@[simp] theorem State.rot_dropPacket (s : State) (k : Nat) : (s.dropPacket k).rot = s.rot := rfl
@[simp] theorem State.agenda_dropPacket (s : State) (k : Nat) : (s.dropPacket k).agenda = s.agenda := rfl
@[simp] theorem State.fresh_dropPacket (s : State) (k : Nat) : (s.dropPacket k).fresh = s.fresh := rfl
@[simp] theorem State.nextId_dropPacket (s : State) (k : Nat) : (s.dropPacket k).nextId = s.nextId := rfl
@[simp] theorem State.cores_dropPacket (s : State) (k : Nat) : (s.dropPacket k).cores = s.cores := rfl
@[simp] theorem State.quads_dropPacket (s : State) (k : Nat) : (s.dropPacket k).quads = s.quads := rfl
@[simp] theorem State.clusters_dropPacket (s : State) (k : Nat) : (s.dropPacket k).clusters = s.clusters := rfl
@[simp] theorem State.piers_dropPacket (s : State) (k : Nat) : (s.dropPacket k).piers = s.piers := rfl
@[simp] theorem State.homeReg_dropPacket (s : State) (k : Nat) : (s.dropPacket k).homeReg = s.homeReg := rfl
@[simp] theorem State.mem_dropPacket (s : State) (k : Nat) : (s.dropPacket k).mem = s.mem := rfl
@[simp] theorem State.vaults_dropPacket (s : State) (k : Nat) : (s.dropPacket k).vaults = s.vaults := rfl
@[simp] theorem State.poison_dropPacket (s : State) (k : Nat) : (s.dropPacket k).poison = s.poison := rfl
@[simp] theorem State.switches_dropPacket (s : State) (k : Nat) : (s.dropPacket k).switches = s.switches := rfl
@[simp] theorem State.locks_dropPacket (s : State) (k : Nat) : (s.dropPacket k).locks = s.locks := rfl
@[simp] theorem State.qwaits_dropPacket (s : State) (k : Nat) : (s.dropPacket k).qwaits = s.qwaits := rfl
@[simp] theorem State.parts_dropPacket (s : State) (k : Nat) : (s.dropPacket k).parts = s.parts := rfl
@[simp] theorem State.ctxs_dropPacket (s : State) (k : Nat) : (s.dropPacket k).ctxs = s.ctxs := rfl
@[simp] theorem State.vis_dropPacket (s : State) (k : Nat) : (s.dropPacket k).vis = s.vis := rfl
@[simp] theorem State.objs_dropPacket (s : State) (k : Nat) : (s.dropPacket k).objs = s.objs := rfl
@[simp] theorem State.episodes_dropPacket (s : State) (k : Nat) : (s.dropPacket k).episodes = s.episodes := rfl
@[simp] theorem State.groups_dropPacket (s : State) (k : Nat) : (s.dropPacket k).groups = s.groups := rfl
@[simp] theorem State.members_dropPacket (s : State) (k : Nat) : (s.dropPacket k).members = s.members := rfl
@[simp] theorem State.contribs_dropPacket (s : State) (k : Nat) : (s.dropPacket k).contribs = s.contribs := rfl
@[simp] theorem State.limits_dropPacket (s : State) (k : Nat) : (s.dropPacket k).limits = s.limits := rfl
@[simp] theorem State.measures_dropPacket (s : State) (k : Nat) : (s.dropPacket k).measures = s.measures := rfl
@[simp] theorem State.flawed_dropPacket (s : State) (k : Nat) : (s.dropPacket k).flawed = s.flawed := rfl
@[simp] theorem State.irhamPort_dropPacket (s : State) (k : Nat) : (s.dropPacket k).irhamPort = s.irhamPort := rfl

/-! ### State.reply -/

@[simp] theorem State.now_reply (s : State) (p : Packet) (n : Net) (b : Body) : (s.reply p n b).now = s.now := rfl
@[simp] theorem State.stopped_reply (s : State) (p : Packet) (n : Net) (b : Body) : (s.reply p n b).stopped = s.stopped := rfl
@[simp] theorem State.pkg_reply (s : State) (p : Packet) (n : Net) (b : Body) : (s.reply p n b).pkg = s.pkg := rfl
@[simp] theorem State.cur_reply (s : State) (p : Packet) (n : Net) (b : Body) : (s.reply p n b).cur = s.cur := rfl
@[simp] theorem State.rot_reply (s : State) (p : Packet) (n : Net) (b : Body) : (s.reply p n b).rot = s.rot := rfl
@[simp] theorem State.agenda_reply (s : State) (p : Packet) (n : Net) (b : Body) : (s.reply p n b).agenda = s.agenda := rfl
@[simp] theorem State.fresh_reply (s : State) (p : Packet) (n : Net) (b : Body) : (s.reply p n b).fresh = s.fresh := rfl
@[simp] theorem State.cores_reply (s : State) (p : Packet) (n : Net) (b : Body) : (s.reply p n b).cores = s.cores := rfl
@[simp] theorem State.quads_reply (s : State) (p : Packet) (n : Net) (b : Body) : (s.reply p n b).quads = s.quads := rfl
@[simp] theorem State.clusters_reply (s : State) (p : Packet) (n : Net) (b : Body) : (s.reply p n b).clusters = s.clusters := rfl
@[simp] theorem State.piers_reply (s : State) (p : Packet) (n : Net) (b : Body) : (s.reply p n b).piers = s.piers := rfl
@[simp] theorem State.homeReg_reply (s : State) (p : Packet) (n : Net) (b : Body) : (s.reply p n b).homeReg = s.homeReg := rfl
@[simp] theorem State.mem_reply (s : State) (p : Packet) (n : Net) (b : Body) : (s.reply p n b).mem = s.mem := rfl
@[simp] theorem State.vaults_reply (s : State) (p : Packet) (n : Net) (b : Body) : (s.reply p n b).vaults = s.vaults := rfl
@[simp] theorem State.poison_reply (s : State) (p : Packet) (n : Net) (b : Body) : (s.reply p n b).poison = s.poison := rfl
@[simp] theorem State.switches_reply (s : State) (p : Packet) (n : Net) (b : Body) : (s.reply p n b).switches = s.switches := rfl
@[simp] theorem State.locks_reply (s : State) (p : Packet) (n : Net) (b : Body) : (s.reply p n b).locks = s.locks := rfl
@[simp] theorem State.qwaits_reply (s : State) (p : Packet) (n : Net) (b : Body) : (s.reply p n b).qwaits = s.qwaits := rfl
@[simp] theorem State.parts_reply (s : State) (p : Packet) (n : Net) (b : Body) : (s.reply p n b).parts = s.parts := rfl
@[simp] theorem State.ctxs_reply (s : State) (p : Packet) (n : Net) (b : Body) : (s.reply p n b).ctxs = s.ctxs := rfl
@[simp] theorem State.vis_reply (s : State) (p : Packet) (n : Net) (b : Body) : (s.reply p n b).vis = s.vis := rfl
@[simp] theorem State.objs_reply (s : State) (p : Packet) (n : Net) (b : Body) : (s.reply p n b).objs = s.objs := rfl
@[simp] theorem State.episodes_reply (s : State) (p : Packet) (n : Net) (b : Body) : (s.reply p n b).episodes = s.episodes := rfl
@[simp] theorem State.groups_reply (s : State) (p : Packet) (n : Net) (b : Body) : (s.reply p n b).groups = s.groups := rfl
@[simp] theorem State.members_reply (s : State) (p : Packet) (n : Net) (b : Body) : (s.reply p n b).members = s.members := rfl
@[simp] theorem State.contribs_reply (s : State) (p : Packet) (n : Net) (b : Body) : (s.reply p n b).contribs = s.contribs := rfl
@[simp] theorem State.limits_reply (s : State) (p : Packet) (n : Net) (b : Body) : (s.reply p n b).limits = s.limits := rfl
@[simp] theorem State.measures_reply (s : State) (p : Packet) (n : Net) (b : Body) : (s.reply p n b).measures = s.measures := rfl
@[simp] theorem State.flawed_reply (s : State) (p : Packet) (n : Net) (b : Body) : (s.reply p n b).flawed = s.flawed := rfl
@[simp] theorem State.irhamPort_reply (s : State) (p : Packet) (n : Net) (b : Body) : (s.reply p n b).irhamPort = s.irhamPort := rfl

/-! ### State.refuse -/

@[simp] theorem State.now_refuse (s : State) (p : Packet) : (s.refuse p).now = s.now := rfl
@[simp] theorem State.stopped_refuse (s : State) (p : Packet) : (s.refuse p).stopped = s.stopped := rfl
@[simp] theorem State.pkg_refuse (s : State) (p : Packet) : (s.refuse p).pkg = s.pkg := rfl
@[simp] theorem State.cur_refuse (s : State) (p : Packet) : (s.refuse p).cur = s.cur := rfl
@[simp] theorem State.rot_refuse (s : State) (p : Packet) : (s.refuse p).rot = s.rot := rfl
@[simp] theorem State.agenda_refuse (s : State) (p : Packet) : (s.refuse p).agenda = s.agenda := rfl
@[simp] theorem State.fresh_refuse (s : State) (p : Packet) : (s.refuse p).fresh = s.fresh := rfl
@[simp] theorem State.nextId_refuse (s : State) (p : Packet) : (s.refuse p).nextId = s.nextId := rfl
@[simp] theorem State.cores_refuse (s : State) (p : Packet) : (s.refuse p).cores = s.cores := rfl
@[simp] theorem State.quads_refuse (s : State) (p : Packet) : (s.refuse p).quads = s.quads := rfl
@[simp] theorem State.clusters_refuse (s : State) (p : Packet) : (s.refuse p).clusters = s.clusters := rfl
@[simp] theorem State.piers_refuse (s : State) (p : Packet) : (s.refuse p).piers = s.piers := rfl
@[simp] theorem State.homeReg_refuse (s : State) (p : Packet) : (s.refuse p).homeReg = s.homeReg := rfl
@[simp] theorem State.mem_refuse (s : State) (p : Packet) : (s.refuse p).mem = s.mem := rfl
@[simp] theorem State.vaults_refuse (s : State) (p : Packet) : (s.refuse p).vaults = s.vaults := rfl
@[simp] theorem State.poison_refuse (s : State) (p : Packet) : (s.refuse p).poison = s.poison := rfl
@[simp] theorem State.switches_refuse (s : State) (p : Packet) : (s.refuse p).switches = s.switches := rfl
@[simp] theorem State.locks_refuse (s : State) (p : Packet) : (s.refuse p).locks = s.locks := rfl
@[simp] theorem State.qwaits_refuse (s : State) (p : Packet) : (s.refuse p).qwaits = s.qwaits := rfl
@[simp] theorem State.parts_refuse (s : State) (p : Packet) : (s.refuse p).parts = s.parts := rfl
@[simp] theorem State.ctxs_refuse (s : State) (p : Packet) : (s.refuse p).ctxs = s.ctxs := rfl
@[simp] theorem State.vis_refuse (s : State) (p : Packet) : (s.refuse p).vis = s.vis := rfl
@[simp] theorem State.objs_refuse (s : State) (p : Packet) : (s.refuse p).objs = s.objs := rfl
@[simp] theorem State.episodes_refuse (s : State) (p : Packet) : (s.refuse p).episodes = s.episodes := rfl
@[simp] theorem State.groups_refuse (s : State) (p : Packet) : (s.refuse p).groups = s.groups := rfl
@[simp] theorem State.members_refuse (s : State) (p : Packet) : (s.refuse p).members = s.members := rfl
@[simp] theorem State.contribs_refuse (s : State) (p : Packet) : (s.refuse p).contribs = s.contribs := rfl
@[simp] theorem State.limits_refuse (s : State) (p : Packet) : (s.refuse p).limits = s.limits := rfl
@[simp] theorem State.measures_refuse (s : State) (p : Packet) : (s.refuse p).measures = s.measures := rfl
@[simp] theorem State.flawed_refuse (s : State) (p : Packet) : (s.refuse p).flawed = s.flawed := rfl
@[simp] theorem State.irhamPort_refuse (s : State) (p : Packet) : (s.refuse p).irhamPort = s.irhamPort := rfl

/-! ### What was put is what is found -/

@[simp] theorem State.core_setCore_same (s : State) (k : Nat) (x : Core) : (s.setCore k x).core k = x := Tab.get_set_same _ _ _ _

theorem State.core_setCore_other (s : State) {k j : Nat} (x : Core) (h : j ≠ k) : (s.setCore k x).core j = s.core j :=
  Tab.get_set_other _ _ _ h

@[simp] theorem State.cluster_setCluster_same (s : State) (k : Nat) (x : Cluster) : (s.setCluster k x).cluster k = x := Tab.get_set_same _ _ _ _

theorem State.cluster_setCluster_other (s : State) {k j : Nat} (x : Cluster) (h : j ≠ k) : (s.setCluster k x).cluster j = s.cluster j :=
  Tab.get_set_other _ _ _ h

@[simp] theorem State.quad_setQuad_same (s : State) (k : Nat) (x : Quad) : (s.setQuad k x).quad k = x := Tab.get_set_same _ _ _ _

theorem State.quad_setQuad_other (s : State) {k j : Nat} (x : Quad) (h : j ≠ k) : (s.setQuad k x).quad j = s.quad j :=
  Tab.get_set_other _ _ _ h

@[simp] theorem State.part_setPart_same (s : State) (k : Nat) (x : Partition) : (s.setPart k x).part k = x := Tab.get_set_same _ _ _ _

theorem State.part_setPart_other (s : State) {k j : Nat} (x : Partition) (h : j ≠ k) : (s.setPart k x).part j = s.part j :=
  Tab.get_set_other _ _ _ h

@[simp] theorem State.vi_setVi_same (s : State) (k : Nat) (x : Vi) : (s.setVi k x).vi k = x := Tab.get_set_same _ _ _ _

theorem State.vi_setVi_other (s : State) {k j : Nat} (x : Vi) (h : j ≠ k) : (s.setVi k x).vi j = s.vi j :=
  Tab.get_set_other _ _ _ h

@[simp] theorem State.episode_setEpisode_same (s : State) (k : Nat) (x : Episode) : (s.setEpisode k x).episode k = x := Tab.get_set_same _ _ _ _

theorem State.episode_setEpisode_other (s : State) {k j : Nat} (x : Episode) (h : j ≠ k) : (s.setEpisode k x).episode j = s.episode j :=
  Tab.get_set_other _ _ _ h

@[simp] theorem State.cluster_setCore (s : State) (k : Nat) (c : Core) (j : Nat) : (s.setCore k c).cluster j = s.cluster j := rfl
@[simp] theorem State.quad_setCore (s : State) (k : Nat) (c : Core) (j : Nat) : (s.setCore k c).quad j = s.quad j := rfl
@[simp] theorem State.part_setCore (s : State) (k : Nat) (c : Core) (j : Nat) : (s.setCore k c).part j = s.part j := rfl
@[simp] theorem State.vi_setCore (s : State) (k : Nat) (c : Core) (j : Nat) : (s.setCore k c).vi j = s.vi j := rfl
@[simp] theorem State.episode_setCore (s : State) (k : Nat) (c : Core) (j : Nat) : (s.setCore k c).episode j = s.episode j := rfl
@[simp] theorem State.ctx_setCore (s : State) (k : Nat) (c : Core) (j : Nat) : (s.setCore k c).ctx j = s.ctx j := rfl
@[simp] theorem State.core_setCluster (s : State) (k : Nat) (x : Cluster) (j : Nat) : (s.setCluster k x).core j = s.core j := rfl
@[simp] theorem State.quad_setCluster (s : State) (k : Nat) (x : Cluster) (j : Nat) : (s.setCluster k x).quad j = s.quad j := rfl
@[simp] theorem State.part_setCluster (s : State) (k : Nat) (x : Cluster) (j : Nat) : (s.setCluster k x).part j = s.part j := rfl
@[simp] theorem State.vi_setCluster (s : State) (k : Nat) (x : Cluster) (j : Nat) : (s.setCluster k x).vi j = s.vi j := rfl
@[simp] theorem State.episode_setCluster (s : State) (k : Nat) (x : Cluster) (j : Nat) : (s.setCluster k x).episode j = s.episode j := rfl
@[simp] theorem State.ctx_setCluster (s : State) (k : Nat) (x : Cluster) (j : Nat) : (s.setCluster k x).ctx j = s.ctx j := rfl
@[simp] theorem State.core_setQuad (s : State) (k : Nat) (x : Quad) (j : Nat) : (s.setQuad k x).core j = s.core j := rfl
@[simp] theorem State.cluster_setQuad (s : State) (k : Nat) (x : Quad) (j : Nat) : (s.setQuad k x).cluster j = s.cluster j := rfl
@[simp] theorem State.part_setQuad (s : State) (k : Nat) (x : Quad) (j : Nat) : (s.setQuad k x).part j = s.part j := rfl
@[simp] theorem State.vi_setQuad (s : State) (k : Nat) (x : Quad) (j : Nat) : (s.setQuad k x).vi j = s.vi j := rfl
@[simp] theorem State.episode_setQuad (s : State) (k : Nat) (x : Quad) (j : Nat) : (s.setQuad k x).episode j = s.episode j := rfl
@[simp] theorem State.ctx_setQuad (s : State) (k : Nat) (x : Quad) (j : Nat) : (s.setQuad k x).ctx j = s.ctx j := rfl
@[simp] theorem State.core_setPart (s : State) (k : Nat) (x : Partition) (j : Nat) : (s.setPart k x).core j = s.core j := rfl
@[simp] theorem State.cluster_setPart (s : State) (k : Nat) (x : Partition) (j : Nat) : (s.setPart k x).cluster j = s.cluster j := rfl
@[simp] theorem State.quad_setPart (s : State) (k : Nat) (x : Partition) (j : Nat) : (s.setPart k x).quad j = s.quad j := rfl
@[simp] theorem State.vi_setPart (s : State) (k : Nat) (x : Partition) (j : Nat) : (s.setPart k x).vi j = s.vi j := rfl
@[simp] theorem State.episode_setPart (s : State) (k : Nat) (x : Partition) (j : Nat) : (s.setPart k x).episode j = s.episode j := rfl
@[simp] theorem State.ctx_setPart (s : State) (k : Nat) (x : Partition) (j : Nat) : (s.setPart k x).ctx j = s.ctx j := rfl
@[simp] theorem State.core_setVi (s : State) (k : Nat) (x : Vi) (j : Nat) : (s.setVi k x).core j = s.core j := rfl
@[simp] theorem State.cluster_setVi (s : State) (k : Nat) (x : Vi) (j : Nat) : (s.setVi k x).cluster j = s.cluster j := rfl
@[simp] theorem State.quad_setVi (s : State) (k : Nat) (x : Vi) (j : Nat) : (s.setVi k x).quad j = s.quad j := rfl
@[simp] theorem State.part_setVi (s : State) (k : Nat) (x : Vi) (j : Nat) : (s.setVi k x).part j = s.part j := rfl
@[simp] theorem State.episode_setVi (s : State) (k : Nat) (x : Vi) (j : Nat) : (s.setVi k x).episode j = s.episode j := rfl
@[simp] theorem State.ctx_setVi (s : State) (k : Nat) (x : Vi) (j : Nat) : (s.setVi k x).ctx j = s.ctx j := rfl
@[simp] theorem State.core_setEpisode (s : State) (k : Nat) (x : Episode) (j : Nat) : (s.setEpisode k x).core j = s.core j := rfl
@[simp] theorem State.cluster_setEpisode (s : State) (k : Nat) (x : Episode) (j : Nat) : (s.setEpisode k x).cluster j = s.cluster j := rfl
@[simp] theorem State.quad_setEpisode (s : State) (k : Nat) (x : Episode) (j : Nat) : (s.setEpisode k x).quad j = s.quad j := rfl
@[simp] theorem State.part_setEpisode (s : State) (k : Nat) (x : Episode) (j : Nat) : (s.setEpisode k x).part j = s.part j := rfl
@[simp] theorem State.vi_setEpisode (s : State) (k : Nat) (x : Episode) (j : Nat) : (s.setEpisode k x).vi j = s.vi j := rfl
@[simp] theorem State.ctx_setEpisode (s : State) (k : Nat) (x : Episode) (j : Nat) : (s.setEpisode k x).ctx j = s.ctx j := rfl
@[simp] theorem State.core_send (s : State) (p : Packet) (j : Nat) : (s.send p).core j = s.core j := rfl
@[simp] theorem State.cluster_send (s : State) (p : Packet) (j : Nat) : (s.send p).cluster j = s.cluster j := rfl
@[simp] theorem State.quad_send (s : State) (p : Packet) (j : Nat) : (s.send p).quad j = s.quad j := rfl
@[simp] theorem State.part_send (s : State) (p : Packet) (j : Nat) : (s.send p).part j = s.part j := rfl
@[simp] theorem State.vi_send (s : State) (p : Packet) (j : Nat) : (s.send p).vi j = s.vi j := rfl
@[simp] theorem State.episode_send (s : State) (p : Packet) (j : Nat) : (s.send p).episode j = s.episode j := rfl
@[simp] theorem State.ctx_send (s : State) (p : Packet) (j : Nat) : (s.send p).ctx j = s.ctx j := rfl
@[simp] theorem State.core_setPacket (s : State) (p : Packet) (j : Nat) : (s.setPacket p).core j = s.core j := rfl
@[simp] theorem State.cluster_setPacket (s : State) (p : Packet) (j : Nat) : (s.setPacket p).cluster j = s.cluster j := rfl
@[simp] theorem State.quad_setPacket (s : State) (p : Packet) (j : Nat) : (s.setPacket p).quad j = s.quad j := rfl
@[simp] theorem State.part_setPacket (s : State) (p : Packet) (j : Nat) : (s.setPacket p).part j = s.part j := rfl
@[simp] theorem State.vi_setPacket (s : State) (p : Packet) (j : Nat) : (s.setPacket p).vi j = s.vi j := rfl
@[simp] theorem State.episode_setPacket (s : State) (p : Packet) (j : Nat) : (s.setPacket p).episode j = s.episode j := rfl
@[simp] theorem State.ctx_setPacket (s : State) (p : Packet) (j : Nat) : (s.setPacket p).ctx j = s.ctx j := rfl
@[simp] theorem State.core_dropPacket (s : State) (k : Nat) (j : Nat) : (s.dropPacket k).core j = s.core j := rfl
@[simp] theorem State.cluster_dropPacket (s : State) (k : Nat) (j : Nat) : (s.dropPacket k).cluster j = s.cluster j := rfl
@[simp] theorem State.quad_dropPacket (s : State) (k : Nat) (j : Nat) : (s.dropPacket k).quad j = s.quad j := rfl
@[simp] theorem State.part_dropPacket (s : State) (k : Nat) (j : Nat) : (s.dropPacket k).part j = s.part j := rfl
@[simp] theorem State.vi_dropPacket (s : State) (k : Nat) (j : Nat) : (s.dropPacket k).vi j = s.vi j := rfl
@[simp] theorem State.episode_dropPacket (s : State) (k : Nat) (j : Nat) : (s.dropPacket k).episode j = s.episode j := rfl
@[simp] theorem State.ctx_dropPacket (s : State) (k : Nat) (j : Nat) : (s.dropPacket k).ctx j = s.ctx j := rfl
@[simp] theorem State.core_reply (s : State) (p : Packet) (n : Net) (b : Body) (j : Nat) : (s.reply p n b).core j = s.core j := rfl
@[simp] theorem State.cluster_reply (s : State) (p : Packet) (n : Net) (b : Body) (j : Nat) : (s.reply p n b).cluster j = s.cluster j := rfl
@[simp] theorem State.quad_reply (s : State) (p : Packet) (n : Net) (b : Body) (j : Nat) : (s.reply p n b).quad j = s.quad j := rfl
@[simp] theorem State.part_reply (s : State) (p : Packet) (n : Net) (b : Body) (j : Nat) : (s.reply p n b).part j = s.part j := rfl
@[simp] theorem State.vi_reply (s : State) (p : Packet) (n : Net) (b : Body) (j : Nat) : (s.reply p n b).vi j = s.vi j := rfl
@[simp] theorem State.episode_reply (s : State) (p : Packet) (n : Net) (b : Body) (j : Nat) : (s.reply p n b).episode j = s.episode j := rfl
@[simp] theorem State.ctx_reply (s : State) (p : Packet) (n : Net) (b : Body) (j : Nat) : (s.reply p n b).ctx j = s.ctx j := rfl
@[simp] theorem State.core_refuse (s : State) (p : Packet) (j : Nat) : (s.refuse p).core j = s.core j := rfl
@[simp] theorem State.cluster_refuse (s : State) (p : Packet) (j : Nat) : (s.refuse p).cluster j = s.cluster j := rfl
@[simp] theorem State.quad_refuse (s : State) (p : Packet) (j : Nat) : (s.refuse p).quad j = s.quad j := rfl
@[simp] theorem State.part_refuse (s : State) (p : Packet) (j : Nat) : (s.refuse p).part j = s.part j := rfl
@[simp] theorem State.vi_refuse (s : State) (p : Packet) (j : Nat) : (s.refuse p).vi j = s.vi j := rfl
@[simp] theorem State.episode_refuse (s : State) (p : Packet) (j : Nat) : (s.refuse p).episode j = s.episode j := rfl
@[simp] theorem State.ctx_refuse (s : State) (p : Packet) (j : Nat) : (s.refuse p).ctx j = s.ctx j := rfl

/-! ### The thread of an actor -/

theorem State.setThrOf_slot (s : State) (k i : Nat) (t : Thread) :
    s.setThrOf (.slot k i) t = s.setCore k { s.core k with slots := Tab.set (s.core k).slots i t } := rfl

theorem State.setThrOf_episode (s : State) (x : Nat) (t : Thread) :
    s.setThrOf (.episode x) t = s.setEpisode x { s.episode x with thr := t } := rfl

@[simp] theorem State.thrOf_setThrOf_same (s : State) (a : Actor) (t : Thread) : (s.setThrOf a t).thrOf a = t := by
  cases a <;> simp [State.setThrOf, State.thrOf]

theorem State.thrOf_setThrOf_other (s : State) {a b : Actor} (t : Thread) (h : b ≠ a) :
    (s.setThrOf a t).thrOf b = s.thrOf b := by
  cases a with
  | slot k i =>
    cases b with
    | slot k' i' =>
      by_cases hk : k' = k
      · subst hk
        have hi : i' ≠ i := fun e => h (by rw [e])
        simp [State.setThrOf, State.thrOf, Tab.get_set_other _ _ _ hi]
      · simp [State.setThrOf, State.thrOf, State.core_setCore_other _ _ hk]
    | episode x => rfl
  | episode x =>
    cases b with
    | slot k i => rfl
    | episode x' =>
      have hx : x' ≠ x := fun e => h (by rw [e])
      simp [State.setThrOf, State.thrOf, State.episode_setEpisode_other _ _ hx]

@[simp] theorem State.now_setThrOf (s : State) (a : Actor) (t : Thread) : (s.setThrOf a t).now = s.now := by cases a <;> rfl
@[simp] theorem State.stopped_setThrOf (s : State) (a : Actor) (t : Thread) : (s.setThrOf a t).stopped = s.stopped := by cases a <;> rfl
@[simp] theorem State.pkg_setThrOf (s : State) (a : Actor) (t : Thread) : (s.setThrOf a t).pkg = s.pkg := by cases a <;> rfl
@[simp] theorem State.cur_setThrOf (s : State) (a : Actor) (t : Thread) : (s.setThrOf a t).cur = s.cur := by cases a <;> rfl
@[simp] theorem State.rot_setThrOf (s : State) (a : Actor) (t : Thread) : (s.setThrOf a t).rot = s.rot := by cases a <;> rfl
@[simp] theorem State.agenda_setThrOf (s : State) (a : Actor) (t : Thread) : (s.setThrOf a t).agenda = s.agenda := by cases a <;> rfl
@[simp] theorem State.fresh_setThrOf (s : State) (a : Actor) (t : Thread) : (s.setThrOf a t).fresh = s.fresh := by cases a <;> rfl
@[simp] theorem State.nextId_setThrOf (s : State) (a : Actor) (t : Thread) : (s.setThrOf a t).nextId = s.nextId := by cases a <;> rfl
@[simp] theorem State.quads_setThrOf (s : State) (a : Actor) (t : Thread) : (s.setThrOf a t).quads = s.quads := by cases a <;> rfl
@[simp] theorem State.clusters_setThrOf (s : State) (a : Actor) (t : Thread) : (s.setThrOf a t).clusters = s.clusters := by cases a <;> rfl
@[simp] theorem State.piers_setThrOf (s : State) (a : Actor) (t : Thread) : (s.setThrOf a t).piers = s.piers := by cases a <;> rfl
@[simp] theorem State.homeReg_setThrOf (s : State) (a : Actor) (t : Thread) : (s.setThrOf a t).homeReg = s.homeReg := by cases a <;> rfl
@[simp] theorem State.mem_setThrOf (s : State) (a : Actor) (t : Thread) : (s.setThrOf a t).mem = s.mem := by cases a <;> rfl
@[simp] theorem State.vaults_setThrOf (s : State) (a : Actor) (t : Thread) : (s.setThrOf a t).vaults = s.vaults := by cases a <;> rfl
@[simp] theorem State.poison_setThrOf (s : State) (a : Actor) (t : Thread) : (s.setThrOf a t).poison = s.poison := by cases a <;> rfl
@[simp] theorem State.packets_setThrOf (s : State) (a : Actor) (t : Thread) : (s.setThrOf a t).packets = s.packets := by cases a <;> rfl
@[simp] theorem State.switches_setThrOf (s : State) (a : Actor) (t : Thread) : (s.setThrOf a t).switches = s.switches := by cases a <;> rfl
@[simp] theorem State.locks_setThrOf (s : State) (a : Actor) (t : Thread) : (s.setThrOf a t).locks = s.locks := by cases a <;> rfl
@[simp] theorem State.qwaits_setThrOf (s : State) (a : Actor) (t : Thread) : (s.setThrOf a t).qwaits = s.qwaits := by cases a <;> rfl
@[simp] theorem State.parts_setThrOf (s : State) (a : Actor) (t : Thread) : (s.setThrOf a t).parts = s.parts := by cases a <;> rfl
@[simp] theorem State.ctxs_setThrOf (s : State) (a : Actor) (t : Thread) : (s.setThrOf a t).ctxs = s.ctxs := by cases a <;> rfl
@[simp] theorem State.vis_setThrOf (s : State) (a : Actor) (t : Thread) : (s.setThrOf a t).vis = s.vis := by cases a <;> rfl
@[simp] theorem State.objs_setThrOf (s : State) (a : Actor) (t : Thread) : (s.setThrOf a t).objs = s.objs := by cases a <;> rfl
@[simp] theorem State.groups_setThrOf (s : State) (a : Actor) (t : Thread) : (s.setThrOf a t).groups = s.groups := by cases a <;> rfl
@[simp] theorem State.members_setThrOf (s : State) (a : Actor) (t : Thread) : (s.setThrOf a t).members = s.members := by cases a <;> rfl
@[simp] theorem State.contribs_setThrOf (s : State) (a : Actor) (t : Thread) : (s.setThrOf a t).contribs = s.contribs := by cases a <;> rfl
@[simp] theorem State.limits_setThrOf (s : State) (a : Actor) (t : Thread) : (s.setThrOf a t).limits = s.limits := by cases a <;> rfl
@[simp] theorem State.measures_setThrOf (s : State) (a : Actor) (t : Thread) : (s.setThrOf a t).measures = s.measures := by cases a <;> rfl
@[simp] theorem State.flawed_setThrOf (s : State) (a : Actor) (t : Thread) : (s.setThrOf a t).flawed = s.flawed := by cases a <;> rfl
@[simp] theorem State.irhamPort_setThrOf (s : State) (a : Actor) (t : Thread) : (s.setThrOf a t).irhamPort = s.irhamPort := by cases a <;> rfl
@[simp] theorem State.now_setThr (s : State) (t : Thread) : (s.setThr t).now = s.now := State.now_setThrOf s s.cur t
@[simp] theorem State.stopped_setThr (s : State) (t : Thread) : (s.setThr t).stopped = s.stopped := State.stopped_setThrOf s s.cur t
@[simp] theorem State.pkg_setThr (s : State) (t : Thread) : (s.setThr t).pkg = s.pkg := State.pkg_setThrOf s s.cur t
@[simp] theorem State.cur_setThr (s : State) (t : Thread) : (s.setThr t).cur = s.cur := State.cur_setThrOf s s.cur t
@[simp] theorem State.rot_setThr (s : State) (t : Thread) : (s.setThr t).rot = s.rot := State.rot_setThrOf s s.cur t
@[simp] theorem State.agenda_setThr (s : State) (t : Thread) : (s.setThr t).agenda = s.agenda := State.agenda_setThrOf s s.cur t
@[simp] theorem State.fresh_setThr (s : State) (t : Thread) : (s.setThr t).fresh = s.fresh := State.fresh_setThrOf s s.cur t
@[simp] theorem State.nextId_setThr (s : State) (t : Thread) : (s.setThr t).nextId = s.nextId := State.nextId_setThrOf s s.cur t
@[simp] theorem State.quads_setThr (s : State) (t : Thread) : (s.setThr t).quads = s.quads := State.quads_setThrOf s s.cur t
@[simp] theorem State.clusters_setThr (s : State) (t : Thread) : (s.setThr t).clusters = s.clusters := State.clusters_setThrOf s s.cur t
@[simp] theorem State.piers_setThr (s : State) (t : Thread) : (s.setThr t).piers = s.piers := State.piers_setThrOf s s.cur t
@[simp] theorem State.homeReg_setThr (s : State) (t : Thread) : (s.setThr t).homeReg = s.homeReg := State.homeReg_setThrOf s s.cur t
@[simp] theorem State.mem_setThr (s : State) (t : Thread) : (s.setThr t).mem = s.mem := State.mem_setThrOf s s.cur t
@[simp] theorem State.vaults_setThr (s : State) (t : Thread) : (s.setThr t).vaults = s.vaults := State.vaults_setThrOf s s.cur t
@[simp] theorem State.poison_setThr (s : State) (t : Thread) : (s.setThr t).poison = s.poison := State.poison_setThrOf s s.cur t
@[simp] theorem State.packets_setThr (s : State) (t : Thread) : (s.setThr t).packets = s.packets := State.packets_setThrOf s s.cur t
@[simp] theorem State.switches_setThr (s : State) (t : Thread) : (s.setThr t).switches = s.switches := State.switches_setThrOf s s.cur t
@[simp] theorem State.locks_setThr (s : State) (t : Thread) : (s.setThr t).locks = s.locks := State.locks_setThrOf s s.cur t
@[simp] theorem State.qwaits_setThr (s : State) (t : Thread) : (s.setThr t).qwaits = s.qwaits := State.qwaits_setThrOf s s.cur t
@[simp] theorem State.parts_setThr (s : State) (t : Thread) : (s.setThr t).parts = s.parts := State.parts_setThrOf s s.cur t
@[simp] theorem State.ctxs_setThr (s : State) (t : Thread) : (s.setThr t).ctxs = s.ctxs := State.ctxs_setThrOf s s.cur t
@[simp] theorem State.vis_setThr (s : State) (t : Thread) : (s.setThr t).vis = s.vis := State.vis_setThrOf s s.cur t
@[simp] theorem State.objs_setThr (s : State) (t : Thread) : (s.setThr t).objs = s.objs := State.objs_setThrOf s s.cur t
@[simp] theorem State.groups_setThr (s : State) (t : Thread) : (s.setThr t).groups = s.groups := State.groups_setThrOf s s.cur t
@[simp] theorem State.members_setThr (s : State) (t : Thread) : (s.setThr t).members = s.members := State.members_setThrOf s s.cur t
@[simp] theorem State.contribs_setThr (s : State) (t : Thread) : (s.setThr t).contribs = s.contribs := State.contribs_setThrOf s s.cur t
@[simp] theorem State.limits_setThr (s : State) (t : Thread) : (s.setThr t).limits = s.limits := State.limits_setThrOf s s.cur t
@[simp] theorem State.measures_setThr (s : State) (t : Thread) : (s.setThr t).measures = s.measures := State.measures_setThrOf s s.cur t
@[simp] theorem State.flawed_setThr (s : State) (t : Thread) : (s.setThr t).flawed = s.flawed := State.flawed_setThrOf s s.cur t
@[simp] theorem State.irhamPort_setThr (s : State) (t : Thread) : (s.setThr t).irhamPort = s.irhamPort := State.irhamPort_setThrOf s s.cur t
@[simp] theorem State.cluster_setThrOf (s : State) (a : Actor) (t : Thread) (j : Nat) : (s.setThrOf a t).cluster j = s.cluster j := by cases a <;> rfl
@[simp] theorem State.quad_setThrOf (s : State) (a : Actor) (t : Thread) (j : Nat) : (s.setThrOf a t).quad j = s.quad j := by cases a <;> rfl
@[simp] theorem State.part_setThrOf (s : State) (a : Actor) (t : Thread) (j : Nat) : (s.setThrOf a t).part j = s.part j := by cases a <;> rfl
@[simp] theorem State.vi_setThrOf (s : State) (a : Actor) (t : Thread) (j : Nat) : (s.setThrOf a t).vi j = s.vi j := by cases a <;> rfl
@[simp] theorem State.ctx_setThrOf (s : State) (a : Actor) (t : Thread) (j : Nat) : (s.setThrOf a t).ctx j = s.ctx j := by cases a <;> rfl

@[simp] theorem State.thr_setThr (s : State) (t : Thread) : (s.setThr t).thr = t := by
  simp [State.thr, State.setThr]

@[simp] theorem State.thrOf_setThr_same (s : State) (t : Thread) : (s.setThr t).thrOf s.cur = t := by
  simp [State.setThr]

/-- Of a core, the replacement of a thread touches its slots alone. -/
theorem State.core_setThrOf (s : State) (a : Actor) (t : Thread) (k : Nat) :
    ∃ l, (s.setThrOf a t).core k = { s.core k with slots := l } := by
  cases a with
  | slot k' i =>
    by_cases h : k = k'
    · subst h; exact ⟨Tab.set (s.core k).slots i t, by simp [State.setThrOf]⟩
    · exact ⟨(s.core k).slots, by simp [State.setThrOf, State.core_setCore_other _ _ h]⟩
  | episode x => exact ⟨(s.core k).slots, rfl⟩

@[simp] theorem State.queue_setThrOf (s : State) (a : Actor) (t : Thread) (k i : Nat) :
    ((s.setThrOf a t).core k).queue i = (s.core k).queue i := by
  obtain ⟨l, h⟩ := s.core_setThrOf a t k
  rw [h]; rfl

/-! ### Thread.note -/

@[simp] theorem Thread.uid_note (t : Thread) (u : Undo) : (t.note u).uid = t.uid := by unfold Thread.note; split <;> rfl
@[simp] theorem Thread.ctx_note (t : Thread) (u : Undo) : (t.note u).ctx = t.ctx := by unfold Thread.note; split <;> rfl
@[simp] theorem Thread.crew_note (t : Thread) (u : Undo) : (t.note u).crew = t.crew := by unfold Thread.note; split <;> rfl
@[simp] theorem Thread.ord_note (t : Thread) (u : Undo) : (t.note u).ord = t.ord := by unfold Thread.note; split <;> rfl
@[simp] theorem Thread.lid_note (t : Thread) (u : Undo) : (t.note u).lid = t.lid := by unfold Thread.note; split <;> rfl
@[simp] theorem Thread.tidx_note (t : Thread) (u : Undo) : (t.note u).tidx = t.tidx := by unfold Thread.note; split <;> rfl
@[simp] theorem Thread.lead_note (t : Thread) (u : Undo) : (t.note u).lead = t.lead := by unfold Thread.note; split <;> rfl
@[simp] theorem Thread.xfer_note (t : Thread) (u : Undo) : (t.note u).xfer = t.xfer := by unfold Thread.note; split <;> rfl
@[simp] theorem Thread.pc_note (t : Thread) (u : Undo) : (t.note u).pc = t.pc := by unfold Thread.note; split <;> rfl
@[simp] theorem Thread.loops_note (t : Thread) (u : Undo) : (t.note u).loops = t.loops := by unfold Thread.note; split <;> rfl
@[simp] theorem Thread.g_note (t : Thread) (u : Undo) : (t.note u).g = t.g := by unfold Thread.note; split <;> rfl
@[simp] theorem Thread.empty_note (t : Thread) (u : Undo) : (t.note u).empty = t.empty := by unfold Thread.note; split <;> rfl
@[simp] theorem Thread.pending_note (t : Thread) (u : Undo) : (t.note u).pending = t.pending := by unfold Thread.note; split <;> rfl
@[simp] theorem Thread.csr_note (t : Thread) (u : Undo) : (t.note u).csr = t.csr := by unfold Thread.note; split <;> rfl
@[simp] theorem Thread.run_note (t : Thread) (u : Undo) : (t.note u).run = t.run := by unfold Thread.note; split <;> rfl
@[simp] theorem Thread.parked_note (t : Thread) (u : Undo) : (t.note u).parked = t.parked := by unfold Thread.note; split <;> rfl
@[simp] theorem Thread.withdrawable_note (t : Thread) (u : Undo) : (t.note u).withdrawable = t.withdrawable := by unfold Thread.note; split <;> rfl
@[simp] theorem Thread.held_note (t : Thread) (u : Undo) : (t.note u).held = t.held := by unfold Thread.note; split <;> rfl
@[simp] theorem Thread.arriving_note (t : Thread) (u : Undo) : (t.note u).arriving = t.arriving := by unfold Thread.note; split <;> rfl
@[simp] theorem Thread.startCheck_note (t : Thread) (u : Undo) : (t.note u).startCheck = t.startCheck := by unfold Thread.note; split <;> rfl
@[simp] theorem Thread.stage_note (t : Thread) (u : Undo) : (t.note u).stage = t.stage := by unfold Thread.note; split <;> rfl
@[simp] theorem Thread.vals_note (t : Thread) (u : Undo) : (t.note u).vals = t.vals := by unfold Thread.note; split <;> rfl
@[simp] theorem Thread.arg_note (t : Thread) (u : Undo) : (t.note u).arg = t.arg := by unfold Thread.note; split <;> rfl
@[simp] theorem Thread.popped_note (t : Thread) (u : Undo) : (t.note u).popped = t.popped := by unfold Thread.note; split <;> rfl
@[simp] theorem Thread.async_note (t : Thread) (u : Undo) : (t.note u).async = t.async := by unfold Thread.note; split <;> rfl
@[simp] theorem Thread.timerDue_note (t : Thread) (u : Undo) : (t.note u).timerDue = t.timerDue := by unfold Thread.note; split <;> rfl
@[simp] theorem Thread.faultSeq_note (t : Thread) (u : Undo) : (t.note u).faultSeq = t.faultSeq := by unfold Thread.note; split <;> rfl
@[simp] theorem Thread.walking_note (t : Thread) (u : Undo) : (t.note u).walking = t.walking := by unfold Thread.note; split <;> rfl
@[simp] theorem Thread.saveAt_note (t : Thread) (u : Undo) : (t.note u).saveAt = t.saveAt := by unfold Thread.note; split <;> rfl
@[simp] theorem Thread.saveTo_note (t : Thread) (u : Undo) : (t.note u).saveTo = t.saveTo := by unfold Thread.note; split <;> rfl
@[simp] theorem Thread.landing_note (t : Thread) (u : Undo) : (t.note u).landing = t.landing := by unfold Thread.note; split <;> rfl
@[simp] theorem Thread.forced_note (t : Thread) (u : Undo) : (t.note u).forced = t.forced := by unfold Thread.note; split <;> rfl
@[simp] theorem Thread.haltSaved_note (t : Thread) (u : Undo) : (t.note u).haltSaved = t.haltSaved := by unfold Thread.note; split <;> rfl
@[simp] theorem Thread.frc_note (t : Thread) (u : Undo) : (t.note u).frc = t.frc := by unfold Thread.note; split <;> rfl
@[simp] theorem Thread.lanes_note (t : Thread) (u : Undo) : (t.note u).lanes = t.lanes := by unfold Thread.note; split <;> rfl
@[simp] theorem Thread.laneReq_note (t : Thread) (u : Undo) : (t.note u).laneReq = t.laneReq := by unfold Thread.note; split <;> rfl
@[simp] theorem Thread.vec_note (t : Thread) (u : Undo) : (t.note u).vec = t.vec := by unfold Thread.note; split <;> rfl
@[simp] theorem Thread.vseq_note (t : Thread) (u : Undo) : (t.note u).vseq = t.vseq := by unfold Thread.note; split <;> rfl
@[simp] theorem Thread.vq_note (t : Thread) (u : Undo) : (t.note u).vq = t.vq := by unfold Thread.note; split <;> rfl
@[simp] theorem Thread.pipes_note (t : Thread) (u : Undo) : (t.note u).pipes = t.pipes := by unfold Thread.note; split <;> rfl
@[simp] theorem Thread.convoyOpen_note (t : Thread) (u : Undo) : (t.note u).convoyOpen = t.convoyOpen := by unfold Thread.note; split <;> rfl
@[simp] theorem Thread.restored_note (t : Thread) (u : Undo) : (t.note u).restored = t.restored := by unfold Thread.note; split <;> rfl
@[simp] theorem Thread.accQuota_note (t : Thread) (u : Undo) : (t.note u).accQuota = t.accQuota := by unfold Thread.note; split <;> rfl
@[simp] theorem Thread.acc_note (t : Thread) (u : Undo) : (t.note u).acc = t.acc := by unfold Thread.note; split <;> rfl
@[simp] theorem Thread.taskSeq_note (t : Thread) (u : Undo) : (t.note u).taskSeq = t.taskSeq := by unfold Thread.note; split <;> rfl
@[simp] theorem Thread.barWait_note (t : Thread) (u : Undo) : (t.note u).barWait = t.barWait := by unfold Thread.note; split <;> rfl
@[simp] theorem Thread.drained_note (t : Thread) (u : Undo) : (t.note u).drained = t.drained := by unfold Thread.note; split <;> rfl
@[simp] theorem Thread.recSeq_note (t : Thread) (u : Undo) : (t.note u).recSeq = t.recSeq := by unfold Thread.note; split <;> rfl
@[simp] theorem Thread.late_note (t : Thread) (u : Undo) : (t.note u).late = t.late := by unfold Thread.note; split <;> rfl
@[simp] theorem Thread.latePend_note (t : Thread) (u : Undo) : (t.note u).latePend = t.latePend := by unfold Thread.note; split <;> rfl
@[simp] theorem Thread.lateAt_note (t : Thread) (u : Undo) : (t.note u).lateAt = t.lateAt := by unfold Thread.note; split <;> rfl
@[simp] theorem Thread.reserved_note (t : Thread) (u : Undo) : (t.note u).reserved = t.reserved := by unfold Thread.note; split <;> rfl
@[simp] theorem Thread.walkVa_note (t : Thread) (u : Undo) : (t.note u).walkVa = t.walkVa := by unfold Thread.note; split <;> rfl
@[simp] theorem Thread.walkAcc_note (t : Thread) (u : Undo) : (t.note u).walkAcc = t.walkAcc := by unfold Thread.note; split <;> rfl
@[simp] theorem Thread.noCode_note (t : Thread) (u : Undo) : (t.note u).noCode = t.noCode := by unfold Thread.note; split <;> rfl
@[simp] theorem Thread.convoy_note (t : Thread) (u : Undo) : (t.note u).convoy = t.convoy := by unfold Thread.note; split <;> rfl
@[simp] theorem Thread.sending_note (t : Thread) (u : Undo) : (t.note u).sending = t.sending := by unfold Thread.note; split <;> rfl

/-! ### Thread.putG -/

@[simp] theorem Thread.uid_putG (t : Thread) (r : Reg) (v : Word) : (t.putG r v).uid = t.uid := by unfold Thread.putG; split <;> rfl
@[simp] theorem Thread.ctx_putG (t : Thread) (r : Reg) (v : Word) : (t.putG r v).ctx = t.ctx := by unfold Thread.putG; split <;> rfl
@[simp] theorem Thread.crew_putG (t : Thread) (r : Reg) (v : Word) : (t.putG r v).crew = t.crew := by unfold Thread.putG; split <;> rfl
@[simp] theorem Thread.ord_putG (t : Thread) (r : Reg) (v : Word) : (t.putG r v).ord = t.ord := by unfold Thread.putG; split <;> rfl
@[simp] theorem Thread.lid_putG (t : Thread) (r : Reg) (v : Word) : (t.putG r v).lid = t.lid := by unfold Thread.putG; split <;> rfl
@[simp] theorem Thread.tidx_putG (t : Thread) (r : Reg) (v : Word) : (t.putG r v).tidx = t.tidx := by unfold Thread.putG; split <;> rfl
@[simp] theorem Thread.lead_putG (t : Thread) (r : Reg) (v : Word) : (t.putG r v).lead = t.lead := by unfold Thread.putG; split <;> rfl
@[simp] theorem Thread.xfer_putG (t : Thread) (r : Reg) (v : Word) : (t.putG r v).xfer = t.xfer := by unfold Thread.putG; split <;> rfl
@[simp] theorem Thread.pc_putG (t : Thread) (r : Reg) (v : Word) : (t.putG r v).pc = t.pc := by unfold Thread.putG; split <;> rfl
@[simp] theorem Thread.loops_putG (t : Thread) (r : Reg) (v : Word) : (t.putG r v).loops = t.loops := by unfold Thread.putG; split <;> rfl
@[simp] theorem Thread.csr_putG (t : Thread) (r : Reg) (v : Word) : (t.putG r v).csr = t.csr := by unfold Thread.putG; split <;> rfl
@[simp] theorem Thread.run_putG (t : Thread) (r : Reg) (v : Word) : (t.putG r v).run = t.run := by unfold Thread.putG; split <;> rfl
@[simp] theorem Thread.parked_putG (t : Thread) (r : Reg) (v : Word) : (t.putG r v).parked = t.parked := by unfold Thread.putG; split <;> rfl
@[simp] theorem Thread.withdrawable_putG (t : Thread) (r : Reg) (v : Word) : (t.putG r v).withdrawable = t.withdrawable := by unfold Thread.putG; split <;> rfl
@[simp] theorem Thread.held_putG (t : Thread) (r : Reg) (v : Word) : (t.putG r v).held = t.held := by unfold Thread.putG; split <;> rfl
@[simp] theorem Thread.arriving_putG (t : Thread) (r : Reg) (v : Word) : (t.putG r v).arriving = t.arriving := by unfold Thread.putG; split <;> rfl
@[simp] theorem Thread.startCheck_putG (t : Thread) (r : Reg) (v : Word) : (t.putG r v).startCheck = t.startCheck := by unfold Thread.putG; split <;> rfl
@[simp] theorem Thread.stage_putG (t : Thread) (r : Reg) (v : Word) : (t.putG r v).stage = t.stage := by unfold Thread.putG; split <;> rfl
@[simp] theorem Thread.vals_putG (t : Thread) (r : Reg) (v : Word) : (t.putG r v).vals = t.vals := by unfold Thread.putG; split <;> rfl
@[simp] theorem Thread.arg_putG (t : Thread) (r : Reg) (v : Word) : (t.putG r v).arg = t.arg := by unfold Thread.putG; split <;> rfl
@[simp] theorem Thread.popped_putG (t : Thread) (r : Reg) (v : Word) : (t.putG r v).popped = t.popped := by unfold Thread.putG; split <;> rfl
@[simp] theorem Thread.async_putG (t : Thread) (r : Reg) (v : Word) : (t.putG r v).async = t.async := by unfold Thread.putG; split <;> rfl
@[simp] theorem Thread.timerDue_putG (t : Thread) (r : Reg) (v : Word) : (t.putG r v).timerDue = t.timerDue := by unfold Thread.putG; split <;> rfl
@[simp] theorem Thread.faultSeq_putG (t : Thread) (r : Reg) (v : Word) : (t.putG r v).faultSeq = t.faultSeq := by unfold Thread.putG; split <;> rfl
@[simp] theorem Thread.walking_putG (t : Thread) (r : Reg) (v : Word) : (t.putG r v).walking = t.walking := by unfold Thread.putG; split <;> rfl
@[simp] theorem Thread.saveAt_putG (t : Thread) (r : Reg) (v : Word) : (t.putG r v).saveAt = t.saveAt := by unfold Thread.putG; split <;> rfl
@[simp] theorem Thread.saveTo_putG (t : Thread) (r : Reg) (v : Word) : (t.putG r v).saveTo = t.saveTo := by unfold Thread.putG; split <;> rfl
@[simp] theorem Thread.landing_putG (t : Thread) (r : Reg) (v : Word) : (t.putG r v).landing = t.landing := by unfold Thread.putG; split <;> rfl
@[simp] theorem Thread.forced_putG (t : Thread) (r : Reg) (v : Word) : (t.putG r v).forced = t.forced := by unfold Thread.putG; split <;> rfl
@[simp] theorem Thread.haltSaved_putG (t : Thread) (r : Reg) (v : Word) : (t.putG r v).haltSaved = t.haltSaved := by unfold Thread.putG; split <;> rfl
@[simp] theorem Thread.frc_putG (t : Thread) (r : Reg) (v : Word) : (t.putG r v).frc = t.frc := by unfold Thread.putG; split <;> rfl
@[simp] theorem Thread.lanes_putG (t : Thread) (r : Reg) (v : Word) : (t.putG r v).lanes = t.lanes := by unfold Thread.putG; split <;> rfl
@[simp] theorem Thread.laneReq_putG (t : Thread) (r : Reg) (v : Word) : (t.putG r v).laneReq = t.laneReq := by unfold Thread.putG; split <;> rfl
@[simp] theorem Thread.vec_putG (t : Thread) (r : Reg) (v : Word) : (t.putG r v).vec = t.vec := by unfold Thread.putG; split <;> rfl
@[simp] theorem Thread.vseq_putG (t : Thread) (r : Reg) (v : Word) : (t.putG r v).vseq = t.vseq := by unfold Thread.putG; split <;> rfl
@[simp] theorem Thread.vq_putG (t : Thread) (r : Reg) (v : Word) : (t.putG r v).vq = t.vq := by unfold Thread.putG; split <;> rfl
@[simp] theorem Thread.log_putG (t : Thread) (r : Reg) (v : Word) : (t.putG r v).log = t.log := by unfold Thread.putG; split <;> rfl
@[simp] theorem Thread.pipes_putG (t : Thread) (r : Reg) (v : Word) : (t.putG r v).pipes = t.pipes := by unfold Thread.putG; split <;> rfl
@[simp] theorem Thread.convoyOpen_putG (t : Thread) (r : Reg) (v : Word) : (t.putG r v).convoyOpen = t.convoyOpen := by unfold Thread.putG; split <;> rfl
@[simp] theorem Thread.restored_putG (t : Thread) (r : Reg) (v : Word) : (t.putG r v).restored = t.restored := by unfold Thread.putG; split <;> rfl
@[simp] theorem Thread.accQuota_putG (t : Thread) (r : Reg) (v : Word) : (t.putG r v).accQuota = t.accQuota := by unfold Thread.putG; split <;> rfl
@[simp] theorem Thread.acc_putG (t : Thread) (r : Reg) (v : Word) : (t.putG r v).acc = t.acc := by unfold Thread.putG; split <;> rfl
@[simp] theorem Thread.taskSeq_putG (t : Thread) (r : Reg) (v : Word) : (t.putG r v).taskSeq = t.taskSeq := by unfold Thread.putG; split <;> rfl
@[simp] theorem Thread.barWait_putG (t : Thread) (r : Reg) (v : Word) : (t.putG r v).barWait = t.barWait := by unfold Thread.putG; split <;> rfl
@[simp] theorem Thread.drained_putG (t : Thread) (r : Reg) (v : Word) : (t.putG r v).drained = t.drained := by unfold Thread.putG; split <;> rfl
@[simp] theorem Thread.recSeq_putG (t : Thread) (r : Reg) (v : Word) : (t.putG r v).recSeq = t.recSeq := by unfold Thread.putG; split <;> rfl
@[simp] theorem Thread.late_putG (t : Thread) (r : Reg) (v : Word) : (t.putG r v).late = t.late := by unfold Thread.putG; split <;> rfl
@[simp] theorem Thread.latePend_putG (t : Thread) (r : Reg) (v : Word) : (t.putG r v).latePend = t.latePend := by unfold Thread.putG; split <;> rfl
@[simp] theorem Thread.lateAt_putG (t : Thread) (r : Reg) (v : Word) : (t.putG r v).lateAt = t.lateAt := by unfold Thread.putG; split <;> rfl
@[simp] theorem Thread.reserved_putG (t : Thread) (r : Reg) (v : Word) : (t.putG r v).reserved = t.reserved := by unfold Thread.putG; split <;> rfl
@[simp] theorem Thread.walkVa_putG (t : Thread) (r : Reg) (v : Word) : (t.putG r v).walkVa = t.walkVa := by unfold Thread.putG; split <;> rfl
@[simp] theorem Thread.walkAcc_putG (t : Thread) (r : Reg) (v : Word) : (t.putG r v).walkAcc = t.walkAcc := by unfold Thread.putG; split <;> rfl
@[simp] theorem Thread.noCode_putG (t : Thread) (r : Reg) (v : Word) : (t.putG r v).noCode = t.noCode := by unfold Thread.putG; split <;> rfl
@[simp] theorem Thread.convoy_putG (t : Thread) (r : Reg) (v : Word) : (t.putG r v).convoy = t.convoy := by unfold Thread.putG; split <;> rfl
@[simp] theorem Thread.sending_putG (t : Thread) (r : Reg) (v : Word) : (t.putG r v).sending = t.sending := by unfold Thread.putG; split <;> rfl

/-! ### Thread.setG -/

@[simp] theorem Thread.uid_setG (t : Thread) (r : Reg) (v : Word) : (t.setG r v).uid = t.uid := by unfold Thread.setG; split <;> simp
@[simp] theorem Thread.ctx_setG (t : Thread) (r : Reg) (v : Word) : (t.setG r v).ctx = t.ctx := by unfold Thread.setG; split <;> simp
@[simp] theorem Thread.crew_setG (t : Thread) (r : Reg) (v : Word) : (t.setG r v).crew = t.crew := by unfold Thread.setG; split <;> simp
@[simp] theorem Thread.ord_setG (t : Thread) (r : Reg) (v : Word) : (t.setG r v).ord = t.ord := by unfold Thread.setG; split <;> simp
@[simp] theorem Thread.lid_setG (t : Thread) (r : Reg) (v : Word) : (t.setG r v).lid = t.lid := by unfold Thread.setG; split <;> simp
@[simp] theorem Thread.tidx_setG (t : Thread) (r : Reg) (v : Word) : (t.setG r v).tidx = t.tidx := by unfold Thread.setG; split <;> simp
@[simp] theorem Thread.lead_setG (t : Thread) (r : Reg) (v : Word) : (t.setG r v).lead = t.lead := by unfold Thread.setG; split <;> simp
@[simp] theorem Thread.xfer_setG (t : Thread) (r : Reg) (v : Word) : (t.setG r v).xfer = t.xfer := by unfold Thread.setG; split <;> simp
@[simp] theorem Thread.pc_setG (t : Thread) (r : Reg) (v : Word) : (t.setG r v).pc = t.pc := by unfold Thread.setG; split <;> simp
@[simp] theorem Thread.loops_setG (t : Thread) (r : Reg) (v : Word) : (t.setG r v).loops = t.loops := by unfold Thread.setG; split <;> simp
@[simp] theorem Thread.csr_setG (t : Thread) (r : Reg) (v : Word) : (t.setG r v).csr = t.csr := by unfold Thread.setG; split <;> simp
@[simp] theorem Thread.run_setG (t : Thread) (r : Reg) (v : Word) : (t.setG r v).run = t.run := by unfold Thread.setG; split <;> simp
@[simp] theorem Thread.parked_setG (t : Thread) (r : Reg) (v : Word) : (t.setG r v).parked = t.parked := by unfold Thread.setG; split <;> simp
@[simp] theorem Thread.withdrawable_setG (t : Thread) (r : Reg) (v : Word) : (t.setG r v).withdrawable = t.withdrawable := by unfold Thread.setG; split <;> simp
@[simp] theorem Thread.held_setG (t : Thread) (r : Reg) (v : Word) : (t.setG r v).held = t.held := by unfold Thread.setG; split <;> simp
@[simp] theorem Thread.arriving_setG (t : Thread) (r : Reg) (v : Word) : (t.setG r v).arriving = t.arriving := by unfold Thread.setG; split <;> simp
@[simp] theorem Thread.startCheck_setG (t : Thread) (r : Reg) (v : Word) : (t.setG r v).startCheck = t.startCheck := by unfold Thread.setG; split <;> simp
@[simp] theorem Thread.stage_setG (t : Thread) (r : Reg) (v : Word) : (t.setG r v).stage = t.stage := by unfold Thread.setG; split <;> simp
@[simp] theorem Thread.vals_setG (t : Thread) (r : Reg) (v : Word) : (t.setG r v).vals = t.vals := by unfold Thread.setG; split <;> simp
@[simp] theorem Thread.arg_setG (t : Thread) (r : Reg) (v : Word) : (t.setG r v).arg = t.arg := by unfold Thread.setG; split <;> simp
@[simp] theorem Thread.popped_setG (t : Thread) (r : Reg) (v : Word) : (t.setG r v).popped = t.popped := by unfold Thread.setG; split <;> simp
@[simp] theorem Thread.async_setG (t : Thread) (r : Reg) (v : Word) : (t.setG r v).async = t.async := by unfold Thread.setG; split <;> simp
@[simp] theorem Thread.timerDue_setG (t : Thread) (r : Reg) (v : Word) : (t.setG r v).timerDue = t.timerDue := by unfold Thread.setG; split <;> simp
@[simp] theorem Thread.faultSeq_setG (t : Thread) (r : Reg) (v : Word) : (t.setG r v).faultSeq = t.faultSeq := by unfold Thread.setG; split <;> simp
@[simp] theorem Thread.walking_setG (t : Thread) (r : Reg) (v : Word) : (t.setG r v).walking = t.walking := by unfold Thread.setG; split <;> simp
@[simp] theorem Thread.saveAt_setG (t : Thread) (r : Reg) (v : Word) : (t.setG r v).saveAt = t.saveAt := by unfold Thread.setG; split <;> simp
@[simp] theorem Thread.saveTo_setG (t : Thread) (r : Reg) (v : Word) : (t.setG r v).saveTo = t.saveTo := by unfold Thread.setG; split <;> simp
@[simp] theorem Thread.landing_setG (t : Thread) (r : Reg) (v : Word) : (t.setG r v).landing = t.landing := by unfold Thread.setG; split <;> simp
@[simp] theorem Thread.forced_setG (t : Thread) (r : Reg) (v : Word) : (t.setG r v).forced = t.forced := by unfold Thread.setG; split <;> simp
@[simp] theorem Thread.haltSaved_setG (t : Thread) (r : Reg) (v : Word) : (t.setG r v).haltSaved = t.haltSaved := by unfold Thread.setG; split <;> simp
@[simp] theorem Thread.frc_setG (t : Thread) (r : Reg) (v : Word) : (t.setG r v).frc = t.frc := by unfold Thread.setG; split <;> simp
@[simp] theorem Thread.lanes_setG (t : Thread) (r : Reg) (v : Word) : (t.setG r v).lanes = t.lanes := by unfold Thread.setG; split <;> simp
@[simp] theorem Thread.laneReq_setG (t : Thread) (r : Reg) (v : Word) : (t.setG r v).laneReq = t.laneReq := by unfold Thread.setG; split <;> simp
@[simp] theorem Thread.vec_setG (t : Thread) (r : Reg) (v : Word) : (t.setG r v).vec = t.vec := by unfold Thread.setG; split <;> simp
@[simp] theorem Thread.vseq_setG (t : Thread) (r : Reg) (v : Word) : (t.setG r v).vseq = t.vseq := by unfold Thread.setG; split <;> simp
@[simp] theorem Thread.vq_setG (t : Thread) (r : Reg) (v : Word) : (t.setG r v).vq = t.vq := by unfold Thread.setG; split <;> simp
@[simp] theorem Thread.pipes_setG (t : Thread) (r : Reg) (v : Word) : (t.setG r v).pipes = t.pipes := by unfold Thread.setG; split <;> simp
@[simp] theorem Thread.convoyOpen_setG (t : Thread) (r : Reg) (v : Word) : (t.setG r v).convoyOpen = t.convoyOpen := by unfold Thread.setG; split <;> simp
@[simp] theorem Thread.restored_setG (t : Thread) (r : Reg) (v : Word) : (t.setG r v).restored = t.restored := by unfold Thread.setG; split <;> simp
@[simp] theorem Thread.accQuota_setG (t : Thread) (r : Reg) (v : Word) : (t.setG r v).accQuota = t.accQuota := by unfold Thread.setG; split <;> simp
@[simp] theorem Thread.acc_setG (t : Thread) (r : Reg) (v : Word) : (t.setG r v).acc = t.acc := by unfold Thread.setG; split <;> simp
@[simp] theorem Thread.taskSeq_setG (t : Thread) (r : Reg) (v : Word) : (t.setG r v).taskSeq = t.taskSeq := by unfold Thread.setG; split <;> simp
@[simp] theorem Thread.barWait_setG (t : Thread) (r : Reg) (v : Word) : (t.setG r v).barWait = t.barWait := by unfold Thread.setG; split <;> simp
@[simp] theorem Thread.drained_setG (t : Thread) (r : Reg) (v : Word) : (t.setG r v).drained = t.drained := by unfold Thread.setG; split <;> simp
@[simp] theorem Thread.recSeq_setG (t : Thread) (r : Reg) (v : Word) : (t.setG r v).recSeq = t.recSeq := by unfold Thread.setG; split <;> simp
@[simp] theorem Thread.late_setG (t : Thread) (r : Reg) (v : Word) : (t.setG r v).late = t.late := by unfold Thread.setG; split <;> simp
@[simp] theorem Thread.latePend_setG (t : Thread) (r : Reg) (v : Word) : (t.setG r v).latePend = t.latePend := by unfold Thread.setG; split <;> simp
@[simp] theorem Thread.lateAt_setG (t : Thread) (r : Reg) (v : Word) : (t.setG r v).lateAt = t.lateAt := by unfold Thread.setG; split <;> simp
@[simp] theorem Thread.reserved_setG (t : Thread) (r : Reg) (v : Word) : (t.setG r v).reserved = t.reserved := by unfold Thread.setG; split <;> simp
@[simp] theorem Thread.walkVa_setG (t : Thread) (r : Reg) (v : Word) : (t.setG r v).walkVa = t.walkVa := by unfold Thread.setG; split <;> simp
@[simp] theorem Thread.walkAcc_setG (t : Thread) (r : Reg) (v : Word) : (t.setG r v).walkAcc = t.walkAcc := by unfold Thread.setG; split <;> simp
@[simp] theorem Thread.noCode_setG (t : Thread) (r : Reg) (v : Word) : (t.setG r v).noCode = t.noCode := by unfold Thread.setG; split <;> simp
@[simp] theorem Thread.convoy_setG (t : Thread) (r : Reg) (v : Word) : (t.setG r v).convoy = t.convoy := by unfold Thread.setG; split <;> simp
@[simp] theorem Thread.sending_setG (t : Thread) (r : Reg) (v : Word) : (t.setG r v).sending = t.sending := by unfold Thread.setG; split <;> simp

/-! ### Thread.makePending -/

@[simp] theorem Thread.uid_makePending (t : Thread) (r : Reg) : (t.makePending r).uid = t.uid := by unfold Thread.makePending; split <;> simp
@[simp] theorem Thread.ctx_makePending (t : Thread) (r : Reg) : (t.makePending r).ctx = t.ctx := by unfold Thread.makePending; split <;> simp
@[simp] theorem Thread.crew_makePending (t : Thread) (r : Reg) : (t.makePending r).crew = t.crew := by unfold Thread.makePending; split <;> simp
@[simp] theorem Thread.ord_makePending (t : Thread) (r : Reg) : (t.makePending r).ord = t.ord := by unfold Thread.makePending; split <;> simp
@[simp] theorem Thread.lid_makePending (t : Thread) (r : Reg) : (t.makePending r).lid = t.lid := by unfold Thread.makePending; split <;> simp
@[simp] theorem Thread.tidx_makePending (t : Thread) (r : Reg) : (t.makePending r).tidx = t.tidx := by unfold Thread.makePending; split <;> simp
@[simp] theorem Thread.lead_makePending (t : Thread) (r : Reg) : (t.makePending r).lead = t.lead := by unfold Thread.makePending; split <;> simp
@[simp] theorem Thread.xfer_makePending (t : Thread) (r : Reg) : (t.makePending r).xfer = t.xfer := by unfold Thread.makePending; split <;> simp
@[simp] theorem Thread.pc_makePending (t : Thread) (r : Reg) : (t.makePending r).pc = t.pc := by unfold Thread.makePending; split <;> simp
@[simp] theorem Thread.loops_makePending (t : Thread) (r : Reg) : (t.makePending r).loops = t.loops := by unfold Thread.makePending; split <;> simp
@[simp] theorem Thread.g_makePending (t : Thread) (r : Reg) : (t.makePending r).g = t.g := by unfold Thread.makePending; split <;> simp
@[simp] theorem Thread.empty_makePending (t : Thread) (r : Reg) : (t.makePending r).empty = t.empty := by unfold Thread.makePending; split <;> simp
@[simp] theorem Thread.csr_makePending (t : Thread) (r : Reg) : (t.makePending r).csr = t.csr := by unfold Thread.makePending; split <;> simp
@[simp] theorem Thread.run_makePending (t : Thread) (r : Reg) : (t.makePending r).run = t.run := by unfold Thread.makePending; split <;> simp
@[simp] theorem Thread.parked_makePending (t : Thread) (r : Reg) : (t.makePending r).parked = t.parked := by unfold Thread.makePending; split <;> simp
@[simp] theorem Thread.withdrawable_makePending (t : Thread) (r : Reg) : (t.makePending r).withdrawable = t.withdrawable := by unfold Thread.makePending; split <;> simp
@[simp] theorem Thread.held_makePending (t : Thread) (r : Reg) : (t.makePending r).held = t.held := by unfold Thread.makePending; split <;> simp
@[simp] theorem Thread.arriving_makePending (t : Thread) (r : Reg) : (t.makePending r).arriving = t.arriving := by unfold Thread.makePending; split <;> simp
@[simp] theorem Thread.startCheck_makePending (t : Thread) (r : Reg) : (t.makePending r).startCheck = t.startCheck := by unfold Thread.makePending; split <;> simp
@[simp] theorem Thread.stage_makePending (t : Thread) (r : Reg) : (t.makePending r).stage = t.stage := by unfold Thread.makePending; split <;> simp
@[simp] theorem Thread.vals_makePending (t : Thread) (r : Reg) : (t.makePending r).vals = t.vals := by unfold Thread.makePending; split <;> simp
@[simp] theorem Thread.arg_makePending (t : Thread) (r : Reg) : (t.makePending r).arg = t.arg := by unfold Thread.makePending; split <;> simp
@[simp] theorem Thread.popped_makePending (t : Thread) (r : Reg) : (t.makePending r).popped = t.popped := by unfold Thread.makePending; split <;> simp
@[simp] theorem Thread.async_makePending (t : Thread) (r : Reg) : (t.makePending r).async = t.async := by unfold Thread.makePending; split <;> simp
@[simp] theorem Thread.timerDue_makePending (t : Thread) (r : Reg) : (t.makePending r).timerDue = t.timerDue := by unfold Thread.makePending; split <;> simp
@[simp] theorem Thread.faultSeq_makePending (t : Thread) (r : Reg) : (t.makePending r).faultSeq = t.faultSeq := by unfold Thread.makePending; split <;> simp
@[simp] theorem Thread.walking_makePending (t : Thread) (r : Reg) : (t.makePending r).walking = t.walking := by unfold Thread.makePending; split <;> simp
@[simp] theorem Thread.saveAt_makePending (t : Thread) (r : Reg) : (t.makePending r).saveAt = t.saveAt := by unfold Thread.makePending; split <;> simp
@[simp] theorem Thread.saveTo_makePending (t : Thread) (r : Reg) : (t.makePending r).saveTo = t.saveTo := by unfold Thread.makePending; split <;> simp
@[simp] theorem Thread.landing_makePending (t : Thread) (r : Reg) : (t.makePending r).landing = t.landing := by unfold Thread.makePending; split <;> simp
@[simp] theorem Thread.forced_makePending (t : Thread) (r : Reg) : (t.makePending r).forced = t.forced := by unfold Thread.makePending; split <;> simp
@[simp] theorem Thread.haltSaved_makePending (t : Thread) (r : Reg) : (t.makePending r).haltSaved = t.haltSaved := by unfold Thread.makePending; split <;> simp
@[simp] theorem Thread.frc_makePending (t : Thread) (r : Reg) : (t.makePending r).frc = t.frc := by unfold Thread.makePending; split <;> simp
@[simp] theorem Thread.lanes_makePending (t : Thread) (r : Reg) : (t.makePending r).lanes = t.lanes := by unfold Thread.makePending; split <;> simp
@[simp] theorem Thread.laneReq_makePending (t : Thread) (r : Reg) : (t.makePending r).laneReq = t.laneReq := by unfold Thread.makePending; split <;> simp
@[simp] theorem Thread.vec_makePending (t : Thread) (r : Reg) : (t.makePending r).vec = t.vec := by unfold Thread.makePending; split <;> simp
@[simp] theorem Thread.vseq_makePending (t : Thread) (r : Reg) : (t.makePending r).vseq = t.vseq := by unfold Thread.makePending; split <;> simp
@[simp] theorem Thread.vq_makePending (t : Thread) (r : Reg) : (t.makePending r).vq = t.vq := by unfold Thread.makePending; split <;> simp
@[simp] theorem Thread.pipes_makePending (t : Thread) (r : Reg) : (t.makePending r).pipes = t.pipes := by unfold Thread.makePending; split <;> simp
@[simp] theorem Thread.convoyOpen_makePending (t : Thread) (r : Reg) : (t.makePending r).convoyOpen = t.convoyOpen := by unfold Thread.makePending; split <;> simp
@[simp] theorem Thread.restored_makePending (t : Thread) (r : Reg) : (t.makePending r).restored = t.restored := by unfold Thread.makePending; split <;> simp
@[simp] theorem Thread.accQuota_makePending (t : Thread) (r : Reg) : (t.makePending r).accQuota = t.accQuota := by unfold Thread.makePending; split <;> simp
@[simp] theorem Thread.acc_makePending (t : Thread) (r : Reg) : (t.makePending r).acc = t.acc := by unfold Thread.makePending; split <;> simp
@[simp] theorem Thread.taskSeq_makePending (t : Thread) (r : Reg) : (t.makePending r).taskSeq = t.taskSeq := by unfold Thread.makePending; split <;> simp
@[simp] theorem Thread.barWait_makePending (t : Thread) (r : Reg) : (t.makePending r).barWait = t.barWait := by unfold Thread.makePending; split <;> simp
@[simp] theorem Thread.drained_makePending (t : Thread) (r : Reg) : (t.makePending r).drained = t.drained := by unfold Thread.makePending; split <;> simp
@[simp] theorem Thread.recSeq_makePending (t : Thread) (r : Reg) : (t.makePending r).recSeq = t.recSeq := by unfold Thread.makePending; split <;> simp
@[simp] theorem Thread.late_makePending (t : Thread) (r : Reg) : (t.makePending r).late = t.late := by unfold Thread.makePending; split <;> simp
@[simp] theorem Thread.latePend_makePending (t : Thread) (r : Reg) : (t.makePending r).latePend = t.latePend := by unfold Thread.makePending; split <;> simp
@[simp] theorem Thread.lateAt_makePending (t : Thread) (r : Reg) : (t.makePending r).lateAt = t.lateAt := by unfold Thread.makePending; split <;> simp
@[simp] theorem Thread.reserved_makePending (t : Thread) (r : Reg) : (t.makePending r).reserved = t.reserved := by unfold Thread.makePending; split <;> simp
@[simp] theorem Thread.walkVa_makePending (t : Thread) (r : Reg) : (t.makePending r).walkVa = t.walkVa := by unfold Thread.makePending; split <;> simp
@[simp] theorem Thread.walkAcc_makePending (t : Thread) (r : Reg) : (t.makePending r).walkAcc = t.walkAcc := by unfold Thread.makePending; split <;> simp
@[simp] theorem Thread.noCode_makePending (t : Thread) (r : Reg) : (t.makePending r).noCode = t.noCode := by unfold Thread.makePending; split <;> simp
@[simp] theorem Thread.convoy_makePending (t : Thread) (r : Reg) : (t.makePending r).convoy = t.convoy := by unfold Thread.makePending; split <;> simp
@[simp] theorem Thread.sending_makePending (t : Thread) (r : Reg) : (t.makePending r).sending = t.sending := by unfold Thread.makePending; split <;> simp

/-! ### Thread.makeEmpty -/

@[simp] theorem Thread.uid_makeEmpty (t : Thread) (r : Reg) : (t.makeEmpty r).uid = t.uid := by unfold Thread.makeEmpty; split <;> simp
@[simp] theorem Thread.ctx_makeEmpty (t : Thread) (r : Reg) : (t.makeEmpty r).ctx = t.ctx := by unfold Thread.makeEmpty; split <;> simp
@[simp] theorem Thread.crew_makeEmpty (t : Thread) (r : Reg) : (t.makeEmpty r).crew = t.crew := by unfold Thread.makeEmpty; split <;> simp
@[simp] theorem Thread.ord_makeEmpty (t : Thread) (r : Reg) : (t.makeEmpty r).ord = t.ord := by unfold Thread.makeEmpty; split <;> simp
@[simp] theorem Thread.lid_makeEmpty (t : Thread) (r : Reg) : (t.makeEmpty r).lid = t.lid := by unfold Thread.makeEmpty; split <;> simp
@[simp] theorem Thread.tidx_makeEmpty (t : Thread) (r : Reg) : (t.makeEmpty r).tidx = t.tidx := by unfold Thread.makeEmpty; split <;> simp
@[simp] theorem Thread.lead_makeEmpty (t : Thread) (r : Reg) : (t.makeEmpty r).lead = t.lead := by unfold Thread.makeEmpty; split <;> simp
@[simp] theorem Thread.xfer_makeEmpty (t : Thread) (r : Reg) : (t.makeEmpty r).xfer = t.xfer := by unfold Thread.makeEmpty; split <;> simp
@[simp] theorem Thread.pc_makeEmpty (t : Thread) (r : Reg) : (t.makeEmpty r).pc = t.pc := by unfold Thread.makeEmpty; split <;> simp
@[simp] theorem Thread.loops_makeEmpty (t : Thread) (r : Reg) : (t.makeEmpty r).loops = t.loops := by unfold Thread.makeEmpty; split <;> simp
@[simp] theorem Thread.g_makeEmpty (t : Thread) (r : Reg) : (t.makeEmpty r).g = t.g := by unfold Thread.makeEmpty; split <;> simp
@[simp] theorem Thread.pending_makeEmpty (t : Thread) (r : Reg) : (t.makeEmpty r).pending = t.pending := by unfold Thread.makeEmpty; split <;> simp
@[simp] theorem Thread.csr_makeEmpty (t : Thread) (r : Reg) : (t.makeEmpty r).csr = t.csr := by unfold Thread.makeEmpty; split <;> simp
@[simp] theorem Thread.run_makeEmpty (t : Thread) (r : Reg) : (t.makeEmpty r).run = t.run := by unfold Thread.makeEmpty; split <;> simp
@[simp] theorem Thread.parked_makeEmpty (t : Thread) (r : Reg) : (t.makeEmpty r).parked = t.parked := by unfold Thread.makeEmpty; split <;> simp
@[simp] theorem Thread.withdrawable_makeEmpty (t : Thread) (r : Reg) : (t.makeEmpty r).withdrawable = t.withdrawable := by unfold Thread.makeEmpty; split <;> simp
@[simp] theorem Thread.held_makeEmpty (t : Thread) (r : Reg) : (t.makeEmpty r).held = t.held := by unfold Thread.makeEmpty; split <;> simp
@[simp] theorem Thread.arriving_makeEmpty (t : Thread) (r : Reg) : (t.makeEmpty r).arriving = t.arriving := by unfold Thread.makeEmpty; split <;> simp
@[simp] theorem Thread.startCheck_makeEmpty (t : Thread) (r : Reg) : (t.makeEmpty r).startCheck = t.startCheck := by unfold Thread.makeEmpty; split <;> simp
@[simp] theorem Thread.stage_makeEmpty (t : Thread) (r : Reg) : (t.makeEmpty r).stage = t.stage := by unfold Thread.makeEmpty; split <;> simp
@[simp] theorem Thread.vals_makeEmpty (t : Thread) (r : Reg) : (t.makeEmpty r).vals = t.vals := by unfold Thread.makeEmpty; split <;> simp
@[simp] theorem Thread.arg_makeEmpty (t : Thread) (r : Reg) : (t.makeEmpty r).arg = t.arg := by unfold Thread.makeEmpty; split <;> simp
@[simp] theorem Thread.popped_makeEmpty (t : Thread) (r : Reg) : (t.makeEmpty r).popped = t.popped := by unfold Thread.makeEmpty; split <;> simp
@[simp] theorem Thread.async_makeEmpty (t : Thread) (r : Reg) : (t.makeEmpty r).async = t.async := by unfold Thread.makeEmpty; split <;> simp
@[simp] theorem Thread.timerDue_makeEmpty (t : Thread) (r : Reg) : (t.makeEmpty r).timerDue = t.timerDue := by unfold Thread.makeEmpty; split <;> simp
@[simp] theorem Thread.faultSeq_makeEmpty (t : Thread) (r : Reg) : (t.makeEmpty r).faultSeq = t.faultSeq := by unfold Thread.makeEmpty; split <;> simp
@[simp] theorem Thread.walking_makeEmpty (t : Thread) (r : Reg) : (t.makeEmpty r).walking = t.walking := by unfold Thread.makeEmpty; split <;> simp
@[simp] theorem Thread.saveAt_makeEmpty (t : Thread) (r : Reg) : (t.makeEmpty r).saveAt = t.saveAt := by unfold Thread.makeEmpty; split <;> simp
@[simp] theorem Thread.saveTo_makeEmpty (t : Thread) (r : Reg) : (t.makeEmpty r).saveTo = t.saveTo := by unfold Thread.makeEmpty; split <;> simp
@[simp] theorem Thread.landing_makeEmpty (t : Thread) (r : Reg) : (t.makeEmpty r).landing = t.landing := by unfold Thread.makeEmpty; split <;> simp
@[simp] theorem Thread.forced_makeEmpty (t : Thread) (r : Reg) : (t.makeEmpty r).forced = t.forced := by unfold Thread.makeEmpty; split <;> simp
@[simp] theorem Thread.haltSaved_makeEmpty (t : Thread) (r : Reg) : (t.makeEmpty r).haltSaved = t.haltSaved := by unfold Thread.makeEmpty; split <;> simp
@[simp] theorem Thread.frc_makeEmpty (t : Thread) (r : Reg) : (t.makeEmpty r).frc = t.frc := by unfold Thread.makeEmpty; split <;> simp
@[simp] theorem Thread.lanes_makeEmpty (t : Thread) (r : Reg) : (t.makeEmpty r).lanes = t.lanes := by unfold Thread.makeEmpty; split <;> simp
@[simp] theorem Thread.laneReq_makeEmpty (t : Thread) (r : Reg) : (t.makeEmpty r).laneReq = t.laneReq := by unfold Thread.makeEmpty; split <;> simp
@[simp] theorem Thread.vec_makeEmpty (t : Thread) (r : Reg) : (t.makeEmpty r).vec = t.vec := by unfold Thread.makeEmpty; split <;> simp
@[simp] theorem Thread.vseq_makeEmpty (t : Thread) (r : Reg) : (t.makeEmpty r).vseq = t.vseq := by unfold Thread.makeEmpty; split <;> simp
@[simp] theorem Thread.vq_makeEmpty (t : Thread) (r : Reg) : (t.makeEmpty r).vq = t.vq := by unfold Thread.makeEmpty; split <;> simp
@[simp] theorem Thread.pipes_makeEmpty (t : Thread) (r : Reg) : (t.makeEmpty r).pipes = t.pipes := by unfold Thread.makeEmpty; split <;> simp
@[simp] theorem Thread.convoyOpen_makeEmpty (t : Thread) (r : Reg) : (t.makeEmpty r).convoyOpen = t.convoyOpen := by unfold Thread.makeEmpty; split <;> simp
@[simp] theorem Thread.restored_makeEmpty (t : Thread) (r : Reg) : (t.makeEmpty r).restored = t.restored := by unfold Thread.makeEmpty; split <;> simp
@[simp] theorem Thread.accQuota_makeEmpty (t : Thread) (r : Reg) : (t.makeEmpty r).accQuota = t.accQuota := by unfold Thread.makeEmpty; split <;> simp
@[simp] theorem Thread.acc_makeEmpty (t : Thread) (r : Reg) : (t.makeEmpty r).acc = t.acc := by unfold Thread.makeEmpty; split <;> simp
@[simp] theorem Thread.taskSeq_makeEmpty (t : Thread) (r : Reg) : (t.makeEmpty r).taskSeq = t.taskSeq := by unfold Thread.makeEmpty; split <;> simp
@[simp] theorem Thread.barWait_makeEmpty (t : Thread) (r : Reg) : (t.makeEmpty r).barWait = t.barWait := by unfold Thread.makeEmpty; split <;> simp
@[simp] theorem Thread.drained_makeEmpty (t : Thread) (r : Reg) : (t.makeEmpty r).drained = t.drained := by unfold Thread.makeEmpty; split <;> simp
@[simp] theorem Thread.recSeq_makeEmpty (t : Thread) (r : Reg) : (t.makeEmpty r).recSeq = t.recSeq := by unfold Thread.makeEmpty; split <;> simp
@[simp] theorem Thread.late_makeEmpty (t : Thread) (r : Reg) : (t.makeEmpty r).late = t.late := by unfold Thread.makeEmpty; split <;> simp
@[simp] theorem Thread.latePend_makeEmpty (t : Thread) (r : Reg) : (t.makeEmpty r).latePend = t.latePend := by unfold Thread.makeEmpty; split <;> simp
@[simp] theorem Thread.lateAt_makeEmpty (t : Thread) (r : Reg) : (t.makeEmpty r).lateAt = t.lateAt := by unfold Thread.makeEmpty; split <;> simp
@[simp] theorem Thread.reserved_makeEmpty (t : Thread) (r : Reg) : (t.makeEmpty r).reserved = t.reserved := by unfold Thread.makeEmpty; split <;> simp
@[simp] theorem Thread.walkVa_makeEmpty (t : Thread) (r : Reg) : (t.makeEmpty r).walkVa = t.walkVa := by unfold Thread.makeEmpty; split <;> simp
@[simp] theorem Thread.walkAcc_makeEmpty (t : Thread) (r : Reg) : (t.makeEmpty r).walkAcc = t.walkAcc := by unfold Thread.makeEmpty; split <;> simp
@[simp] theorem Thread.noCode_makeEmpty (t : Thread) (r : Reg) : (t.makeEmpty r).noCode = t.noCode := by unfold Thread.makeEmpty; split <;> simp
@[simp] theorem Thread.convoy_makeEmpty (t : Thread) (r : Reg) : (t.makeEmpty r).convoy = t.convoy := by unfold Thread.makeEmpty; split <;> simp
@[simp] theorem Thread.sending_makeEmpty (t : Thread) (r : Reg) : (t.makeEmpty r).sending = t.sending := by unfold Thread.makeEmpty; split <;> simp

/-! ### Thread.setCsr -/

@[simp] theorem Thread.uid_setCsr (t : Thread) (n : Nat) (v : Word) : (t.setCsr n v).uid = t.uid := by simp [Thread.setCsr]
@[simp] theorem Thread.ctx_setCsr (t : Thread) (n : Nat) (v : Word) : (t.setCsr n v).ctx = t.ctx := by simp [Thread.setCsr]
@[simp] theorem Thread.crew_setCsr (t : Thread) (n : Nat) (v : Word) : (t.setCsr n v).crew = t.crew := by simp [Thread.setCsr]
@[simp] theorem Thread.ord_setCsr (t : Thread) (n : Nat) (v : Word) : (t.setCsr n v).ord = t.ord := by simp [Thread.setCsr]
@[simp] theorem Thread.lid_setCsr (t : Thread) (n : Nat) (v : Word) : (t.setCsr n v).lid = t.lid := by simp [Thread.setCsr]
@[simp] theorem Thread.tidx_setCsr (t : Thread) (n : Nat) (v : Word) : (t.setCsr n v).tidx = t.tidx := by simp [Thread.setCsr]
@[simp] theorem Thread.lead_setCsr (t : Thread) (n : Nat) (v : Word) : (t.setCsr n v).lead = t.lead := by simp [Thread.setCsr]
@[simp] theorem Thread.xfer_setCsr (t : Thread) (n : Nat) (v : Word) : (t.setCsr n v).xfer = t.xfer := by simp [Thread.setCsr]
@[simp] theorem Thread.pc_setCsr (t : Thread) (n : Nat) (v : Word) : (t.setCsr n v).pc = t.pc := by simp [Thread.setCsr]
@[simp] theorem Thread.loops_setCsr (t : Thread) (n : Nat) (v : Word) : (t.setCsr n v).loops = t.loops := by simp [Thread.setCsr]
@[simp] theorem Thread.g_setCsr (t : Thread) (n : Nat) (v : Word) : (t.setCsr n v).g = t.g := by simp [Thread.setCsr]
@[simp] theorem Thread.empty_setCsr (t : Thread) (n : Nat) (v : Word) : (t.setCsr n v).empty = t.empty := by simp [Thread.setCsr]
@[simp] theorem Thread.pending_setCsr (t : Thread) (n : Nat) (v : Word) : (t.setCsr n v).pending = t.pending := by simp [Thread.setCsr]
@[simp] theorem Thread.run_setCsr (t : Thread) (n : Nat) (v : Word) : (t.setCsr n v).run = t.run := by simp [Thread.setCsr]
@[simp] theorem Thread.parked_setCsr (t : Thread) (n : Nat) (v : Word) : (t.setCsr n v).parked = t.parked := by simp [Thread.setCsr]
@[simp] theorem Thread.withdrawable_setCsr (t : Thread) (n : Nat) (v : Word) : (t.setCsr n v).withdrawable = t.withdrawable := by simp [Thread.setCsr]
@[simp] theorem Thread.held_setCsr (t : Thread) (n : Nat) (v : Word) : (t.setCsr n v).held = t.held := by simp [Thread.setCsr]
@[simp] theorem Thread.arriving_setCsr (t : Thread) (n : Nat) (v : Word) : (t.setCsr n v).arriving = t.arriving := by simp [Thread.setCsr]
@[simp] theorem Thread.startCheck_setCsr (t : Thread) (n : Nat) (v : Word) : (t.setCsr n v).startCheck = t.startCheck := by simp [Thread.setCsr]
@[simp] theorem Thread.stage_setCsr (t : Thread) (n : Nat) (v : Word) : (t.setCsr n v).stage = t.stage := by simp [Thread.setCsr]
@[simp] theorem Thread.vals_setCsr (t : Thread) (n : Nat) (v : Word) : (t.setCsr n v).vals = t.vals := by simp [Thread.setCsr]
@[simp] theorem Thread.arg_setCsr (t : Thread) (n : Nat) (v : Word) : (t.setCsr n v).arg = t.arg := by simp [Thread.setCsr]
@[simp] theorem Thread.popped_setCsr (t : Thread) (n : Nat) (v : Word) : (t.setCsr n v).popped = t.popped := by simp [Thread.setCsr]
@[simp] theorem Thread.async_setCsr (t : Thread) (n : Nat) (v : Word) : (t.setCsr n v).async = t.async := by simp [Thread.setCsr]
@[simp] theorem Thread.timerDue_setCsr (t : Thread) (n : Nat) (v : Word) : (t.setCsr n v).timerDue = t.timerDue := by simp [Thread.setCsr]
@[simp] theorem Thread.faultSeq_setCsr (t : Thread) (n : Nat) (v : Word) : (t.setCsr n v).faultSeq = t.faultSeq := by simp [Thread.setCsr]
@[simp] theorem Thread.walking_setCsr (t : Thread) (n : Nat) (v : Word) : (t.setCsr n v).walking = t.walking := by simp [Thread.setCsr]
@[simp] theorem Thread.saveAt_setCsr (t : Thread) (n : Nat) (v : Word) : (t.setCsr n v).saveAt = t.saveAt := by simp [Thread.setCsr]
@[simp] theorem Thread.saveTo_setCsr (t : Thread) (n : Nat) (v : Word) : (t.setCsr n v).saveTo = t.saveTo := by simp [Thread.setCsr]
@[simp] theorem Thread.landing_setCsr (t : Thread) (n : Nat) (v : Word) : (t.setCsr n v).landing = t.landing := by simp [Thread.setCsr]
@[simp] theorem Thread.forced_setCsr (t : Thread) (n : Nat) (v : Word) : (t.setCsr n v).forced = t.forced := by simp [Thread.setCsr]
@[simp] theorem Thread.haltSaved_setCsr (t : Thread) (n : Nat) (v : Word) : (t.setCsr n v).haltSaved = t.haltSaved := by simp [Thread.setCsr]
@[simp] theorem Thread.frc_setCsr (t : Thread) (n : Nat) (v : Word) : (t.setCsr n v).frc = t.frc := by simp [Thread.setCsr]
@[simp] theorem Thread.lanes_setCsr (t : Thread) (n : Nat) (v : Word) : (t.setCsr n v).lanes = t.lanes := by simp [Thread.setCsr]
@[simp] theorem Thread.laneReq_setCsr (t : Thread) (n : Nat) (v : Word) : (t.setCsr n v).laneReq = t.laneReq := by simp [Thread.setCsr]
@[simp] theorem Thread.vec_setCsr (t : Thread) (n : Nat) (v : Word) : (t.setCsr n v).vec = t.vec := by simp [Thread.setCsr]
@[simp] theorem Thread.vseq_setCsr (t : Thread) (n : Nat) (v : Word) : (t.setCsr n v).vseq = t.vseq := by simp [Thread.setCsr]
@[simp] theorem Thread.vq_setCsr (t : Thread) (n : Nat) (v : Word) : (t.setCsr n v).vq = t.vq := by simp [Thread.setCsr]
@[simp] theorem Thread.pipes_setCsr (t : Thread) (n : Nat) (v : Word) : (t.setCsr n v).pipes = t.pipes := by simp [Thread.setCsr]
@[simp] theorem Thread.convoyOpen_setCsr (t : Thread) (n : Nat) (v : Word) : (t.setCsr n v).convoyOpen = t.convoyOpen := by simp [Thread.setCsr]
@[simp] theorem Thread.restored_setCsr (t : Thread) (n : Nat) (v : Word) : (t.setCsr n v).restored = t.restored := by simp [Thread.setCsr]
@[simp] theorem Thread.accQuota_setCsr (t : Thread) (n : Nat) (v : Word) : (t.setCsr n v).accQuota = t.accQuota := by simp [Thread.setCsr]
@[simp] theorem Thread.acc_setCsr (t : Thread) (n : Nat) (v : Word) : (t.setCsr n v).acc = t.acc := by simp [Thread.setCsr]
@[simp] theorem Thread.taskSeq_setCsr (t : Thread) (n : Nat) (v : Word) : (t.setCsr n v).taskSeq = t.taskSeq := by simp [Thread.setCsr]
@[simp] theorem Thread.barWait_setCsr (t : Thread) (n : Nat) (v : Word) : (t.setCsr n v).barWait = t.barWait := by simp [Thread.setCsr]
@[simp] theorem Thread.drained_setCsr (t : Thread) (n : Nat) (v : Word) : (t.setCsr n v).drained = t.drained := by simp [Thread.setCsr]
@[simp] theorem Thread.recSeq_setCsr (t : Thread) (n : Nat) (v : Word) : (t.setCsr n v).recSeq = t.recSeq := by simp [Thread.setCsr]
@[simp] theorem Thread.late_setCsr (t : Thread) (n : Nat) (v : Word) : (t.setCsr n v).late = t.late := by simp [Thread.setCsr]
@[simp] theorem Thread.latePend_setCsr (t : Thread) (n : Nat) (v : Word) : (t.setCsr n v).latePend = t.latePend := by simp [Thread.setCsr]
@[simp] theorem Thread.lateAt_setCsr (t : Thread) (n : Nat) (v : Word) : (t.setCsr n v).lateAt = t.lateAt := by simp [Thread.setCsr]
@[simp] theorem Thread.reserved_setCsr (t : Thread) (n : Nat) (v : Word) : (t.setCsr n v).reserved = t.reserved := by simp [Thread.setCsr]
@[simp] theorem Thread.walkVa_setCsr (t : Thread) (n : Nat) (v : Word) : (t.setCsr n v).walkVa = t.walkVa := by simp [Thread.setCsr]
@[simp] theorem Thread.walkAcc_setCsr (t : Thread) (n : Nat) (v : Word) : (t.setCsr n v).walkAcc = t.walkAcc := by simp [Thread.setCsr]
@[simp] theorem Thread.noCode_setCsr (t : Thread) (n : Nat) (v : Word) : (t.setCsr n v).noCode = t.noCode := by simp [Thread.setCsr]
@[simp] theorem Thread.convoy_setCsr (t : Thread) (n : Nat) (v : Word) : (t.setCsr n v).convoy = t.convoy := by simp [Thread.setCsr]
@[simp] theorem Thread.sending_setCsr (t : Thread) (n : Nat) (v : Word) : (t.setCsr n v).sending = t.sending := by simp [Thread.setCsr]

/-! ### Thread.raise -/

@[simp] theorem Thread.uid_raise (t : Thread) (n : Nat) : (t.raise n).uid = t.uid := by unfold Thread.raise; split <;> simp
@[simp] theorem Thread.ctx_raise (t : Thread) (n : Nat) : (t.raise n).ctx = t.ctx := by unfold Thread.raise; split <;> simp
@[simp] theorem Thread.crew_raise (t : Thread) (n : Nat) : (t.raise n).crew = t.crew := by unfold Thread.raise; split <;> simp
@[simp] theorem Thread.ord_raise (t : Thread) (n : Nat) : (t.raise n).ord = t.ord := by unfold Thread.raise; split <;> simp
@[simp] theorem Thread.lid_raise (t : Thread) (n : Nat) : (t.raise n).lid = t.lid := by unfold Thread.raise; split <;> simp
@[simp] theorem Thread.tidx_raise (t : Thread) (n : Nat) : (t.raise n).tidx = t.tidx := by unfold Thread.raise; split <;> simp
@[simp] theorem Thread.lead_raise (t : Thread) (n : Nat) : (t.raise n).lead = t.lead := by unfold Thread.raise; split <;> simp
@[simp] theorem Thread.xfer_raise (t : Thread) (n : Nat) : (t.raise n).xfer = t.xfer := by unfold Thread.raise; split <;> simp
@[simp] theorem Thread.pc_raise (t : Thread) (n : Nat) : (t.raise n).pc = t.pc := by unfold Thread.raise; split <;> simp
@[simp] theorem Thread.loops_raise (t : Thread) (n : Nat) : (t.raise n).loops = t.loops := by unfold Thread.raise; split <;> simp
@[simp] theorem Thread.g_raise (t : Thread) (n : Nat) : (t.raise n).g = t.g := by unfold Thread.raise; split <;> simp
@[simp] theorem Thread.empty_raise (t : Thread) (n : Nat) : (t.raise n).empty = t.empty := by unfold Thread.raise; split <;> simp
@[simp] theorem Thread.pending_raise (t : Thread) (n : Nat) : (t.raise n).pending = t.pending := by unfold Thread.raise; split <;> simp
@[simp] theorem Thread.run_raise (t : Thread) (n : Nat) : (t.raise n).run = t.run := by unfold Thread.raise; split <;> simp
@[simp] theorem Thread.parked_raise (t : Thread) (n : Nat) : (t.raise n).parked = t.parked := by unfold Thread.raise; split <;> simp
@[simp] theorem Thread.withdrawable_raise (t : Thread) (n : Nat) : (t.raise n).withdrawable = t.withdrawable := by unfold Thread.raise; split <;> simp
@[simp] theorem Thread.held_raise (t : Thread) (n : Nat) : (t.raise n).held = t.held := by unfold Thread.raise; split <;> simp
@[simp] theorem Thread.arriving_raise (t : Thread) (n : Nat) : (t.raise n).arriving = t.arriving := by unfold Thread.raise; split <;> simp
@[simp] theorem Thread.startCheck_raise (t : Thread) (n : Nat) : (t.raise n).startCheck = t.startCheck := by unfold Thread.raise; split <;> simp
@[simp] theorem Thread.stage_raise (t : Thread) (n : Nat) : (t.raise n).stage = t.stage := by unfold Thread.raise; split <;> simp
@[simp] theorem Thread.vals_raise (t : Thread) (n : Nat) : (t.raise n).vals = t.vals := by unfold Thread.raise; split <;> simp
@[simp] theorem Thread.arg_raise (t : Thread) (n : Nat) : (t.raise n).arg = t.arg := by unfold Thread.raise; split <;> simp
@[simp] theorem Thread.popped_raise (t : Thread) (n : Nat) : (t.raise n).popped = t.popped := by unfold Thread.raise; split <;> simp
@[simp] theorem Thread.async_raise (t : Thread) (n : Nat) : (t.raise n).async = t.async := by unfold Thread.raise; split <;> simp
@[simp] theorem Thread.timerDue_raise (t : Thread) (n : Nat) : (t.raise n).timerDue = t.timerDue := by unfold Thread.raise; split <;> simp
@[simp] theorem Thread.faultSeq_raise (t : Thread) (n : Nat) : (t.raise n).faultSeq = t.faultSeq := by unfold Thread.raise; split <;> simp
@[simp] theorem Thread.walking_raise (t : Thread) (n : Nat) : (t.raise n).walking = t.walking := by unfold Thread.raise; split <;> simp
@[simp] theorem Thread.saveAt_raise (t : Thread) (n : Nat) : (t.raise n).saveAt = t.saveAt := by unfold Thread.raise; split <;> simp
@[simp] theorem Thread.saveTo_raise (t : Thread) (n : Nat) : (t.raise n).saveTo = t.saveTo := by unfold Thread.raise; split <;> simp
@[simp] theorem Thread.landing_raise (t : Thread) (n : Nat) : (t.raise n).landing = t.landing := by unfold Thread.raise; split <;> simp
@[simp] theorem Thread.forced_raise (t : Thread) (n : Nat) : (t.raise n).forced = t.forced := by unfold Thread.raise; split <;> simp
@[simp] theorem Thread.haltSaved_raise (t : Thread) (n : Nat) : (t.raise n).haltSaved = t.haltSaved := by unfold Thread.raise; split <;> simp
@[simp] theorem Thread.frc_raise (t : Thread) (n : Nat) : (t.raise n).frc = t.frc := by unfold Thread.raise; split <;> simp
@[simp] theorem Thread.lanes_raise (t : Thread) (n : Nat) : (t.raise n).lanes = t.lanes := by unfold Thread.raise; split <;> simp
@[simp] theorem Thread.laneReq_raise (t : Thread) (n : Nat) : (t.raise n).laneReq = t.laneReq := by unfold Thread.raise; split <;> simp
@[simp] theorem Thread.vec_raise (t : Thread) (n : Nat) : (t.raise n).vec = t.vec := by unfold Thread.raise; split <;> simp
@[simp] theorem Thread.vseq_raise (t : Thread) (n : Nat) : (t.raise n).vseq = t.vseq := by unfold Thread.raise; split <;> simp
@[simp] theorem Thread.vq_raise (t : Thread) (n : Nat) : (t.raise n).vq = t.vq := by unfold Thread.raise; split <;> simp
@[simp] theorem Thread.pipes_raise (t : Thread) (n : Nat) : (t.raise n).pipes = t.pipes := by unfold Thread.raise; split <;> simp
@[simp] theorem Thread.convoyOpen_raise (t : Thread) (n : Nat) : (t.raise n).convoyOpen = t.convoyOpen := by unfold Thread.raise; split <;> simp
@[simp] theorem Thread.restored_raise (t : Thread) (n : Nat) : (t.raise n).restored = t.restored := by unfold Thread.raise; split <;> simp
@[simp] theorem Thread.accQuota_raise (t : Thread) (n : Nat) : (t.raise n).accQuota = t.accQuota := by unfold Thread.raise; split <;> simp
@[simp] theorem Thread.acc_raise (t : Thread) (n : Nat) : (t.raise n).acc = t.acc := by unfold Thread.raise; split <;> simp
@[simp] theorem Thread.taskSeq_raise (t : Thread) (n : Nat) : (t.raise n).taskSeq = t.taskSeq := by unfold Thread.raise; split <;> simp
@[simp] theorem Thread.barWait_raise (t : Thread) (n : Nat) : (t.raise n).barWait = t.barWait := by unfold Thread.raise; split <;> simp
@[simp] theorem Thread.drained_raise (t : Thread) (n : Nat) : (t.raise n).drained = t.drained := by unfold Thread.raise; split <;> simp
@[simp] theorem Thread.recSeq_raise (t : Thread) (n : Nat) : (t.raise n).recSeq = t.recSeq := by unfold Thread.raise; split <;> simp
@[simp] theorem Thread.late_raise (t : Thread) (n : Nat) : (t.raise n).late = t.late := by unfold Thread.raise; split <;> simp
@[simp] theorem Thread.latePend_raise (t : Thread) (n : Nat) : (t.raise n).latePend = t.latePend := by unfold Thread.raise; split <;> simp
@[simp] theorem Thread.lateAt_raise (t : Thread) (n : Nat) : (t.raise n).lateAt = t.lateAt := by unfold Thread.raise; split <;> simp
@[simp] theorem Thread.reserved_raise (t : Thread) (n : Nat) : (t.raise n).reserved = t.reserved := by unfold Thread.raise; split <;> simp
@[simp] theorem Thread.walkVa_raise (t : Thread) (n : Nat) : (t.raise n).walkVa = t.walkVa := by unfold Thread.raise; split <;> simp
@[simp] theorem Thread.walkAcc_raise (t : Thread) (n : Nat) : (t.raise n).walkAcc = t.walkAcc := by unfold Thread.raise; split <;> simp
@[simp] theorem Thread.noCode_raise (t : Thread) (n : Nat) : (t.raise n).noCode = t.noCode := by unfold Thread.raise; split <;> simp
@[simp] theorem Thread.convoy_raise (t : Thread) (n : Nat) : (t.raise n).convoy = t.convoy := by unfold Thread.raise; split <;> simp
@[simp] theorem Thread.sending_raise (t : Thread) (n : Nat) : (t.raise n).sending = t.sending := by unfold Thread.raise; split <;> simp

/-! ### Thread.goTo -/

@[simp] theorem Thread.uid_goTo (t : Thread) (p : BitVec 53) (l : List LoopLevel) (b : Bool) : (t.goTo p l b).uid = t.uid := rfl
@[simp] theorem Thread.ctx_goTo (t : Thread) (p : BitVec 53) (l : List LoopLevel) (b : Bool) : (t.goTo p l b).ctx = t.ctx := rfl
@[simp] theorem Thread.crew_goTo (t : Thread) (p : BitVec 53) (l : List LoopLevel) (b : Bool) : (t.goTo p l b).crew = t.crew := rfl
@[simp] theorem Thread.ord_goTo (t : Thread) (p : BitVec 53) (l : List LoopLevel) (b : Bool) : (t.goTo p l b).ord = t.ord := rfl
@[simp] theorem Thread.lid_goTo (t : Thread) (p : BitVec 53) (l : List LoopLevel) (b : Bool) : (t.goTo p l b).lid = t.lid := rfl
@[simp] theorem Thread.tidx_goTo (t : Thread) (p : BitVec 53) (l : List LoopLevel) (b : Bool) : (t.goTo p l b).tidx = t.tidx := rfl
@[simp] theorem Thread.lead_goTo (t : Thread) (p : BitVec 53) (l : List LoopLevel) (b : Bool) : (t.goTo p l b).lead = t.lead := rfl
@[simp] theorem Thread.xfer_goTo (t : Thread) (p : BitVec 53) (l : List LoopLevel) (b : Bool) : (t.goTo p l b).xfer = t.xfer := rfl
@[simp] theorem Thread.g_goTo (t : Thread) (p : BitVec 53) (l : List LoopLevel) (b : Bool) : (t.goTo p l b).g = t.g := rfl
@[simp] theorem Thread.empty_goTo (t : Thread) (p : BitVec 53) (l : List LoopLevel) (b : Bool) : (t.goTo p l b).empty = t.empty := rfl
@[simp] theorem Thread.pending_goTo (t : Thread) (p : BitVec 53) (l : List LoopLevel) (b : Bool) : (t.goTo p l b).pending = t.pending := rfl
@[simp] theorem Thread.csr_goTo (t : Thread) (p : BitVec 53) (l : List LoopLevel) (b : Bool) : (t.goTo p l b).csr = t.csr := rfl
@[simp] theorem Thread.run_goTo (t : Thread) (p : BitVec 53) (l : List LoopLevel) (b : Bool) : (t.goTo p l b).run = t.run := rfl
@[simp] theorem Thread.held_goTo (t : Thread) (p : BitVec 53) (l : List LoopLevel) (b : Bool) : (t.goTo p l b).held = t.held := rfl
@[simp] theorem Thread.arriving_goTo (t : Thread) (p : BitVec 53) (l : List LoopLevel) (b : Bool) : (t.goTo p l b).arriving = t.arriving := rfl
@[simp] theorem Thread.startCheck_goTo (t : Thread) (p : BitVec 53) (l : List LoopLevel) (b : Bool) : (t.goTo p l b).startCheck = t.startCheck := rfl
@[simp] theorem Thread.async_goTo (t : Thread) (p : BitVec 53) (l : List LoopLevel) (b : Bool) : (t.goTo p l b).async = t.async := rfl
@[simp] theorem Thread.timerDue_goTo (t : Thread) (p : BitVec 53) (l : List LoopLevel) (b : Bool) : (t.goTo p l b).timerDue = t.timerDue := rfl
@[simp] theorem Thread.faultSeq_goTo (t : Thread) (p : BitVec 53) (l : List LoopLevel) (b : Bool) : (t.goTo p l b).faultSeq = t.faultSeq := rfl
@[simp] theorem Thread.walking_goTo (t : Thread) (p : BitVec 53) (l : List LoopLevel) (b : Bool) : (t.goTo p l b).walking = t.walking := rfl
@[simp] theorem Thread.saveAt_goTo (t : Thread) (p : BitVec 53) (l : List LoopLevel) (b : Bool) : (t.goTo p l b).saveAt = t.saveAt := rfl
@[simp] theorem Thread.saveTo_goTo (t : Thread) (p : BitVec 53) (l : List LoopLevel) (b : Bool) : (t.goTo p l b).saveTo = t.saveTo := rfl
@[simp] theorem Thread.forced_goTo (t : Thread) (p : BitVec 53) (l : List LoopLevel) (b : Bool) : (t.goTo p l b).forced = t.forced := rfl
@[simp] theorem Thread.haltSaved_goTo (t : Thread) (p : BitVec 53) (l : List LoopLevel) (b : Bool) : (t.goTo p l b).haltSaved = t.haltSaved := rfl
@[simp] theorem Thread.frc_goTo (t : Thread) (p : BitVec 53) (l : List LoopLevel) (b : Bool) : (t.goTo p l b).frc = t.frc := rfl
@[simp] theorem Thread.lanes_goTo (t : Thread) (p : BitVec 53) (l : List LoopLevel) (b : Bool) : (t.goTo p l b).lanes = t.lanes := rfl
@[simp] theorem Thread.laneReq_goTo (t : Thread) (p : BitVec 53) (l : List LoopLevel) (b : Bool) : (t.goTo p l b).laneReq = t.laneReq := rfl
@[simp] theorem Thread.vec_goTo (t : Thread) (p : BitVec 53) (l : List LoopLevel) (b : Bool) : (t.goTo p l b).vec = t.vec := rfl
@[simp] theorem Thread.vseq_goTo (t : Thread) (p : BitVec 53) (l : List LoopLevel) (b : Bool) : (t.goTo p l b).vseq = t.vseq := rfl
@[simp] theorem Thread.vq_goTo (t : Thread) (p : BitVec 53) (l : List LoopLevel) (b : Bool) : (t.goTo p l b).vq = t.vq := rfl
@[simp] theorem Thread.log_goTo (t : Thread) (p : BitVec 53) (l : List LoopLevel) (b : Bool) : (t.goTo p l b).log = t.log := rfl
@[simp] theorem Thread.pipes_goTo (t : Thread) (p : BitVec 53) (l : List LoopLevel) (b : Bool) : (t.goTo p l b).pipes = t.pipes := rfl
@[simp] theorem Thread.convoyOpen_goTo (t : Thread) (p : BitVec 53) (l : List LoopLevel) (b : Bool) : (t.goTo p l b).convoyOpen = t.convoyOpen := rfl
@[simp] theorem Thread.restored_goTo (t : Thread) (p : BitVec 53) (l : List LoopLevel) (b : Bool) : (t.goTo p l b).restored = t.restored := rfl
@[simp] theorem Thread.accQuota_goTo (t : Thread) (p : BitVec 53) (l : List LoopLevel) (b : Bool) : (t.goTo p l b).accQuota = t.accQuota := rfl
@[simp] theorem Thread.acc_goTo (t : Thread) (p : BitVec 53) (l : List LoopLevel) (b : Bool) : (t.goTo p l b).acc = t.acc := rfl
@[simp] theorem Thread.taskSeq_goTo (t : Thread) (p : BitVec 53) (l : List LoopLevel) (b : Bool) : (t.goTo p l b).taskSeq = t.taskSeq := rfl
@[simp] theorem Thread.barWait_goTo (t : Thread) (p : BitVec 53) (l : List LoopLevel) (b : Bool) : (t.goTo p l b).barWait = t.barWait := rfl
@[simp] theorem Thread.drained_goTo (t : Thread) (p : BitVec 53) (l : List LoopLevel) (b : Bool) : (t.goTo p l b).drained = t.drained := rfl
@[simp] theorem Thread.recSeq_goTo (t : Thread) (p : BitVec 53) (l : List LoopLevel) (b : Bool) : (t.goTo p l b).recSeq = t.recSeq := rfl
@[simp] theorem Thread.late_goTo (t : Thread) (p : BitVec 53) (l : List LoopLevel) (b : Bool) : (t.goTo p l b).late = t.late := rfl
@[simp] theorem Thread.latePend_goTo (t : Thread) (p : BitVec 53) (l : List LoopLevel) (b : Bool) : (t.goTo p l b).latePend = t.latePend := rfl
@[simp] theorem Thread.lateAt_goTo (t : Thread) (p : BitVec 53) (l : List LoopLevel) (b : Bool) : (t.goTo p l b).lateAt = t.lateAt := rfl
@[simp] theorem Thread.popped_goTo (t : Thread) (p : BitVec 53) (l : List LoopLevel) (b : Bool) : (t.goTo p l b).popped = [] := rfl
@[simp] theorem Thread.reserved_goTo (t : Thread) (p : BitVec 53) (l : List LoopLevel) (b : Bool) : (t.goTo p l b).reserved = [] := rfl
@[simp] theorem Thread.walkVa_goTo (t : Thread) (p : BitVec 53) (l : List LoopLevel) (b : Bool) : (t.goTo p l b).walkVa = t.walkVa := rfl
@[simp] theorem Thread.walkAcc_goTo (t : Thread) (p : BitVec 53) (l : List LoopLevel) (b : Bool) : (t.goTo p l b).walkAcc = t.walkAcc := rfl
@[simp] theorem Thread.noCode_goTo (t : Thread) (p : BitVec 53) (l : List LoopLevel) (b : Bool) : (t.goTo p l b).noCode = none := rfl
@[simp] theorem Thread.convoy_goTo (t : Thread) (p : BitVec 53) (l : List LoopLevel) (b : Bool) : (t.goTo p l b).convoy = t.convoy := rfl
@[simp] theorem Thread.sending_goTo (t : Thread) (p : BitVec 53) (l : List LoopLevel) (b : Bool) : (t.goTo p l b).sending = [] := rfl

/-! ### Thread.trapReturn -/

@[simp] theorem Thread.uid_trapReturn (t : Thread) : t.trapReturn.uid = t.uid := by simp [Thread.trapReturn]
@[simp] theorem Thread.ctx_trapReturn (t : Thread) : t.trapReturn.ctx = t.ctx := by simp [Thread.trapReturn]
@[simp] theorem Thread.crew_trapReturn (t : Thread) : t.trapReturn.crew = t.crew := by simp [Thread.trapReturn]
@[simp] theorem Thread.ord_trapReturn (t : Thread) : t.trapReturn.ord = t.ord := by simp [Thread.trapReturn]
@[simp] theorem Thread.lid_trapReturn (t : Thread) : t.trapReturn.lid = t.lid := by simp [Thread.trapReturn]
@[simp] theorem Thread.tidx_trapReturn (t : Thread) : t.trapReturn.tidx = t.tidx := by simp [Thread.trapReturn]
@[simp] theorem Thread.lead_trapReturn (t : Thread) : t.trapReturn.lead = t.lead := by simp [Thread.trapReturn]
@[simp] theorem Thread.xfer_trapReturn (t : Thread) : t.trapReturn.xfer = t.xfer := by simp [Thread.trapReturn]
@[simp] theorem Thread.g_trapReturn (t : Thread) : t.trapReturn.g = t.g := by simp [Thread.trapReturn]
@[simp] theorem Thread.empty_trapReturn (t : Thread) : t.trapReturn.empty = t.empty := by simp [Thread.trapReturn]
@[simp] theorem Thread.pending_trapReturn (t : Thread) : t.trapReturn.pending = t.pending := by simp [Thread.trapReturn]
@[simp] theorem Thread.run_trapReturn (t : Thread) : t.trapReturn.run = t.run := by simp [Thread.trapReturn]
@[simp] theorem Thread.held_trapReturn (t : Thread) : t.trapReturn.held = t.held := by simp [Thread.trapReturn]
@[simp] theorem Thread.arriving_trapReturn (t : Thread) : t.trapReturn.arriving = t.arriving := by simp [Thread.trapReturn]
@[simp] theorem Thread.startCheck_trapReturn (t : Thread) : t.trapReturn.startCheck = t.startCheck := by simp [Thread.trapReturn]
@[simp] theorem Thread.async_trapReturn (t : Thread) : t.trapReturn.async = t.async := by simp [Thread.trapReturn]
@[simp] theorem Thread.timerDue_trapReturn (t : Thread) : t.trapReturn.timerDue = t.timerDue := by simp [Thread.trapReturn]
@[simp] theorem Thread.faultSeq_trapReturn (t : Thread) : t.trapReturn.faultSeq = t.faultSeq := by simp [Thread.trapReturn]
@[simp] theorem Thread.walking_trapReturn (t : Thread) : t.trapReturn.walking = t.walking := by simp [Thread.trapReturn]
@[simp] theorem Thread.saveAt_trapReturn (t : Thread) : t.trapReturn.saveAt = t.saveAt := by simp [Thread.trapReturn]
@[simp] theorem Thread.saveTo_trapReturn (t : Thread) : t.trapReturn.saveTo = t.saveTo := by simp [Thread.trapReturn]
@[simp] theorem Thread.forced_trapReturn (t : Thread) : t.trapReturn.forced = t.forced := by simp [Thread.trapReturn]
@[simp] theorem Thread.haltSaved_trapReturn (t : Thread) : t.trapReturn.haltSaved = t.haltSaved := by simp [Thread.trapReturn]
@[simp] theorem Thread.frc_trapReturn (t : Thread) : t.trapReturn.frc = t.frc := by simp [Thread.trapReturn]
@[simp] theorem Thread.lanes_trapReturn (t : Thread) : t.trapReturn.lanes = t.lanes := by simp [Thread.trapReturn]
@[simp] theorem Thread.laneReq_trapReturn (t : Thread) : t.trapReturn.laneReq = t.laneReq := by simp [Thread.trapReturn]
@[simp] theorem Thread.vec_trapReturn (t : Thread) : t.trapReturn.vec = t.vec := by simp [Thread.trapReturn]
@[simp] theorem Thread.vseq_trapReturn (t : Thread) : t.trapReturn.vseq = t.vseq := by simp [Thread.trapReturn]
@[simp] theorem Thread.vq_trapReturn (t : Thread) : t.trapReturn.vq = t.vq := by simp [Thread.trapReturn]
@[simp] theorem Thread.accQuota_trapReturn (t : Thread) : t.trapReturn.accQuota = t.accQuota := by simp [Thread.trapReturn]
@[simp] theorem Thread.acc_trapReturn (t : Thread) : t.trapReturn.acc = t.acc := by simp [Thread.trapReturn]
@[simp] theorem Thread.taskSeq_trapReturn (t : Thread) : t.trapReturn.taskSeq = t.taskSeq := by simp [Thread.trapReturn]
@[simp] theorem Thread.barWait_trapReturn (t : Thread) : t.trapReturn.barWait = t.barWait := by simp [Thread.trapReturn]
@[simp] theorem Thread.drained_trapReturn (t : Thread) : t.trapReturn.drained = t.drained := by simp [Thread.trapReturn]
@[simp] theorem Thread.recSeq_trapReturn (t : Thread) : t.trapReturn.recSeq = t.recSeq := by simp [Thread.trapReturn]
@[simp] theorem Thread.late_trapReturn (t : Thread) : t.trapReturn.late = t.late := by simp [Thread.trapReturn]
@[simp] theorem Thread.latePend_trapReturn (t : Thread) : t.trapReturn.latePend = t.latePend := by simp [Thread.trapReturn]
@[simp] theorem Thread.lateAt_trapReturn (t : Thread) : t.trapReturn.lateAt = t.lateAt := by simp [Thread.trapReturn]
@[simp] theorem Thread.popped_trapReturn (t : Thread) : t.trapReturn.popped = [] := by simp [Thread.trapReturn]
@[simp] theorem Thread.reserved_trapReturn (t : Thread) : t.trapReturn.reserved = [] := by simp [Thread.trapReturn]
@[simp] theorem Thread.walkVa_trapReturn (t : Thread) : t.trapReturn.walkVa = t.walkVa := by simp [Thread.trapReturn]
@[simp] theorem Thread.walkAcc_trapReturn (t : Thread) : t.trapReturn.walkAcc = t.walkAcc := by simp [Thread.trapReturn]
@[simp] theorem Thread.noCode_trapReturn (t : Thread) : t.trapReturn.noCode = none := by simp [Thread.trapReturn]
@[simp] theorem Thread.convoy_trapReturn (t : Thread) : t.trapReturn.convoy = t.convoy := by simp [Thread.trapReturn]
@[simp] theorem Thread.sending_trapReturn (t : Thread) : t.trapReturn.sending = [] := by simp [Thread.trapReturn]

@[simp] theorem Thread.pc_goTo (t : Thread) (p : BitVec 53) (l : List LoopLevel) (b : Bool) : (t.goTo p l b).pc = p := rfl
@[simp] theorem Thread.loops_goTo (t : Thread) (p : BitVec 53) (l : List LoopLevel) (b : Bool) : (t.goTo p l b).loops = l := rfl
@[simp] theorem Thread.landing_goTo (t : Thread) (p : BitVec 53) (l : List LoopLevel) (b : Bool) : (t.goTo p l b).landing = b := rfl
@[simp] theorem Thread.stage_goTo (t : Thread) (p : BitVec 53) (l : List LoopLevel) (b : Bool) : (t.goTo p l b).stage = 0 := rfl
@[simp] theorem Thread.getG_goTo (t : Thread) (p : BitVec 53) (l : List LoopLevel) (b : Bool) (r : Reg) :
    (t.goTo p l b).getG r = t.getG r := rfl
@[simp] theorem Thread.getG_note (t : Thread) (u : Undo) (r : Reg) : (t.note u).getG r = t.getG r := by
  simp [Thread.getG]
@[simp] theorem Thread.getG_setCsr (t : Thread) (n : Nat) (v : Word) (r : Reg) : (t.setCsr n v).getG r = t.getG r := by
  simp [Thread.getG]

/-- g0 reads as 0 (R66). -/
@[simp] theorem Thread.getG_zero (t : Thread) : t.getG 0 = 0 := by simp [Thread.getG]

/-- A write to g0 is discarded (R66). -/
@[simp] theorem Thread.setG_zero (t : Thread) (v : Word) : t.setG 0 v = t := by simp [Thread.setG]

theorem Thread.getG_putG_same (t : Thread) (r : Reg) (v : Word) (h : r ≠ 0) : (t.putG r v).getG r = v := by
  unfold Thread.getG Thread.putG
  rw [if_neg h, if_neg h]
  exact Tab.get_set_same _ _ _ _

theorem Thread.getG_putG_other (t : Thread) {r q : Reg} (v : Word) (h : q ≠ r) : (t.putG r v).getG q = t.getG q := by
  unfold Thread.putG
  split
  · rfl
  · have : q.toNat ≠ r.toNat := fun e => h (BitVec.eq_of_toNat_eq e)
    simp [Thread.getG, Tab.get_set_other _ _ _ this]

theorem Thread.getG_setG_same (t : Thread) (r : Reg) (v : Word) (h : r ≠ 0) : (t.setG r v).getG r = v := by
  unfold Thread.setG
  rw [if_neg h, Thread.getG_putG_same _ _ _ h]

theorem Thread.getG_setG_other (t : Thread) {r q : Reg} (v : Word) (h : q ≠ r) : (t.setG r v).getG q = t.getG q := by
  unfold Thread.setG
  split
  · rfl
  · rw [Thread.getG_putG_other _ _ h, Thread.getG_note]

/-! ### Masks of registers -/

theorem getLsbD_maskSet (m : BitVec 32) (i j : Nat) (b : Bool) (h : j < 32) :
    (maskSet m i b).getLsbD j = if j = i then b else m.getLsbD j := by
  have hb : (BitVec.ofNat 32 (2 ^ i)).getLsbD j = decide (i = j) := by
    rw [BitVec.getLsbD_ofNat, Nat.testBit_two_pow]; simp [h]
  unfold maskSet
  by_cases e : j = i
  · subst e
    cases b <;> simp only [if_true, if_false, Bool.false_eq_true, BitVec.getLsbD_or, BitVec.getLsbD_and, BitVec.getLsbD_not, hb] <;> simp [h]
  · have e' : ¬ i = j := fun x => e x.symm
    cases b <;> simp only [if_true, if_false, Bool.false_eq_true, BitVec.getLsbD_or, BitVec.getLsbD_and, BitVec.getLsbD_not, hb] <;> simp [h, e, e']

theorem maskSet_same (m : BitVec 32) (i : Nat) (b : Bool) (h : i < 32) : (maskSet m i b).getLsbD i = b := by
  rw [getLsbD_maskSet m i i b h, if_pos rfl]

theorem maskSet_other (m : BitVec 32) {i j : Nat} (b : Bool) (h : j ≠ i) : (maskSet m i b).getLsbD j = m.getLsbD j := by
  by_cases hj : j < 32
  · rw [getLsbD_maskSet m i j b hj, if_neg h]
  · rw [BitVec.getLsbD_of_ge _ _ (by omega : 32 ≤ j), BitVec.getLsbD_of_ge _ _ (by omega : 32 ≤ j)]

/-- A register that was written is full (R68). -/
theorem Thread.full_putG_same (t : Thread) (r : Reg) (v : Word) : (t.putG r v).full r = true := by
  unfold Thread.putG
  split
  · rename_i h; simp [Thread.full, h]
  · simp [Thread.full, maskSet_same _ _ _ r.isLt]

theorem Thread.full_putG_other (t : Thread) {r q : Reg} (v : Word) (h : q ≠ r) : (t.putG r v).full q = t.full q := by
  unfold Thread.putG
  split
  · rfl
  · have : q.toNat ≠ r.toNat := fun e => h (BitVec.eq_of_toNat_eq e)
    simp [Thread.full, maskSet_other _ _ this]

end Sys2Proof.Machine
end

