-- ==== Sys2Proof/Laws/Issue.lean ====
section
/-! SUPPORT. What the issue of an instruction can do, said once: operands, destinations, the gate and the ends of a turn. -/

namespace Sys2Proof.Machine

/-! ### Reading operands -/

theorem State.readSrcs_frame (s : State) (l : List Reg) :
    (s.readSrcs l).2 = { s with cores := (s.readSrcs l).2.cores } := by
  induction l generalizing s with
  | nil => rfl
  | cons r l ih =>
    unfold State.readSrcs
    split
    · rename_i i _
      exact (ih (s.setCore s.curCore ((s.core s.curCore).setQueue i ((s.core s.curCore).queue i |>.pop s.now).2))).trans rfl
    · exact ih s

@[simp] theorem State.cur_readSrcs (s : State) (l : List Reg) : (s.readSrcs l).2.cur = s.cur := by
  rw [State.readSrcs_frame]

/-- Reading operands changes no thread. -/
theorem State.thrOf_readSrcs (s : State) (l : List Reg) (a : Actor) : (s.readSrcs l).2.thrOf a = s.thrOf a := by
  induction l generalizing s with
  | nil => rfl
  | cons r l ih =>
    unfold State.readSrcs
    split
    · rename_i i _
      refine (ih (s.setCore s.curCore ((s.core s.curCore).setQueue i ((s.core s.curCore).queue i |>.pop s.now).2))).trans ?_
      cases a with
      | slot k j =>
        by_cases h : k = s.curCore
        · subst h; simp [State.thrOf, Core.setQueue]
        · simp [State.thrOf, State.core_setCore_other _ _ h]
      | episode x => rfl
    · exact ih s

@[simp] theorem State.thr_readSrcs (s : State) (l : List Reg) : (s.readSrcs l).2.thr = s.thr := by
  simp [State.thr, State.thrOf_readSrcs]

@[simp] theorem State.thr_opened (s : State) (l : List Reg) : (s.opened l).thr = s.thr := State.thr_readSrcs s l
@[simp] theorem State.cur_opened (s : State) (l : List Reg) : (s.opened l).cur = s.cur := State.cur_readSrcs s l

/-- As many operands are read as there are sources. -/
theorem State.length_operands (s : State) (l : List Reg) : (s.operands l).length = l.length := by
  unfold State.operands
  induction l generalizing s with
  | nil => rfl
  | cons r l ih =>
    unfold State.readSrcs
    split <;> simp [ih]

/-! ### Writing a destination -/

theorem Thread.log_setG_le (t : Thread) (r : Reg) (v : Word) : (t.setG r v).log.length ≤ t.log.length + 1 := by
  unfold Thread.setG
  split
  · omega
  · simp only [Thread.log_putG, Thread.note]
    split <;> simp

/-- An instruction that begins has no entry of its own yet. -/
theorem State.claim_stage_zero (s : State) (i : Nat) (h : s.thr.stage = 0) : s.claim i = none := by simp [State.claim, h]

/-- A claim takes a reservation off the list of the thread, and changes nothing else. -/
theorem State.claim_spec (s s' : State) (i tag : Nat) (h : s.claim i = some (tag, s')) :
    ∃ l, s' = s.setThr { s.thr with reserved := l } := by
  simp only [State.claim] at h
  split at h
  · cases h
  · split at h
    · cases h; exact ⟨_, rfl⟩
    · cases h

/-- A core's queues play no part in its threads. -/
theorem State.thr_setQueue (s : State) (k i : Nat) (q : Queue) : (s.setCore k ((s.core k).setQueue i q)).thr = s.thr := by
  show State.thrOf _ s.cur = s.thrOf s.cur
  generalize s.cur = a
  cases a with
  | slot c j =>
    by_cases h : c = k
    · subst h; simp [State.thrOf, State.core, State.setCore, Core.setQueue]
    · simp [State.thrOf, State.core, State.setCore, Tab.get_set_other _ _ _ h]
  | episode x => rfl

theorem State.cur_putDst (s : State) (r : Reg) (v : Word) (lat : Nat) : (s.putDst r v lat).cur = s.cur := by
  unfold State.putDst
  split
  · split
    · rename_i h
      obtain ⟨l, rfl⟩ := State.claim_spec _ _ _ _ h
      simp
    · simp
  · simp

/-- A destination's write makes at most one entry of the shadow log. -/
theorem State.log_putDst_le (s : State) (r : Reg) (v : Word) (lat : Nat) :
    (s.putDst r v lat).thr.log.length ≤ s.thr.log.length + 1 := by
  unfold State.putDst
  split
  · rename_i i _
    split
    · rename_i s' h
      obtain ⟨l, rfl⟩ := State.claim_spec _ _ _ _ h
      rw [Core.fillEntry, State.thr_setQueue, State.thr_setThr]; simp
    · have : (State.thr { (s.setCore s.curCore ((s.core s.curCore).setQueue i
          (((s.core s.curCore).queue i).reserve s.nextId s.now (some (v, s.now + lat))))) with nextId := s.nextId + 1 }) = s.thr :=
        State.thr_setQueue s s.curCore i _
      rw [this]; omega
  · rw [State.thr_setThr]; exact Thread.log_setG_le _ _ _

/-! ### The gate and the end of a turn -/

/-- Where an instruction exists (R49, check 6). -/
def Form.exists_ (f : Form) (a : Actor) : Prop := ¬ ((f.sub == 1 && a.isEpisode) || (f.sub == 2 && !a.isEpisode)) = true

/-- An instruction that exists where it is, whose privilege is there, and that can issue, reads its operands. -/
theorem gate_go' (f : Form) (s : State) (hsub : f.exists_ s.cur) (hpriv : f.priv ≤ s.privilege s.cur) (hpre : f.pre = none)
    (h : s.canIssue f.srcs f.dsts f.leaves) : gate f s = .go (s.opened f.srcs) (s.operands f.srcs) := by
  obtain ⟨h1, h2, h3⟩ := h
  simp only [gate]
  rw [if_neg hsub, if_neg (Nat.not_lt.2 hpriv), if_neg (fun hc => hc h1)]
  simp only [hpre]
  rw [if_neg, if_neg (by simp [h2])]
  · rfl
  · intro hc
    simp only [Bool.and_eq_true, Bool.or_eq_true, List.any_eq_true] at hc
    obtain ⟨hl, hm⟩ := h3 hc.1
    rcases hc.2 with hc | ⟨r, hr, hc⟩
    · simp [hl] at hc
    · simp [hm r hr] at hc

/-- An instruction of user privilege that exists everywhere reads its operands. -/
theorem gate_go (f : Form) (s : State) (hsub : f.sub = 0) (hpriv : f.priv = 0) (hpre : f.pre = none)
    (h : s.canIssue f.srcs f.dsts f.leaves) : gate f s = .go (s.opened f.srcs) (s.operands f.srcs) :=
  gate_go' f s (by simp [Form.exists_, hsub]) (by omega) hpre h

theorem issue_of_gate (f : Form) (body : State → List Word → Res) (s s' : State) (xs : List Word)
    (h : gate f s = .go s' xs) : issue f body s = .next (settle f s xs (body s' xs)) := by
  simp [issue, h]

/-- A change of pc that passes R89, or needs no check, goes on. -/
theorem State.checked_ok (s : State) (need : Bool) (target : BitVec 53) (go : State)
    (h : need = true → s.targetOk s.cur target = true) : s.checked need target go = go := by
  unfold State.checked
  cases need
  · rfl
  · have h : s.targetLook s.cur target = .ok := by simpa [State.targetOk] using h rfl
    simp [h]

/-- Where the next instruction in sequence may be reached, the turn goes on. -/
theorem State.checked_nextOk (s : State) (go : State) (h : s.nextOk) : s.checked (s.seqChecked s.cur) s.thr.seqNext.1 go = go := by
  refine State.checked_ok s _ _ go (fun hc => ?_)
  have h : s.seqOk s.cur = true := h
  simpa [State.seqOk, hc, State.thr] using h

/-- Completion in sequence. -/
theorem settle_done (f : Form) (s s' : State) (xs vs : List Word) (hseq : s.nextOk) (hst : s.thr.stage = 0)
    (hroom : (s'.putDsts f.dsts vs f.lat).logRoom = true) :
    settle f s xs (.done s' vs) = (s'.putDsts f.dsts vs f.lat).complete s.cur := by
  simp [settle, State.checked_nextOk s _ hseq, hroom, hst]

/-- A form that reads `srcs` and writes one result to `d`. -/
theorem issue_gives (w : Nat) (srcs : List Reg) (d : Reg) (f : State → List Word → Word) (body : State → List Word → Res)
    (hb : ∀ s xs, body (s.opened srcs) xs = .done (s.opened srcs) [f s xs]) (s : State) (h : s.canIssue srcs [d] false) (hn : s.nextOk)
    (hr : s.hasRoom 1) :
    issue { word := w, srcs := srcs, dsts := [d] } body s = .next (s.writes srcs d (f s (s.operands srcs))) := by
  rw [issue_of_gate _ _ _ _ _ (gate_go { word := w, srcs := srcs, dsts := [d] } s rfl rfl rfl h), hb]
  rw [settle_done { word := w, srcs := srcs, dsts := [d] } s (s.opened srcs) _ _ hn h.1]
  · rfl
  · have := State.log_putDst_le (s.opened srcs) d (f s (s.operands srcs)) 3
    rw [State.thr_opened] at this
    unfold State.hasRoom at hr
    exact decide_eq_true (Nat.le_trans this hr)

theorem unaryOp_gives (w : Nat) (a d : Reg) (f : Word → Word) (s : State) (h : s.canIssue [a] [d] false) (hn : s.nextOk)
    (hr : s.hasRoom 1) : unaryOp w a d f s = .next (s.writes [a] d (f ((s.operands [a]).getD 0 0))) :=
  issue_gives w [a] d (fun _ xs => f (xs.getD 0 0)) _ (fun _ _ => rfl) s h hn hr

theorem binaryOp_gives (w : Nat) (a b d : Reg) (f : Word → Word → Word) (s : State) (h : s.canIssue [a, b] [d] false) (hn : s.nextOk)
    (hr : s.hasRoom 1) :
    binaryOp w b a d f s = .next (s.writes [a, b] d (f ((s.operands [a, b]).getD 0 0) ((s.operands [a, b]).getD 1 0))) :=
  issue_gives w [a, b] d (fun _ xs => f (xs.getD 0 0) (xs.getD 1 0)) _ (fun _ _ => rfl) s h hn hr

end Sys2Proof.Machine
end

