-- ==== Sys2Proof/Tests/Slice0.lean ====
section
/-! SUPPORT. Tests of the decoder, the well-formedness checks and single steps, with expected values from the spec's own words and worked
examples, and for each statement with hypotheses a state and operands that meet them. -/

open Sys2Proof Sys2Proof.Machine

namespace Sys2Proof.Tests

/-! ### States -/

/-- Slot 0 of core 0, the supervisor's, at an instruction, its registers as given, its turn next. -/
def demo (w : Nat) (g : List (Nat × Word)) : State :=
  let s := State.reset.withFetchWord 32 w
  s.setThrOf (.slot 0 0) { s.thrOf (.slot 0 0) with g := g }

/-- A user thread in slot 1 of core 0, whose crew has one row of scratchpad, on its turn. -/
def user (t : Thread) : State :=
  let s := (demo 0x0000000B []).setThrOf (.slot 0 1) { t with crew := 1 }
  { (s.setCore 0 { s.core 0 with crews := [(1, { rows := 1 })] }) with rot := [], cur := .slot 0 1 }

/-- Its thread at 0x10000, with registers as given. -/
def idleThr (g : List (Nat × Word)) : Thread := { pc := 0x10000, g := g }

/-- The same on its turn. -/
def turn (g : List (Nat × Word)) : State := user (idleThr g)

/-- Slot 0 of core 0, of system privilege, on its turn. -/
def sysTurn (g : List (Nat × Word)) : State := { demo 0x0000000B g with rot := [], cur := .slot 0 0 }

/-- Episode context 0 on its turn, with a text of 16 bytes and an empty window. -/
def epTurn (g : List (Nat × Word)) : State :=
  let s := demo 0x0000000B []
  { s with rot := [], cur := .episode 0,
           episodes := [(0, { thr := { g := g }, textLen := 16, budget := 100, turn := .A })] }

/-- The core 0 of a state changed. -/
def core0 (s : State) (f : Core → Core) : State := s.setCore 0 (f (s.core 0))

/-- A leaf (R164): V, LEAF, R, W, SYNC, CA, and a frame. -/
def leafWord (frame ca : Nat) (sync : Bool) : Word := BitVec.ofNat 64 (15 + (if sync then 32 else 0) + ca * 64 + frame * 2 ^ 20)

/-- A page of 64 KiB in the TLB of core 0: virtual page `p` of context 0 at frame `p`, R, W, with CA and SYNC as given. -/
def tlb0 (s : State) (p ca : Nat) (sync : Bool) : State :=
  core0 s (fun c => { c with tlb := [{ ctx := 0, page := p, shift := 16, leaf := leafWord p ca sync }] })

/-- With a page of data besides, at 0x20000, R and W, in frame 6. -/
def withData (s : State) : State := { s with mem := s.mem.writeLE 0x42010 8 (leafWord 6 0 false).toNat }

/-- The state an instruction leads to. -/
def nextOf (o : Host.Outcome State Fault Refusal) : State :=
  match o with
  | .next t => t
  | _ => State.reset

theorem ready (s : State) (srcs dsts : List Reg) (leaves : Bool) (n : Nat)
    (h : (s.thr.stage == 0 && s.operandsReady srcs dsts && !s.thr.runAhead && s.seqOk s.cur && decide (s.thr.log.length + n ≤ 16)) = true) :
    s.canIssue srcs dsts leaves ∧ s.nextOk ∧ s.hasRoom n := by
  simp only [Bool.and_eq_true, beq_iff_eq, Bool.not_eq_true', decide_eq_true_eq] at h
  exact ⟨⟨h.1.1.1.1, h.1.1.1.2, fun hr => by simp [h.1.1.2] at hr⟩, h.1.2, h.2⟩

/-! ### Words of the spec, one at least of each major -/

theorem test_decode_load : decodeTableWord 32 0x00072683 = some (.ldw 0 14 13) := by decide -- LDW g13, 0(g14)
theorem test_decode_store : decodeTableWord 32 0xFE320F87 = some (.stb 0xFFF 3 4) := by decide -- STB g3, −1(g4)
theorem test_decode_opi : decodeTableWord 32 0x8075648B = some (.srai 7 10 9) := by decide -- SRAI g9, g10, 7
theorem test_decode_op : decodeTableWord 32 0x2231008F = some (.mulhu 3 2 1) := by decide -- MULHU g1, g2, g3
theorem test_decode_opw : decodeTableWord 32 0x0C940413 = some (.divw 9 8 8) := by decide -- DIVW g8, g8, g9
theorem test_decode_lui : decodeTableWord 32 0x12345297 = some (.lui 0x12345 5) := by decide -- LUI g5, 0x12345
theorem test_decode_apc : decodeTableWord 32 0xFFFFF11B = some (.apc 0xFFFFF 2) := by decide -- R82: imm20, d 2, 0x1B
theorem test_decode_branch : decodeTableWord 32 0x0052019F = some (.beq 3 5 4) := by decide -- BEQ g4, g5, +12
theorem test_decode_jal : decodeTableWord 32 0x000400A3 = some (.jal 0x40 1) := by decide -- JAL g1, +256
theorem test_decode_jalr : decodeTableWord 32 0x00008027 = some (.jalr 0 1 0) := by decide -- JALR g0, 0(g1)
theorem test_decode_loop : decodeTableWord 32 0x0051922B = some (.loopi 5 100) := by decide -- LOOPI 100, 5
theorem test_decode_ptr : decodeTableWord 32 0x00E2B32F = some (.psetf 0 14 5 6) := by decide -- PSETF g6, g5, 14, 0
theorem test_decode_fpu : decodeTableWord 32 0x0AA49433 = some (.fma 10 9 1 8) := by decide -- FMA.D g8, g9, g10
theorem test_decode_vmem : decodeTableWord 32 0x04729237 = some (.vlds false false 7 5 4) := by decide -- VLDS v4, 0(g5), g7
theorem test_decode_vint : decodeTableWord 32 0x0020813B = some (.vadd false false 2 1 0 2) := by decide -- R35, R44: f5 0, vb 2, va 1, vd 2
theorem test_decode_vfp : decodeTableWord 32 0x147312BF = some (.vfma false false 7 6 1 5) := by decide -- VFMA v5, v6, g7
theorem test_decode_vperm : decodeTableWord 32 0x5401B543 = some (.vhwmClr false 3 10) := by decide -- VHWM g10, v3, CLR
theorem test_decode_mtx : decodeTableWord 32 0x060404C7 = some (.mtask 8 9) := by decide -- MTASK g9, g8
theorem test_decode_xcpy : decodeTableWord 32 0x006213CB = some (.xcopy 6 4 1 7) := by decide -- XCOPY.CH1 g7, g4, g6
theorem test_decode_msg : decodeTableWord 32 0x0285024F = some (.sendq 8 10 4) := by decide -- SENDQ g10, g8, 4
theorem test_decode_epi : decodeTableWord 32 0x048283D3 = some (.eprecv 8 5 7) := by decide -- EPRECV g7, g5, g8
theorem test_decode_amo : decodeTableWord 32 0x1463F2D7 = some (.amocas 2 6 7 3 true 5) := by decide -- AMOCAS.D.AR.PKG g5, g6, 0(g7)
theorem test_decode_sync : decodeTableWord 32 0x0212905B = some (.rel 1 5 1) := by decide -- REL.DIE g5
theorem test_decode_thr : decodeTableWord 32 0x0683805F = some (.tsave 8 7) := by decide -- TSAVE g7, g8
theorem test_decode_sys : decodeTableWord 32 0x01233063 = some (.csrc 0x012 6) := by decide -- CSRC 0x012, g6
theorem test_decode_zero_word : decodeNat 0 = .error .lowBits := rfl -- R49, check 1
theorem test_decode_ones : decodeNat 0xFFFFFFFF = .error .allOnes := rfl -- R49, check 2
theorem test_decode_future : decodeNat 0x67 = .error .future := rfl -- R49, check 3: major 25
theorem test_decode_tret_imm : decodeNat 0x00106063 = .error .badField := rfl -- R388: TRET with imm12 = 1

/-! ### Ill-formed terms, one for each check -/

theorem test_ill_formed_operands : ∀ i ∈ [Instr.pref 0 1 3, .loop 0 1, .loopi 0 1, .lidx 6 1, .fcvti 24 1 1 1, .fcvtf 24 1 1 1, .fcvtff 28 1 1 1,
    .fcvtff 5 1 1 1, .xfence 6 0 0, .xfence 0 6 0, .acq 0 1 1, .rel 0 1 1, .fence 0 1, .qwait 1 1 6 1, .bar 1 3, .fill 1 1 0, .empty 0],
    i.wellFormed = false := by decide
theorem test_ill_formed_vector : ∀ i ∈ [Instr.vadd false false 1 1 3 1, .vmul false false 1 1 3 1, .vceq false false 1 1 3 1,
    .vfadd false false 1 1 3 1, .vfceq false false 1 1 3 1, .vcvt false false 19 1 1, .vcvtSr false false 8 1 1, .vsplat false false 1 0 1,
    .vmvs false 1 1 0 1, .vslup false false 1 1 0 1, .vsldn false false 1 1 3 1, .vgathr false 1 3 1 1, .vmerge false 1 1 3 1],
    i.wellFormed = false := by decide
theorem test_ill_formed_groups : ∀ i ∈ [Instr.xcopy 2 1 0 1, .xcopy2 1 2 0 1, .xpln 0 2 0 1, .xfill 2 0 0 1, .xred 3 2 0 1, .xcoll 2 3 0 1,
    .mbput 0 2, .mbtake 0 0, .send 31 1 1 1, .recv 1 1 31, .recv 1 0 0], i.wellFormed = false := by decide

/-! ### Single steps -/

theorem test_step_adds : ((nextOf (step (demo 0x00F7070F [(14, 5), (15, 7)]))).thrOf (.slot 0 0)).getG 14 = 12 := by decide
theorem test_step_advances : ((nextOf (step (demo 0x00F7070F []))).thrOf (.slot 0 0)).pc = 0x10004 := by decide
theorem test_step_future_traps :
    let t := (nextOf (step { user (idleThr []) with mem := (demo 0x67 []).mem, rot := [.slot 0 1] })).thr
    t.csr.cause.toNat % 256 = 2 ∧ t.csr.tval = 0x67 ∧ t.csr.trappc = 0x10000 := by decide
theorem test_mulhu_high : (nextOf (exec (.mulhu 3 2 1) (turn [(2, 0xFFFFFFFFFFFFFFFF), (3, 2)]))).thr.getG 1 = 1 := by decide
theorem test_g0_discards : (nextOf (exec (.addi 5 0 0) (turn []))).thr.getG 0 = 0 := by decide
theorem test_srai_sign : (nextOf (exec (.srai 4 1 1) (turn [(1, 0x8000000000000000)]))).thr.getG 1 = 0xF800000000000000 := by decide
theorem test_addw_wraps : (nextOf (exec (.addw 2 1 3) (turn [(1, 0x7FFFFFFF), (2, 1)]))).thr.getG 3 = 0xFFFFFFFF80000000 := by decide
theorem test_apc_wraps : (nextOf (exec (.apc 0xFFFE0 1) (turn []))).thr.getG 1 = 0x1FFFFFFFFF0000 := by decide
theorem test_lui_sign : (nextOf (exec (.lui 0x80000 1) (turn []))).thr.getG 1 = 0xFFFFFFFF80000000 := by decide
theorem test_pgetf : (nextOf (exec (.pgetf 1 2) (turn [(1, 0x6E00000000000000)]))).thr.getG 2 = 0x30E := by decide
/-- R108: the pointer of its worked example, PADDI within the scratchpad, PADD past it, and the codes of PCHK. -/
theorem test_pchk_example :
    pchkCode true 0x600000A400012B3F 0 = 0 ∧ pchkCode true 0x600000A400082340 0 = 4 := by decide
theorem test_fneg_word : (nextOf (exec (.fneg 1 0 2) (turn [(1, 0x3F800000)]))).thr.getG 2 = 0xBF800000 := by decide
theorem test_loop_back : (nextOf (exec (.addi 0 0 0) (user { idleThr [] with loops := [{ count := 2, index := 0, start := 0x10000, stop := 0x10000 }] }))).thr.pc = 0x10000 := by
  decide
theorem test_padd_faults : (nextOf (exec (.paddi 0xFFF 1 2) (turn [(1, 0)]))).thr.csr.cause.toNat % 256 = 4 := by decide

/-! ### States that meet the hypotheses of the statements -/

/-- The clock's turn, and a slot's. -/
theorem witness_ClockRotatesSlots : let s := { turn [] with agenda := [none] }
    s.stopped = false ∧ s.agenda = none :: [] ∧ s.rot = [] ∧ ∀ p ∈ s.packets, p.due = none := by decide
theorem witness_StepRunsDecodedInstruction : let s := { turn [] with rot := [.slot 0 1] }
    s.stopped = false ∧ s.agenda = [] ∧ s.rot = .slot 0 1 :: [] ∧ s.live (.slot 0 1) = true ∧
    (let t := s.thrOf (.slot 0 1)
     t.saveAt = none ∧ t.run = .issuing ∧ t.held = false ∧ t.arriving = false ∧ t.async = [] ∧ t.timerDue = false ∧ t.csr.timer = 0 ∧
       t.drained = none ∧ t.startCheck = false ∧ t.faultSeq = none ∧ t.walking = none ∧ t.pc.toNat % 4 = 0 ∧
       ((s.ctx t.ctx).code.find? (fun x => t.pc.toNat / 2 ^ x.2.1 == x.1)).isSome = true ∧
       icacheLine t.ctx t.pc.toNat ∈ (s.core 0).icache ∧ s.poison = [] ∧ s.flawed = []) := by decide
/-- The turn goes through its checks to an instruction, to a future one, and to an illegal one. -/
theorem witness_StepRunsDecodedInstruction_words : ∀ w ∈ [(0x0000000B, 0), (0x67, 1), (0, 2)],
    let s := { { turn [] with mem := (demo w.1 []).mem, rot := [] } with cur := .slot 0 1 }
    (match s.beforeIssue 0 1 with
      | .ok s1 => (match decodeBytes (s1.fetchBytes (.slot 0 1)) with
        | .ok (j, _) => decide (w.2 = 0 ∧ j = .addi 0 0 0)
        | .error e => decide (w.2 = if e = .future then 1 else 2))
      | .error _ => false) = true := by decide
/-- The turn of a thread whose cache has not its line goes to the refill. -/
theorem witness_StepRunsDecodedInstruction_parks : let s := core0 (turn []) (fun c => { c with icache := [] })
    (match s.beforeIssue 0 1 with | .ok _ => false | .error _ => true) = true := by decide
/-- A pc on a page of code, and two on none: one that a TLB knows and one that it does not. -/
theorem witness_StepRunsDecodedInstruction_looks : let s := core0 (tlb0 (turn []) 2 0 false) (fun c => { c with icache := [] })
    let a := Actor.slot 0 1
    s.targetLook a 0x10000 = .ok ∧ icacheLine (s.thrOf a).ctx 0x10000 ∉ (s.core 0).icache ∧ s.targetLook a 0x20000 = .bad ∧
      s.targetLook a 0x30000 = .miss := by decide
/-- An actor without a thread. -/
theorem witness_StepRunsDecodedInstruction_none : (turn []).live (.slot 0 5) = false ∧ (turn []).live (.episode 3) = false := by decide
theorem witness_StepRunsDecodedInstruction_episode : let s := { epTurn [] with rot := [.episode 0] }
    ∃ e, s.stopped = false ∧ s.agenda = [] ∧ s.rot = .episode 0 :: [] ∧ Tab.find? s.episodes 0 = some e ∧ s.live (.episode 0) = true ∧
      e.overrun = false ∧ e.instr < e.budget := ⟨_, rfl, rfl, rfl, rfl, by decide, rfl, by decide⟩
theorem witness_StepKeepsMemoryCanonical : let s := demo 0x00F7070F [(14, 5), (15, 7)]
    s.memoryWf = true ∧ ∃ t, step s = .next t := ⟨by decide, _, rfl⟩
theorem witness_DecodeEncodeAgree : (Instr.addi 5 1 2).isEvent = false ∧ (Instr.addi 5 1 2).wellFormed = true ∧
    decodeTableWord 32 0x0050810B = some (.addi 5 1 2) := by decide
theorem witness_ReservedWordsRefused : ∃ w : BitVec 32, w.toNat % 4 = 3 ∧ w ≠ BitVec.allOnes 32 ∧ 25 ≤ w.toNat / 4 % 32 := ⟨0x67, by decide⟩

/-- An instruction that reads two registers and writes one issues, completes and has room; so it does with a queue for its destination. -/
theorem witness_Gives : (turn []).canIssue [1, 2] [3] false ∧ (turn []).nextOk ∧ (turn []).hasRoom 2 := ready _ _ _ _ _ (by decide)
theorem witness_Gives_three : (turn []).canIssue [1, 2, 3] [3] false ∧ (turn []).nextOk ∧ (turn []).hasRoom 2 := ready _ _ _ _ _ (by decide)
theorem witness_IntegerInstructionResults : (turn []).canIssue [1] [3] false ∧ (turn []).nextOk ∧ (turn []).hasRoom 1 := ready _ _ _ _ _ (by decide)
theorem witness_FloatSignAndCompareResults : (turn []).canIssue [1, 2] [3] false ∧ (turn []).nextOk ∧ (turn []).hasRoom 2 := ready _ _ _ _ _ (by decide)
theorem witness_Gives_none : (turn []).canIssue [] [3] false ∧ (turn []).nextOk ∧ (turn []).hasRoom 1 := ready _ _ _ _ _ (by decide)
theorem witness_Gives_episode : (epTurn []).canIssue [1, 2] [3] false ∧ (epTurn []).nextOk ∧ (epTurn []).hasRoom 2 := ready _ _ _ _ _ (by decide)
theorem witness_Gives_queue : let s := user { idleThr [] with csr := { qmap := 0xFF } }
    (s.canIssue [1, 2] [24] false ∧ s.nextOk ∧ s.hasRoom 1) ∧ (s.thr.mapped 24).isSome = true :=
  ⟨ready _ _ _ _ _ (by decide), by decide⟩
theorem witness_TurnFrames : Gives (.lui 5 3) [] 3 (fun _ _ => ((5 : BitVec 20) ++ (0 : BitVec 12)).signExtend 64) :=
  fun s h hn hr => issue_gives _ [] 3 (fun _ _ => ((5 : BitVec 20) ++ (0 : BitVec 12)).signExtend 64)
    (fun s _ => .done s [((5 : BitVec 20) ++ (0 : BitVec 12)).signExtend 64]) (fun _ _ => rfl) s h hn hr

theorem witness_IntegerDivideResults : ((turn []).core (turn []).cur.divCore).divs.length < 2 ∧ ((epTurn []).core (epTurn []).cur.divCore).divs.length < 2 ∧
    (let s := core0 (turn []) (fun c => { c with divs := [{ id := 7, slot := 1, dst := .reg 3, val := 5 }, { id := 8, slot := 1, dst := .reg 4, val := 5 }] })
     2 ≤ (s.core s.cur.divCore).divs.length) := by
  decide
theorem witness_IntegerDivideResults_lands : let s := core0 (turn []) (fun c => { c with divs := [{ id := 7, slot := 1, dst := .reg 3, val := 5 }] })
    (s.core 0).divs.find? (fun x => x.id == 7) = some { id := 7, slot := 1, dst := .reg 3, val := 5 } ∧ s.live (.slot 0 1) = true := by decide
theorem witness_BranchesAndJumps : let s := turn [(1, 5), (2, 5)]
    (s.canIssue [1, 2] [] false ∧ s.nextOk ∧ s.hasRoom 0) ∧ s.operands [1, 2] = [5, 5] ∧
      s.targetOk s.cur (BitVec.ofInt 53 (s.thr.pc.toNat + 4 * (4 : BitVec 12).toInt)) = true :=
  ⟨ready _ _ _ _ _ (by decide), by decide, by decide⟩
/-- Targets that no TLB maps: of a branch, of JAL and of JALR; and one that is no multiple of 4. -/
theorem witness_BranchesAndJumps_misses : let s := turn [(1, 0x60000)]
    s.targetLook s.cur (BitVec.ofInt 53 (s.thr.pc.toNat + 4 * (-2048 : BitVec 12).toInt)) = .miss ∧
      s.targetLook s.cur (BitVec.ofInt 53 ((s.operand [1] 0).toNat + (2 : BitVec 12).toInt)) = .bad ∧
      s.targetLook s.cur (BitVec.ofInt 53 (s.thr.pc.toNat + 4 * (0x20000 : BitVec 20).toInt)) = .miss ∧
      s.targetLook s.cur (BitVec.ofInt 53 ((s.operand [1] 0).toNat + (0 : BitVec 12).toInt)) = .miss := by decide
/-- At the end of the one page of code, a branch forward goes where nothing is mapped, and so does JALR. -/
theorem witness_BranchesAndJumps_refused : let s := user { idleThr [(1, 5), (2, 5)] with pc := 0x1FFFC }
    (s.canIssue [1, 2] [] false ∧ s.hasRoom 0) ∧ s.operands [1, 2] = [5, 5] ∧
      s.targetOk s.cur (BitVec.ofInt 53 (s.thr.pc.toNat + 4 * (4 : BitVec 12).toInt)) = false ∧
      s.canIssue [1] [3] false ∧ s.targetOk s.cur (BitVec.ofInt 53 ((s.operand [1] 0).toNat + (0 : BitVec 12).toInt)) = false :=
  ⟨⟨⟨rfl, by decide, by decide⟩, show (0 : Nat) ≤ 16 by decide⟩, by decide, by decide, ⟨rfl, by decide, by decide⟩, by decide⟩
theorem witness_BranchesAndJumps_links : let s := turn [(1, 0x10010)]
    s.hasRoom 1 ∧ s.canIssue [] [1] false ∧ s.canIssue [1] [1] false ∧
      s.targetOk s.cur (BitVec.ofInt 53 (s.thr.pc.toNat + 4 * (-1 : BitVec 20).toInt)) = false ∧
      s.targetOk s.cur (BitVec.ofInt 53 (s.thr.pc.toNat + 4 * (64 : BitVec 20).toInt)) = true ∧
      s.targetOk s.cur (BitVec.ofInt 53 ((s.operand [1] 0).toNat + (-16 : BitVec 12).toInt)) = true :=
  ⟨show (1 : Nat) ≤ 16 by decide, ⟨rfl, by decide, by decide⟩, ⟨rfl, by decide, by decide⟩, by decide, by decide, by decide⟩
/-- Level 0 ends at the pc, with an iteration to come and on its last; a second level ends there too. -/
theorem witness_SequencingStepsLoops : let l : LoopLevel := { count := 2, index := 0, start := 0x10000, stop := 0x10008 }
    let t := { idleThr [] with pc := 0x10008, loops := [l] }
    l.stop = t.pc ∧ l.index.toNat + 1 < l.count.toNat ∧ t.seqNext = (0x10000, [{ l with index := 1 }], true) ∧
      ({ t with loops := [{ l with index := 1 }] } : Thread).seqNext = (0x1000C, [], false) ∧
      ({ t with loops := [{ l with index := 1 }, l] } : Thread).seqNext = (0x10000, [{ l with index := 1 }], true) := by decide
theorem witness_LoopInstructionResults : let s := turn [(1, 0x100000000), (2, 3)]
    (s.canIssue [1] [] false ∧ s.nextOk ∧ s.hasRoom 0) ∧ (s.operand [1] 0).toNat = 2 ^ 32 ∧ (s.operand [2] 0).toNat = 3 ∧
      s.thr.loops.length ≠ 6 ∧ s.stepChecked = false ∧ (s.operand [3] 0).toNat = 0 ∧ s.targetOk s.cur (s.thr.pc + 4 * 2 + 4) = true :=
  ⟨ready _ _ _ _ _ (by decide), by decide, by decide, by decide, by decide, by decide, by decide⟩
/-- Six levels, the two innermost with one end; LBRK, LNEXT, LIDX and a LOOP of count 0 whose body ends there find their places. -/
theorem witness_LoopInstructionResults_levels : let l : LoopLevel := { count := 2, index := 0, start := 0x10000, stop := 0x10008 }
    let m : LoopLevel := { l with stop := 0x10010 }
    let s := user { idleThr [] with pc := 0x10004, loops := [l, l, m, m, m, m] }
    (s.canIssue [] [] false ∧ s.nextOk ∧ s.hasRoom 1) ∧ s.canIssue [] [1] false ∧ s.thr.loops.length = 6 ∧
      s.targetOk s.cur (l.stop + 4) = true ∧ m.stop ≠ l.stop ∧ l.stop = s.thr.pc + 4 * 1 ∧ s.thr.loops[5]? = some m :=
  ⟨ready _ _ _ _ _ (by decide), ⟨rfl, by decide, by decide⟩, rfl, by decide, by decide, by decide, rfl⟩
theorem witness_PointerInstructionResults : let s := turn [(1, 0x40), (2, 0xFFFFFFFFFFFFFFC0), (3, 0xFFFFFFFFFFFFFFBF)]
    (s.canIssue [1, 2] [4] false ∧ s.nextOk ∧ s.hasRoom 1) ∧ ((s.operand [1, 2] 0).toNat % 2 ^ 53 : Int) + (s.operand [1, 2] 1).toInt = 0 ∧
      ((s.operand [1, 3] 0).toNat % 2 ^ 53 : Int) + (s.operand [1, 3] 1).toInt = -1 :=
  ⟨ready _ _ _ _ _ (by decide), by decide, by decide⟩
theorem witness_FloatArithmeticResults : let s := user { idleThr [] with vq := [{ op := { major := 16, f5 := 2, kind := 3 } }] }
    s.canIssue [1] [2] false ∧ s.nextOk ∧ s.hasRoom 2 ∧ s.thr.srPending = true ∧ (turn []).thr.srPending = false ∧
      (27 : BitVec 5).toNat / 4 = 6 ∧ (23 : BitVec 5).toNat / 4 ≠ 6 :=
  ⟨⟨rfl, by decide, by decide⟩, rfl, show (2 : Nat) ≤ 16 by decide, by decide, by decide, by decide, by decide⟩
theorem witness_RoundingTakesNeighbour : ¬ 2 ^ 1 ∣ 3 ∧ 2 * (3 % 2 ^ 1) = 2 ^ 1 ∧ 2 * (5 % 2 ^ 2) < 2 ^ 2 ∧ 2 ^ 2 < 2 * (7 % 2 ^ 2) := by decide

/-! A misaligned GEN pointer, and one that leaves the space. -/
theorem witness_AccessPointerChecks : let s := turn [(1, 1), (2, 0)]
    s.canIssue [1] [3] false ∧ s.canIssue [1, 3] [] true ∧ s.formPtr (s.operand [1] 0) 0 8 false = .error (.pointerFault, 1) ∧
      s.formPtr (s.operand [1, 3] 0) 0 8 true = .error (.pointerFault, 1) ∧ s.formPtr (s.operand [2] 0) (-1) 1 false = .error (.pointerFault, 0) ∧
      s.formPtr (s.operand [1] 0) 7 8 false = .ok 8 :=
  ⟨⟨rfl, by decide, by decide⟩, ⟨rfl, by decide, by decide⟩, by decide, by decide, by decide, by decide⟩
theorem witness_ScalarLoadResults : let s := turn [(1, 0x4000000000001FF8), (2, 0x4000000000002000)]
    s.cur = .slot 0 1 ∧ (s.canIssue [1] [3] false ∧ s.nextOk ∧ s.hasRoom 3) ∧ s.thr.vecStoresOut = false ∧
      s.formPtr (s.operand [1] 0) 0 8 false = .ok 0x4000000000001FF8 ∧ (s.crewOf 0 1).phys 0x1FF8 = some 0x1FF8 ∧
      s.poisoned 1 0 0x1FF8 8 = false ∧ s.formPtr (s.operand [2] 0) 0 8 false = .ok 0x4000000000002000 ∧ (s.crewOf 0 1).phys 0x2000 = none ∧
      ({ s with poison := [(1, 0, 0x3FF)] } : State).poisoned 1 0 0x1FF8 8 = true :=
  ⟨rfl, ready _ _ _ _ _ (by decide), by decide, by decide, by decide, by decide, by decide, by decide, by decide⟩
/-- GEN: no translation; a page that is mapped, without and with the line in the L1. -/
theorem witness_ScalarLoadResults_gen : let s := turn [(1, 0x80008)]
    let e : TlbEntry := { ctx := 0, page := 8, shift := 16, leaf := leafWord 8 0 false }
    let t := tlb0 s 8 0 false
    let u := core0 t (fun c => { c with l1 := [{ line := 0x800, s0 := { valid := true } }] })
    s.formPtr (s.operand [1] 0) 0 8 false = .ok 0x80008 ∧ s.tlbLookup 0 s.thr.ctx 0x80008 = none ∧ t.tlbLookup 0 t.thr.ctx 0x80008 = some e ∧
      leafR e.leaf = true ∧ leafPa e.leaf e.shift 0x80008 = 0x80008 ∧ t.l1Hit 0 0x80008 8 false = false ∧ t.missFree 0 (.line 0x800) = true ∧
      t.missFree 0 .own = true ∧ t.hitAt 1 0 0x80008 8 false = false ∧ u.l1Hit 0 0x80008 8 false = true ∧
      ({ u with poison := [(3, 0, 0x10001)] } : State).poisoned 3 0 0x80008 8 = true ∧
      u.clearFor u.cur (PAccess.place { pa := 0x80008, n := 8, region := 0, sync := false, ca := 0 }) = true ∧ u.poisoned 3 0 0x80008 8 = false := by
  decide
/-- As many loads of other lines as there are miss registers keep a further one from leaving. -/
theorem witness_ScalarLoadResults_parks : let s := tlb0 (turn []) 8 0 false
    let acc : Nat → PAccess := fun j => { pa := 256 * j, n := 8, region := 0, sync := false, ca := 0 }
    let q := (List.range 64).map (fun j => ({ id := j, owner := some (.slot 0 1), body := .load .none 0 8 false (some (acc j)) false none } : Packet))
    ({ s with packets := q } : State).missFree 0 (.line 0x800) = false := by decide +kernel
theorem witness_ScalarLoadResults_vault : let p : Word := 0x8000000000000000
    let s := { turn [(1, p)] with ctxs := [(0, { grants := [0x1C0 + 0x7FFF * 2 ^ 27] })] }
    s.formPtr (s.operand [1] 0) 0 8 false = .ok p ∧ p.toNat / 2 ^ 61 = 4 ∧ s.vaultGrant s.thr.ctx p 8 false = true ∧ s.missFree 0 .own = true ∧
      (turn []).vaultGrant 0 p 8 false = false := by decide
theorem witness_ScalarLoadResults_ior : let p : Word := 0xE000000000000000
    let s := sysTurn [(1, p)]
    s.formPtr (s.operand [1] 0) 0 8 false = .ok p ∧ p.toNat / 2 ^ 61 = 7 ∧ s.thr.runAhead = false ∧ s.missFree 0 .own = true ∧ s.privilege s.cur = 2 := by
  decide
/-- A load whose value is known, one of a SYNC page, and one of a vault have landed. -/
theorem witness_LandingWritesDestination :
    let p : Packet := { id := 7, owner := some (.slot 0 1), due := some 0, body := .load (.reg 3) 0x80008 8 false none false (some 5) }
    let q : Packet := { p with due := none, body := .load (.reg 3) 0x80008 8 false (some { pa := 0x80008, n := 8, region := 0, sync := true, ca := 0 }) false none }
    let r : Packet := { q with body := .load (.reg 3) 0x8000000000000000 8 false none false none }
    (∀ x ∈ [p, q, r], let s := { turn [] with packets := [x] }
      s.packet? 7 = some x ∧ x.owner = some (.slot 0 1) ∧ x.vseq = none ∧ x.net ≠ .req ∧ s.flawed = [] ∧ s.loadDue x = true ∧ s.poisoned 0 0 0x80008 8 = false ∧ s.poisoned 2 0 0 8 = false) ∧
    (0x8000000000000000 : Word).toNat / 2 ^ 61 = 4 ∧
    (let x : Packet := { q with net := .req, dst := 3 }
     let s := { turn [] with packets := [x] }
     s.packet? 7 = some x ∧ x.net = .req) := by decide
theorem witness_ScalarStoreResults : let s := turn [(1, 0x4000000000001FF8), (2, 0x4000000000002000)]
    s.cur = .slot 0 1 ∧ (s.canIssue [1, 3] [] true ∧ s.nextOk ∧ s.hasRoom 2) ∧ s.canIssue [2, 3] [] true ∧ s.thr.vecAccessesOut = false ∧
      s.formPtr (s.operand [1, 3] 0) 0 8 true = .ok 0x4000000000001FF8 ∧ (s.crewOf 0 1).phys 0x1FF8 = some 0x1FF8 ∧
      s.formPtr (s.operand [2, 3] 0) 0 8 true = .ok 0x4000000000002000 ∧ (s.crewOf 0 1).phys 0x2000 = none :=
  ⟨rfl, ready _ _ _ _ _ (by decide), ⟨rfl, by decide, by decide⟩, by decide, by decide, by decide, by decide, by decide⟩
theorem witness_ScalarStoreResults_gen : let s := turn [(1, 0x80008)]
    let t := tlb0 s 8 0 false
    let u := core0 t (fun c => { c with l1 := [{ line := 0x800, s0 := { valid := true } }] })
    s.formPtr (s.operand [1, 2] 0) 0 2 true = .ok 0x80008 ∧ s.tlbLookup 0 s.thr.ctx 0x80008 = none ∧
      t.tlbLookup 0 t.thr.ctx 0x80008 = some { ctx := 0, page := 8, shift := 16, leaf := leafWord 8 0 false } ∧
      t.allows (leafWord 8 0 false) 16 0x80008 1 = true ∧ t.allows 3 16 0x80008 1 = false ∧ leafSync (leafWord 8 0 true) = true ∧ leafCA (leafWord 8 2 false) = 2 ∧
      t.canAlloc 0 0 0x800 = true ∧ (t.sectorAt 0 0 0x800 0).hit 8 2 = false ∧ t.missFree 0 (.line 0x800) = true ∧ t.missFree 0 .own = true ∧
      t.clearFor t.cur (.cached 0x80008 2) = true ∧ (u.sectorAt 0 0 0x800 0).hit 8 2 = true ∧ (∃ l, findLine (u.core 0).l1 0x800 = some l ∧ l.ro = false) :=
  ⟨by decide, by decide, by decide, by decide, by decide, by decide, by decide, by decide, by decide, by decide, by decide, by decide, by decide, _, rfl, rfl⟩
theorem witness_ScalarStoreResults_vaultAndIor : let p : Word := 0x8000000000000000
    let s := { turn [(1, p), (2, 0xE000000000000800)] with ctxs := [(0, { grants := [0x1C0 + 0x7FFF * 2 ^ 27] })] }
    s.formPtr (s.operand [1, 3] 0) 0 8 true = .ok p ∧ s.vaultGrant s.thr.ctx p 8 true = true ∧ (turn []).vaultGrant 0 p 8 true = false ∧
      (sysTurn [(2, 0xE000000000000800)]).formPtr 0xE000000000000800 0 8 true = .ok 0xE000000000000800 ∧ iorSystem 0x800 = false ∧
      2 ≤ (sysTurn []).privilege (sysTurn []).cur := by decide
theorem witness_ScalarStoreResults_home : ∀ b ∈ [Body.store { pa := 0x80008, n := 4, region := 0, sync := true, ca := 0 } 5,
      .pstore 0x8000000000000000 4 5, .pstore 0xE000000000000800 8 5],
    let p : Packet := { id := 7, owner := some (.slot 0 1), body := b }
    let s := { turn [] with packets := [p] }
    s.arrived? 7 = some p ∧ s.orderClear p = true := by decide
theorem witness_EpisodeAccessResults : let s := { epTurn [(1, 0x4000000000000000), (2, 0x4000000000000010), (3, 8)] with
                                                  episodes := [(0, { thr := { g := [(1, 0x4000000000000000), (2, 0x4000000000000010), (3, 8)] },
                                                                     textLen := 16, wlen := 16, frames := [0x80000] })] }
    s.cur = .episode 0 ∧ (s.canIssue [1] [4] false ∧ s.nextOk ∧ s.hasRoom 1) ∧ s.canIssue [2, 4] [] true ∧
      s.formPtr (s.operand [1] 0) 0 8 false = .ok 0x4000000000000000 ∧ (s.episode 0).admits 0x4000000000000000 8 false = true ∧
      s.formPtr (s.operand [1, 4] 0) 0 8 true = .ok 0x4000000000000000 ∧ (s.episode 0).admits 0x4000000000000000 8 true = false ∧
      s.formPtr (s.operand [2, 4] 0) 0 8 true = .ok 0x4000000000000010 ∧ (s.episode 0).admits 0x4000000000000010 8 true = true ∧
      s.formPtr (s.operand [3] 0) 0 8 false = .ok 8 ∧ (s.episode 0).admits 8 8 true = true ∧ (s.episode 0).admits 16 8 false = false ∧
      s.poisoned 0 0 ((s.episode 0).winPa 8) 8 = false :=
  ⟨rfl, ready _ _ _ _ _ (by decide), ⟨rfl, by decide, by decide⟩, by decide, by decide, by decide, by decide, by decide, by decide, by decide,
    by decide, by decide, by decide⟩
/-- An access before it to the same bytes keeps a store from its line. -/
theorem witness_ScalarStoreResults_behind : let s := tlb0 (turn [(1, 0x80008)]) 8 0 false
    let t := { s with packets := [{ id := 7, owner := some (.slot 0 1), body := .fetch { pa := 0x80008, n := 8, region := 0, sync := false, ca := 0 } false (some 5) }] }
    t.clearFor t.cur (.cached 0x80008 8) = false := by decide
theorem witness_LineAndPrefetchResults : let s := tlb0 (turn [(1, 0x80008), (2, 0x90000)]) 8 0 false
    let u := core0 s (fun c => { c with l1 := [{ line := 0x800 }] })
    s.cur = .slot 0 1 ∧ (s.canIssue [1] [] false ∧ s.nextOk ∧ s.hasRoom 2) ∧ s.canIssue [1] [] true ∧
      s.formPtr (s.operand [1] 0) 0 0 false = .ok 0x80008 ∧ s.formPtr (s.operand [3] 0) (-1) 0 false = .error (.pointerFault, 0) ∧
      s.tlbLookup 0 s.thr.ctx 0x80008 = some { ctx := 0, page := 8, shift := 16, leaf := leafWord 8 0 false } ∧
      leafR (leafWord 8 0 false) = true ∧ leafSync (leafWord 8 0 false) = false ∧ leafCA (leafWord 8 0 false) = 0 ∧
      s.missFree 0 (.line 0x800) = true ∧ s.canAlloc 0 0 0x800 = true ∧ findLine (s.core 0).l1 0x800 = none ∧
      s.tlbLookup 0 s.thr.ctx 0x90000 = none ∧ s.thr.noCode ≠ some 9 ∧
      s.homeDie 0x80000 = 0 ∧ s.wholeAt 1 0 0x800 false = false ∧
      findLine (u.core 0).l1 0x800 = some { line := 0x800 } :=
  ⟨rfl, ready _ _ _ _ _ (by decide), ⟨rfl, by decide, by decide⟩, by decide, by decide, by decide, by decide, by decide, by decide, by decide,
    by decide, by decide, by decide, by decide, by decide⟩
theorem witness_TranslationAndFaultResults : let p : Packet := { id := 7, owner := some (.slot 0 1), net := .rsp, body := .walk 0 0x10008 0 }
    let q : Packet := { id := 7, owner := some (.slot 0 1), net := .rsp, body := .walk 0 0x90000 0 }
    let s := user { idleThr [] with walking := some 7, parked := true }
    let t := { s with packets := [p] }
    t.arrived? 7 = some p ∧ t.walkers 7 = [.slot 0 1] ∧ (∃ leaf, t.walk 0 0x10008 = .leaf leaf 16 3) ∧
      p.net = .rsp ∧ ({ s with packets := [q] } : State).walk 0 0x90000 = .bad 1 3 ∧
      ({ s with packets := [{ q with net := .req }] } : State).arrived? 7 = some { q with net := .req } :=
  ⟨by decide, by decide, ⟨_, rfl⟩, rfl, by decide, by decide⟩
/-- No record of the page is open, and one is. -/
theorem witness_TranslationAndFaultResults_records : let s := turn []
    let o : OpenFault := { seq := 4, ctx := 0, page := 9, addr := 0x90000, joined := [] }
    let t := s.setPart 0 { s.part 0 with openFaults := [o] }
    let same := fun (o : OpenFault) => o.ctx == 0 && o.page == 0x90000 / 2 ^ o.shift && !o.abandoned
    (s.part (s.ctx 0).part).openFaults.find? same = none ∧ (t.part (t.ctx 0).part).openFaults.find? same = some o := by decide

/-- The user thread, of rank 5, whose home is core 0; the home's entry places the rank as given; crew 1 of core 0 has a window. -/
def ranked (t : Thread) (core slot : Nat) (win : Bool) : State :=
  let s := user { t with csr := { t.csr with rank := rankWord 5 false true } }
  let s := { s with ctxs := [(0, { root := 0x20000, rankDir := 0x60000 })], mem := s.mem.writeLE 0x60000 4 0x80000000 }
  core0 s (fun c => { c with homes := [(homeKey 0 5, { word := s.coordOf core slot })], win := if win then [(0, 0x3 * 2 ^ 40 + 0x1F * 2 ^ 32 + 511 * 2 ^ 16)] else [] })

/-- Core 1 with a thread in slot 2, of rank 5. -/
def other (s : State) : State := s.setThrOf (.slot 1 2) { csr := { rank := rankWord 5 false true } }

/-- On the core that is its rank's home, an access finds its thread at once. -/
theorem here (s : State) {rank : Nat} {w : Where} (h : (s.rankHome s.curCtx rank == some (s.pkg, s.curCore) &&
    (Tab.find? (s.core s.curCore).rankCache (homeKey s.curCtx rank)).isNone &&
    s.placeOf s.curCtx rank (s.homeEntry s.curCore s.curCtx rank).word (s.homeEntry s.curCore s.curCtx rank).transit == w) = true) :
    s.resolves rank w s := by
  simp only [Bool.and_eq_true, beq_iff_eq, Option.isNone_iff_eq_none] at h
  exact .inr (.inr (.inl ⟨h.1.1, h.1.2, rfl, h.2.symm⟩))

theorem witness_RemoteScratchpadResults : let p : Word := 0x6000000A00000000
    let s := ranked (idleThr [(1, p), (2, 0x6000000C00000000)]) 0 1 true
    s.cur = .slot 0 1 ∧ s.thr.runAhead = false ∧ (s.canIssue [1] [3] false ∧ s.nextOk ∧ s.hasRoom 1) ∧ s.canIssue [1, 3] [] true ∧
      s.thr.vecStoresOut = false ∧ s.thr.vecAccessesOut = false ∧ s.formPtr (s.operand [1] 0) 0 8 false = .ok p ∧
      s.formPtr (s.operand [1, 3] 0) 0 8 true = .ok p ∧ (s.opened [1]).resolves 5 (.here 0 1) (s.opened [1]) ∧
      (s.opened [1, 3]).resolves 5 (.here 0 1) (s.opened [1, 3]) ∧ s.windowAdmits 0 1 0 8 0 s.cur = true ∧ s.windowAdmits 0 1 0 8 1 s.cur = true ∧
      (s.crewOf 0 1).phys 0 = some 0 ∧ s.poisoned 1 0 0 8 = false ∧ s.formPtr (s.operand [2] 0) 0 8 false = .ok 0x6000000C00000000 ∧
      (s.opened [2]).resolves 6 .nowhere (s.opened [2]) ∧ (ranked (idleThr []) 0 1 false).windowAdmits 0 1 0 8 0 (.slot 0 1) = false :=
  ⟨rfl, by decide, ready _ _ _ _ _ (by decide), ⟨rfl, by decide, by decide⟩, by decide, by decide, by decide, by decide, here _ (by decide), here _ (by decide),
    by decide, by decide, by decide, by decide, by decide, here _ (by decide), by decide⟩
/-- The rank is on another core, and the thread may not leave: it has a vector context. -/
theorem witness_RemoteScratchpadResults_elsewhere : let s := other (ranked { idleThr [] with laneReq := 1 } 1 2 false)
    (s.opened [1]).resolves 5 (.here 1 2) (s.opened [1]) ∧ s.departBar 0 1 = some 1 := ⟨here _ (by decide), by decide⟩
/-- Accesses at the core of the rank: admitted, outside the rows, not admitted, and of a rank that names no thread. -/
theorem witness_RemoteScratchpadResults_access : let p : Packet := { id := 7, owner := some (.slot 0 1), body := .spr 0 0x6000000A00000000 8 5 0 0 .none }
    let s := { ranked (idleThr []) 0 1 true with packets := [p] }
    s.arrived? 7 = some p ∧ (0x6000000A00000000 : Word).toNat / 2 ^ 61 = 3 ∧ s.resolveRank p.ctx 5 = .here 0 1 ∧ 0 = p.dst ∧
      s.windowAdmits 0 1 0 8 1 (.slot 0 1) = true ∧ (s.crewOf 0 1).phys 0 = some 0 ∧ s.resolveRank p.ctx 6 = .nowhere ∧
      (ranked (idleThr []) 0 1 false).windowAdmits 0 1 0 8 1 (.slot 0 1) = false ∧ s.poisoned 1 0 0 8 = false ∧ s.flawed = [] ∧
      (let u := core0 s (fun c => { c with win := [(0, 0x3 * 2 ^ 40 + 0x1F * 2 ^ 32 + 1023 * 2 ^ 16)] })
       u.windowAdmits 0 1 0x2000 8 1 (.slot 0 1) = true ∧ (u.crewOf 0 1).phys 0x2000 = none) := by decide
theorem witness_RemoteScratchpadResults_answers : ∀ b ∈ [Body.sprAck 1 0x6000000A00000000 8 5 false (.reg 3), .sprAck 0 0x6000000A00000000 8 0 false .none,
      .sprAck 0 0x6000000A00000000 8 0 true .none, .sprRefuse 0 0x6000000A00000000 .none, .sprRefuse 1 0x6000000A00000000 (.reg 3)],
    let p : Packet := { id := 7, owner := some (.slot 0 1), body := b }
    ({ turn [] with packets := [p] } : State).arrived? 7 = some p ∧ p.owner = some (.slot 0 1) := by decide

/-! ### The vector unit -/

/-- The user thread with a vector context of one lane group. -/
def vecTurn (g : List (Nat × Word)) (q : List VEntry) : State :=
  user { idleThr g with laneReq := 1, lanes := [0], csr := { vlceil := 1024, vl := 4, strip := 10 }, vq := q }

theorem witness_VectorDispatchResults : let s := vecTurn [(1, 0x4000000000000000)] []
    (∀ o ∈ [({ major := 14, f5 := 0 } : VOp), { major := 15, f5 := 0 }, { major := 16, f5 := 5 }, { major := 16, f5 := 19 }, { major := 13, f5 := 0 }],
      s.canDispatch 0 o true) ∧ (s.canIssue [] [] false ∧ s.nextOk ∧ s.hasRoom 1) ∧ s.canIssue [1] [] false ∧ s.canIssue [] [3] false ∧
      s.checkPtr false (s.operand [1] 0) = none ∧ ptrFmt (s.operand [1] 0) ≤ 13 ∧ s.checkPtr true 0x2000000000000000 = some .pointerFault :=
  ⟨fun o _ => ⟨by decide, by decide, by decide, .inr (.inl rfl)⟩, ready _ _ _ _ _ (by decide),
    ⟨rfl, by decide, by decide⟩, ⟨rfl, by decide, by decide⟩, by decide, by decide, by decide⟩
theorem witness_VectorDispatchResults_joins : let s := user { idleThr [] with laneReq := 1, convoyOpen := true, pipes := [0] }
    s.canDispatch 0 { major := 14, f5 := 0 } false :=
  ⟨by decide, by decide, by decide, .inr (.inr (.inr ⟨rfl, by decide⟩))⟩
theorem witness_VectorDispatchResults_config : let s := vecTurn [(1, 100), (2, 3), (3, 5)] []
    (s.canIssue [1, 2] [4] false ∧ s.nextOk ∧ s.hasRoom 3) ∧ s.thr.stage = 0 ∧ s.thr.laneReq ≠ 0 ∧ (turn []).thr.laneReq = 0 ∧
      s.thr.restored = false ∧ s.thr.convoyOpen = false ∧ (s.operand [1, 2] 1).toNat % 16 ≤ 4 ∧ 4 < (s.operand [1, 3] 1).toNat % 16 ∧
      ∀ e ∈ s.thr.vq, e.op.major = 16 → e.op.f5 = 1 → e.confirmed = true :=
  ⟨ready _ _ _ _ _ (by decide), by decide, by decide, by decide, by decide, by decide, by decide, by decide, by decide⟩

/-- A started instruction at the head. -/
def started (o : VOp) (xs : List Word) : VEntry := { seq := 1, op := o, xs := xs, vl := 4, stage := .checked }

theorem witness_VectorArithmeticResults : ∀ o ∈ [({ major := 14, f5 := 0, kind := 3 } : VOp), { major := 14, f5 := 18 }, { major := 15, f5 := 0, kind := 1 },
      { major := 15, f5 := 17 }], (vecTurn [] [started o [7]]).confirms 0 1 (started o [7]) := by
  intro o ho
  simp only [List.mem_cons, List.not_mem_nil, or_false] at ho
  rcases ho with rfl | rfl | rfl | rfl <;> exact ⟨by decide, by decide, by decide, by decide, .inl rfl⟩
/-- Without a check, a started instruction is confirmed as it is. -/
theorem witness_VectorArithmeticResults_started : let e : VEntry := { started { major := 14, f5 := 0 } [] with vl := 0, stage := .started }
    (vecTurn [] [e]).confirms 0 1 e := ⟨by decide, by decide, by decide, by decide, .inr ⟨rfl, by decide⟩⟩
theorem witness_VectorPermuteResults : ∀ f5 ∈ [1, 2, 3, 4, 5, 6, 7, 8, 9, 10, 11, 12, 13, 14, 15, 16, 17, 18, 19, 20, 21],
    (let e := started { major := 16, f5 := f5, vb := if f5 = 2 then 18 else 0 } [7]
     let s := vecTurn [] [e]
     decide (s.vecHead 0 1 = some e) && !e.formatFault) = true := by decide
theorem witness_VectorAccessResults : let e : VEntry := { started { major := 13, f5 := 3 } [0x4000000000000000] with vl := 1 }
    let x : VTarget := { elem := 0, ptr := 0x4000000000000000, n := 4 }
    let s := vecTurn [] [e]
    let d := { e with confirmed := true, outs := [x] }
    let u := vecTurn [] [d]
    s.vecHead 0 1 = some e ∧ (∃ fl, s.vlsCheck 0 1 e = .ok [x] fl) ∧ (u.thrOf (.slot 0 1)).vq.find? (fun y => y.confirmed) = some d ∧
      u.unitClear 0 1 d = true ∧ d.got = [] ∧ (s.thrOf (.slot 0 1)).readsBad e = false ∧ ptrPath x.ptr = 2 ∧ (u.crewOf 0 1).phys (ptrOff x.ptr) = some 0 ∧
      (∃ fl, s.vlsCheck 0 1 { e with vl := 0 } = .ok [] fl) ∧
      s.vlsCheck 0 1 { started { major := 13, f5 := 0 } [0x90000] with vl := 1 } = .fault 0x90000 1 3 255 ∧
      s.vlsCheck 0 1 { started { major := 13, f5 := 0 } [0x10000] with vl := 1 } = .walk 0x10000 :=
  ⟨by decide, ⟨_, rfl⟩, by decide, by decide, rfl, by decide, by decide, by decide, ⟨_, rfl⟩, by decide, by decide⟩
theorem witness_VectorAccessResults_loads : let x : VTarget := { elem := 0, ptr := 0x4000000000000000, n := 4 }
    let s := vecTurn [] []
    let u : VldaRead := { v := 2, group := 0, vtype := 3, elems := [x] }
    let t := user { idleThr [] with vec := { unlanded := [u] } }
    let d := { started { major := 13, f5 := 0 } [0x4000000000000000] with vl := 1, confirmed := true, outs := [x] }
    let w := vecTurn [] [d]
    let far : VTarget := { elem := 0, ptr := 0x8000000200000000 - 0x1F8000000, n := 4 }
    s.unitReach 0 far false ≠ none ∧ s.unitReach 0 x false = none ∧ (s.crewOf 0 1).phys (ptrOff x.ptr) = some 0 ∧ s.poisoned 1 0 0 4 = false ∧
      (w.thrOf (.slot 0 1)).vq.find? (fun y => y.confirmed) = some d ∧ w.unitClear 0 1 d = true ∧ d.got = [] ∧
      (∀ j, w.enginePacket (.vec 0 1 1 j) = none) ∧
      (t.thrOf (.slot 0 1)).vec.unlanded.find? (fun y => y.v == u.v && y.group == u.group) = some u ∧ u.got = [] ∧ t.flawed = [] ∧
      (∀ j, t.enginePacket (.vlda 0 1 2 0 j) = none) :=
  ⟨by decide, by decide, by decide, by decide, by decide, by decide, rfl, fun _ => rfl, by decide, rfl, rfl, fun _ => rfl⟩
theorem witness_VectorUnitEvents : ∀ o ∈ [({ major := 14, f5 := 0 } : VOp), { major := 13, f5 := 0 }, { major := 16, f5 := 5 }],
    let e : VEntry := { seq := 1, op := o, head := true, vl := 4 }
    let s := vecTurn [] [e]
    s.readyHead 0 1 = some e ∧ (∀ p ∈ s.lacks 0 1, (s.quad 0).holder p = none ∧ s.pipeTurn 0 p = some (0, 1)) ∧
      (∀ e ∈ s.thr.vq, e.stage = .queued) ∧ (∀ e, s.thr.vq.head? = some e → e.head = true) := by
  intro o ho
  simp only [List.mem_cons, List.not_mem_nil, or_false] at ho
  rcases ho with rfl | rfl | rfl <;> exact ⟨by decide, by decide, by decide, fun e h => by cases h; rfl⟩
/-- A pipe that another holds, and a member that has not started while its convoy's head has. -/
theorem witness_VectorUnitEvents_busy : let e : VEntry := { seq := 1, op := { major := 13, f5 := 0 }, head := true, vl := 4 }
    let s := (vecTurn [] [e]).setQuad 0 { vlBusy := some (1, 2) }
    let t := vecTurn [] [{ e with head := false }]
    s.readyHead 0 1 = some e ∧ (∀ p ∈ s.lacks 0 1, (s.quad 0).holder p ≠ none) ∧ s.lacks 0 1 ≠ [] ∧
      t.thr.nextQueued = some { e with head := false } := by decide
theorem witness_VectorUnitEvents_checks : let e : VEntry := { seq := 1, op := { major := 14, f5 := 0 }, vl := 4, stage := .started }
    let f := { e with stage := .replay }
    let g := { e with trap := some (.checkFault, 0) }
    (vecTurn [] [e]).vecHead 0 1 = some e ∧ (vecTurn [] [e]).thr.unitsOf e ≠ [] ∧ (vecTurn [] [f]).vecHead 0 1 = some f ∧
      (vecTurn [] [g]).vecTrap 0 1 = some (g, .checkFault, 0) ∧
      (∀ w ∈ (vecTurn [] [g]).thr.log, w.after < g.seq) := by decide

/-! ### Matrix, copies, messages -/

/-- The user thread with tile c0 claimed and the given tasks in its quad; bytes 0 to 63 of its rows are a zeroing record (R243). -/
def tileTurn (g : List (Nat × Word)) (ts : List Task) : State :=
  let s := user { idleThr g with laneReq := 1, lanes := [0], accQuota := 2, acc := [(0, {})], csr := { vl := 4 } }
  (core0 s (fun c => { c with spad := [(0, 2)] })).setQuad 0 { tasks := ts }

/-- A task of tile c0. -/
def zeroTask : Task := { core := 0, slot := 1, seq := 1, record := 2 :: List.replicate 63 0, origin := 0 }

theorem witness_MatrixInstructionResults : let s := tileTurn [(1, 0x4000000000000000), (2, 1)] []
    let t := tileTurn [(2, 1)] [zeroTask]
    s.cur = .slot 0 1 ∧ (s.canIssue [] [] true ∧ s.nextOk ∧ s.hasRoom 0) ∧ s.canIssue [1] [3] true ∧ Tab.find? s.thr.acc 1 = none ∧
      s.thr.acc.length < s.thr.accQuota ∧ Tab.find? s.thr.acc 0 = some {} ∧ (∃ x ∈ (t.quad 0).tasks, x.core = 0 ∧ x.slot = 1 ∧ x.target = 0) ∧
      (∃ x ∈ (t.quad 0).tasks, x.core = 0 ∧ x.slot = 1 ∧ ((t.operand [2] 0).toNat % 2 ^ 32 + 2 ^ 32 - x.seq) % 2 ^ 32 < 2 ^ 31) ∧
      s.checkPtr false (s.operand [1] 0) = none ∧ s.recordFault 0 1 (s.operand [1] 0) zeroTask.record = none ∧
      ((s.crewOf 0 1).phys 0).isSome = true ∧ s.thr.vecStoresOut = false ∧ s.poison = [] ∧ s.flawed = [] ∧
      ((s.quad 0).tasks.filter (fun x => x.core == 0)).length < 16 ∧ s.recordFault 0 1 0 (3 :: List.replicate 63 0) = some (.formatFault, 0) :=
  ⟨rfl, ready _ _ _ _ _ (by decide), ⟨rfl, by decide, by decide⟩, by decide, by decide, by decide, ⟨_, .head _, rfl, rfl, rfl⟩,
    ⟨_, .head _, rfl, rfl, by decide⟩, by decide, by decide, by decide, by decide, rfl, rfl, by decide, by decide⟩
theorem witness_MatrixInstructionResults_tiles : let s := tileTurn [(1, 0)] []
    s.canIssue [1] [] false ∧ s.canDispatch 0 { major := 17, f5 := 5, va := 0, vd := 3 } false ∧ mrdCheck 0 s (s.operands [1]) = none ∧
      mwrCheck 0 s (s.operands [1]) = none ∧ Tab.find? s.thr.acc 1 = none :=
  ⟨⟨rfl, by decide, by decide⟩, ⟨by decide, by decide, by decide, .inl rfl⟩, by decide, by decide, by decide⟩
theorem witness_MatrixInstructionResults_confirm : ∀ f5 ∈ [5, 6],
    (let e := started { major := 17, f5 := f5 } [0]
     decide ((vecTurn [] [e]).vecHead 0 1 = some e) && !e.formatFault) = true := by decide
theorem witness_TileEngineEvents : let s := tileTurn [] [zeroTask]
    let r := { zeroTask with engine := some 0 }
    let t := tileTurn [] [r]
    let w := { zeroTask with record := [2, 0, 0, 0, 0, 0, 0, 8, 0, 0, 0, 0, 5] ++ List.replicate 51 0 }
    let u := core0 (tileTurn [] [w]) (fun c => { c with xerrs := [(0, 5)] })
    (∀ x ∈ (s.quad 0).tasks, x.engine ≠ some 0) ∧ s.nextReady 0 = some zeroTask ∧ zeroTask.waits = false ∧
      (t.quad 0).tasks.find? (fun x => x.engine == some 0) = some r ∧ t.poison = [] ∧ Tab.find? (t.thrOf (.slot 0 1)).acc r.target = some {} ∧
      recCk r.record = false ∧ t.flawed = [] ∧ ({} : Tile).bad = [] ∧ (t.thrOf (.slot 0 1)).vq = [] ∧ u.nextReady 0 = some w ∧ w.waits = true ∧
      (w.channel, w.xid) ∈ (u.core 0).xerrs := by decide
/-- A task whose operand is poisoned. -/
theorem witness_TileEngineEvents_poison : let r : Task := { zeroTask with record := [0, 0, 0, 0, 0, 0, 0, 0, 128] ++ List.replicate 55 0, engine := some 0 }
    let s := { tileTurn [] [r] with poison := [(1, 0, 0)] }
    (s.quad 0).tasks.find? (fun x => x.engine == some 0) = some r ∧ (s.thrOf (.slot 0 1)).run ≠ .swapping ∧
      (match (s.setQuad 0 { s.quad 0 with tasks := (s.quad 0).tasks.filter (fun x => x != r) }).taskTested 0 1 (taskRanges r.record) with
        | .error _ => true
        | .ok _ => false) = true := by decide
/-- An MRD that waits for the tile of a task. -/
theorem witness_TileEngineEvents_waits : let e : VEntry := { seq := 1, op := { major := 17, f5 := 5, va := 0 } }
    let r := { zeroTask with record := 4 :: List.replicate 63 0, engine := some 0 }
    let s := tileTurn [] [r]
    let s := s.setThrOf (.slot 0 1) { s.thrOf (.slot 0 1) with vq := [e] }
    (s.thrOf (.slot 0 1)).vq = [e] ∧ e.stage = .queued ∧ e.op.va = r.target ∧ (s.quad 0).tasks.find? (fun x => x.engine == some 0) = some r := by decide
theorem witness_TileEngineEvents_fails : let r : List Byte := 4 :: List.replicate 63 0
    recCk r = true ∧ recOpc r ≠ 2 ∧ recOpc ([0, 8, 0, 0, 0, 0, 0, 0, 128] : List Byte) = 0 ∧
      recField ([0, 8, 0, 0, 0, 0, 0, 0, 128] ++ List.replicate 55 0) 8 4 = 128 := by decide
theorem witness_MailboxAndCopyInstructionResults_boxes : let s := turn []
    let m : Mailbox := { words := [1, 2, 3, 4], full := true }
    let t := core0 s (fun c => { c with mbox := [(0, m)] })
    (s.canIssue [4, 5, 6, 7] [] true ∧ s.nextOk ∧ s.hasRoom 0) ∧ (Tab.get {} (s.core 0).mbox 0 : Mailbox).full = false ∧
      t.canIssue [] [4, 5, 6, 7] true ∧ (Tab.get {} (t.core 0).mbox 0 : Mailbox) = m ∧ m.since = none ∧ m.words = [1, 2, 3, 4] :=
  ⟨ready _ _ _ _ _ (by decide), by decide, ⟨rfl, by decide, by decide⟩, by decide, by decide, rfl⟩
theorem witness_MailboxAndCopyInstructionResults : let s := sysTurn [(4, 0x4000000000000000), (5, 0x4000000000000040), (6, 64), (8, 64), (9, 5)]
    let c : Copy := { id := 1, core := 0, slot := 0, ch := 0, xid := 1, op := 0, prom := 100 }
    let full := s.setCluster 0 { copies := List.replicate 8 c }
    (s.canIssue [4, 5, 6, 7] [3] true ∧ s.nextOk ∧ s.hasRoom 0) ∧ 1 ≤ s.privilege s.cur ∧ (turn []).privilege (turn []).cur = 0 ∧
      (s.operand [4, 5, 6, 7] 3).toNat % 8 ≤ 4 ∧ ¬ (s.operand [4, 5, 8, 9] 3).toNat % 8 ≤ 4 ∧
      s.copyFault 0 (s.operand [4, 5, 6, 7] 0) (s.operand [4, 5, 6, 7] 1) (s.operand [4, 5, 6, 7] 2) = none ∧ (s.channel 0 0).length < 8 ∧
      s.operand [4, 5, 6, 7] 2 ≠ 0 ∧ 8 ≤ (full.channel 0 0).length ∧
      s.copyFault 0 0x2000000000000000 0 64 = some (.pointerFault, 0x2000000000000000) :=
  ⟨ready _ _ _ _ _ (by decide), by decide, by decide, by decide, by decide, by decide, by decide, by decide, by decide, by decide⟩
theorem witness_MailboxAndCopyInstructionResults_wait : let s := turn [(1, 1)]
    let c : Copy := { id := 1, core := 0, slot := 0, ch := 0, xid := 1, op := 0, prom := 100 }
    let w := s.setCluster 0 { copies := [c] }
    let late := s.setCluster 0 { copies := [{ c with prom := 0 }] }
    let done := core0 s (fun c => { c with done := [(0, 1)] })
    s.canIssue [1] [] true ∧ done.covered 0 0 1 = true ∧ done.owes done.cur Body.isLoad = false ∧ done.thr.vecAccessesOut = false ∧ w.thr.vals = [] ∧ w.covered 0 0 1 = false ∧
      w.tb.toNat < lastPromise (w.upTo 0 0 1) ∧ lastPromise (late.upTo 0 0 1) ≤ late.tb.toNat :=
  ⟨⟨rfl, by decide, by decide⟩, by decide, by decide, by decide, rfl, by decide, by decide, by decide⟩
/-- A copy of 64 bytes within a crew's rows at its check, its read, its write and its end; one whose source is not mapped; one that fills. -/
theorem witness_CopyEngineEvents : let c : Copy := { id := 1, core := 0, slot := 1, rows := 1, ch := 0, xid := 1, op := 0, x0 := 0x4000000000000000, x1 := 0x4000000000000040, y0 := 64, started := true }
    let b := { c with x1 := 0x90000 }
    let rd := { c with upto := 64 }
    let far := { c with x1 := 0x80000, upto := 64 }
    let f := { c with op := 3, rows := 64, x1 := 5, upto := 64, rd := 64 }
    let e := { c with upto := 64, rd := 64, next := 64 }
    let d := { e with landed := true, ctl := 0 }
    let at_ := fun (x : Copy) => (turn []).setCluster 0 { copies := [x] }
    let far1 := (turn []).setCluster 0 { copies := [far], tlb := [{ ctx := 0, page := 8, shift := 16, leaf := leafWord 8 0 true }] }
    let s := at_ c
    (∀ x ∈ [c, b, rd, far, f, e, d], (at_ x).copy? 0 1 = some x) ∧ c.coll ≠ 1 ∧ c.limit ≤ c.next ∧ c.upto ≠ c.total ∧ s.pieceLen c 0 = 64 ∧
      checkPieces s c [(c.srcAt 0 0, 64, 0), (c.dstAt 0 0, 64, 1)] = (.ok, 0) ∧
      (match (checkPieces (at_ b) b [(b.srcAt 0 0, 64, 0), (b.dstAt 0 0, 64, 1)]).1 with | .err _ => true | _ => false) = true ∧
      rd.rd < rd.upto ∧ ptrPath (rd.srcAt 0 0) = 2 ∧ s.enginePacket (.copy 0 1) = none ∧ s.poison = [] ∧ s.flawed = [] ∧
      far1.copyReach far 0x80000 64 false ≠ none ∧ s.engineTags 0 < 64 ∧
      (match far1.pieceReach far 0x80000 with | .ok => true | _ => false) = true ∧
      f.next < f.limit ∧ ptrPath (f.dstAt 0 0) = 2 ∧ ptrOff (f.dstAt 0 0) + 64 ≤ 8192 * 64 ∧
      e.limit ≤ e.next ∧ e.upto = e.total ∧ e.mayOverlap = false ∧ d.after ≤ s.now ∧ d.ctl.toNat / 8 % 8 = 0 ∧ d.ctl.toNat / 64 % 2 = 0 ∧
      (∀ y ∈ ((at_ d).cluster 0).copies, y.core = d.core → y.ch = d.ch → y.id = d.id) ∧ c.prom.toNat ≤ s.tb.toNat ∧ s.tb.toNat + 1 < 2 ^ 64 ∧
      s.tb.toNat < ({ c with prom := 100 } : Copy).prom.toNat := by decide
/-- A collective of one member, one of two, and a member that takes its result. -/
theorem witness_CopyEngineEvents_collective : let m : Contribution := { group := 3, member := 0, cluster := 0, copy := 1, bytes := [1] }
    let n := { m with member := 1, copy := 2 }
    let c : Copy := { id := 1, core := 0, slot := 1, rows := 1, ch := 0, xid := 1, op := 5, started := true, coll := 1 }
    let d := { c with id := 2, ch := 1 }
    let q : Packet := { id := 7, body := .collResult 0 1 [1] }
    let s := { turn [] with groups := [(3, 0x400)], contribs := [m] }
    let t := ({ turn [] with groups := [(3, 0x800)], contribs := [m, n], packets := [q] } : State).setCluster 0 { copies := [c, d] }
    (Tab.get 0 s.groups 3).toNat / 2 ^ 10 % 2 ^ 10 = 1 ∧ s.contribs.find? (fun x => x.group == 3 && x.member == 0) = some m ∧ collOp 0 = 0 ∧
      (Tab.get 0 t.groups 3).toNat / 2 ^ 10 % 2 ^ 10 = 2 ∧ t.contribs.find? (fun x => x.group == 3 && x.member == 0) = some m ∧
      t.contribs.find? (fun x => x.group == 3 && x.member == 1) = some n ∧ t.copy? 0 1 = some c ∧ t.copy? 0 2 = some d ∧ d.y0 = c.y0 ∧
      t.packets.find? (fun p => match p.body with | .collResult x y _ => x == 0 && y == c.id | _ => false) = some q ∧ t.ready q = true := by decide
theorem witness_MessageInstructionResults : let s := ranked (idleThr [(1, 6), (2, 77)]) 0 1 false
    let full := core0 s (fun c => { c with sendbuf := List.replicate 8 { id := 0, slot := 0, rank := 9, cls := 1 } })
    (s.canIssue [1, 2] [] true ∧ s.nextOk ∧ s.hasRoom 0) ∧ regRun 2 1 = [2] ∧ (s.core 0).sendbuf.length < 8 ∧ s.rankHome s.thr.ctx 6 = some (s.pkg, 0) ∧
      Tab.find? (s.core 0).rankCache (homeKey s.thr.ctx 6) = none ∧ s.privilege s.cur < 2 ∧ 8 ≤ (full.core 0).sendbuf.length :=
  ⟨ready _ _ _ _ _ (by decide), by decide, by decide, by decide, by decide, by decide, by decide⟩
theorem witness_MessageInstructionResults_receive : let m : Msg := { sender := 5, words := [1, 2] }
    let s := core0 { turn [(1, 0x20), (2, 0x30)] with now := 9 } (fun c => { c with bind := [(1, 1), (2, 1), (3, 4)], classq := [(1, [m])], notices := [9] })
    s.canIssue [] [4, 5] true ∧ regRun 4 2 = [4, 5] ∧ (s.core 0).boundTo 1 = some 1 ∧ (s.core 0).classQ 1 = m :: [] ∧ m.came < s.now ∧
      (s.core 0).classQ 2 = [] ∧ (s.core 0).boundTo 2 = some 1 ∧ (s.core 0).notices = 9 :: [] ∧ (s.core 0).boundTo 4 = none ∧ (s.core 0).boundTo 3 = some 4 ∧ s.canIssue [1] [] true ∧
      (s.operand [1] 0).toNat / 32 % 2 = 1 ∧ (s.operand [1] 0).toNat / 16 % 2 = 0 ∧ (s.operand [2] 0).toNat / 16 % 2 = 1 :=
  ⟨⟨rfl, by decide, by decide⟩, by decide, by decide, by decide, by decide, by decide, by decide, by decide, by decide, by decide,
    ⟨rfl, by decide, by decide⟩, by decide, by decide, by decide⟩
/-- A core that has the pinned place of a rank cached, and a rank without a home. -/
theorem witness_MessageInstructionResults_cached : let s := core0 (ranked (idleThr [(1, 6)]) 0 1 false) (fun c => { c with rankCache := [(homeKey 0 6, 0xC00011)] })
    Tab.find? (s.core 0).rankCache (homeKey s.thr.ctx 6) = some 0xC00011 ∧ (∃ h, s.rankHome s.thr.ctx 6 = some (s.pkg, h)) ∧
      (∀ x ∈ (s.core 0).sendbuf, x.id ≠ s.nextId ∧ ¬ (x.slot = 1 ∧ x.rank = 6)) ∧ (turn []).rankHome 0 6 = none ∧ (turn []).slotBound 0 1 = true :=
  ⟨by decide, ⟨0, by decide⟩, by decide, by decide, by decide⟩
/-- A SENDQ descriptor in the crew's rows: 64 bytes from offset 0x100 to GEN 0; and, with its request accepted, its payload. -/
theorem witness_MessageInstructionResults_sendq : let p : Word := 0x4000000000000000
    let fill := fun (s : State) => core0 s (fun c => { c with spad := Memory.writeLE (Memory.writeLE [] 0 8 0x4000000000000100) 16 2 64,
                                                               sendbuf := [] })
    let s := fill (ranked (idleThr [(1, 6), (2, p)]) 0 1 false)
    let e : SendEntry := { id := 3, slot := 1, rank := 6, cls := 1, src := 0x4000000000000100, sendq := some (0, 64, 0), sent := true }
    let q : Packet := { id := 7, owner := some (.slot 0 1), src := 0, held := true, body := .sendqReply 3 0 0 0 2 0 }
    let t := { core0 (fill (user { idleThr [] with stage := 3, vals := [6, p] })) (fun c => { c with sendbuf := [e] }) with packets := [q] }
    s.canIssue [1, 2] [] true ∧ s.checkPtr false p = none ∧ p.toNat / 2 ^ 61 ≤ 2 ∧
      (∃ d, s.threadRead 0 1 p 32 = .ok d ∧ recField d 16 2 = 64 ∧ recField d 8 8 = 0 ∧ recField d 0 8 / 2 ^ 61 % 8 = 2 ∧ recField d 20 12 = 0 ∧
        s.checkPtr false (BitVec.ofNat 64 (recField d 0 8)) = none ∧ s.checkPtr true (BitVec.ofNat 64 (recField d 8 8)) = none) ∧
      s.rankHome s.thr.ctx 6 = some (s.pkg, 0) ∧ Tab.find? (s.core 0).rankCache (homeKey s.thr.ctx 6) = none ∧ (s.core 0).sendbuf = [] ∧
      t.thr.stage = 3 ∧ t.thr.vals = [6, p] ∧ t.thr.saveAt = none ∧ t.sendqAnswer = some (e, q, 2, 0) ∧ (∃ b, t.threadRead 0 1 e.src 64 = .ok b) ∧
      (fill (user { idleThr [] with stage := 3, vals := [6, p] })).sendqAnswer = none :=
  ⟨⟨rfl, by decide, by decide⟩, by decide, by decide, ⟨_, rfl, by decide, by decide, by decide, by decide, by decide, by decide⟩, by decide, by decide,
    by decide, by decide, by decide, by decide, by decide, ⟨_, rfl⟩, by decide⟩

/-! ### Ranks, migration, arrivals -/

/-- A packet that has arrived at core 0, of context 0, from core 0. -/
def pk (b : Body) : Packet := { id := 7, owner := some (.slot 0 1), body := b }
def withPk (s : State) (p : Packet) : State := { s with packets := [p] }
/-- A message of slot 1 of core 0 to rank 5, class 1. -/
def mail : SendEntry := { id := 3, slot := 1, rank := 5, cls := 1, words := [42], sent := true }
/-- The home of rank 5 in transit. -/
def transit (h : HomeEntry) : State := core0 (ranked (idleThr []) 0 1 false) (fun c => { c with homes := [(homeKey 0 5, { h with transit := true })] })

theorem witness_RankAndMigrationResults : let s := sysTurn [(1, 5), (2, 0x800000), (3, 0x1000000), (4, 7)]
    let s := { s with ctxs := [(0, { root := 0x20000, rankDir := 0x60000 })], mem := s.mem.writeLE 0x60000 4 0x80000000 }
    (s.canIssue [1, 4] [] true ∧ s.nextOk ∧ s.hasRoom 0) ∧ 1 ≤ s.privilege s.cur ∧ 2 ^ 24 ≤ (s.operand [1, 3] 1).toNat ∧
      (s.operand [1, 4] 1).toNat < 2 ^ 23 ∧ (turn []).privilege (turn []).cur < 1 ∧ s.rankHome s.thr.ctx 5 = some (s.pkg, 0) ∧ s.rankHome s.thr.ctx 2048 = none ∧ s.owesEntry = false :=
  ⟨ready _ _ _ _ _ (by decide), by decide, by decide, by decide, by decide, by decide, by decide, by decide⟩
/-- MIGR to its own core, to a rank in transit, to another core where it may not leave and where it may and owes nothing, and to no thread;
and one whose rank's home is another core. -/
theorem witness_RankAndMigrationResults_migr : let s := ranked (idleThr [(1, 5), (2, 6)]) 0 1 false
    let t := other (ranked (idleThr [(1, 5)]) 1 2 false)
    let v := other (ranked { idleThr [(1, 5)] with laneReq := 1 } 1 2 false)
    let q := { t with packets := [{ id := 7, owner := some (.slot 0 1), body := .spr 0 0x6000000A00000000 8 5 0 0 .none }] }
    let far := { s with mem := s.mem.writeLE 0x60000 4 0x80004000 }
    ((s.canIssue [1] [] true ∧ s.nextOk ∧ s.hasRoom 0) ∧ (s.operand [1] 0).toNat = 5) ∧ (s.opened [1]).resolves 5 (.here 0 1) (s.opened [1]) ∧
      (t.opened [1]).resolves 5 (.here 1 2) (t.opened [1]) ∧ (t.opened [1]).departBar 0 1 = none ∧ (t.opened [1]).departReady t.cur = true ∧
      (v.opened [1]).departBar 0 1 = some 1 ∧ (q.opened [1]).departReady q.cur = false ∧
      (s.opened [2]).resolves 6 .nowhere (s.opened [2]) ∧ (let m := transit { word := (turn []).coordOf 0 1 }; m.resolves 5 .moving m) ∧
      (∃ h, far.rankHome far.thr.ctx 5 = some (far.pkg, h) ∧ h ≠ 0) ∧ Tab.find? (far.core 0).rankCache (homeKey far.thr.ctx 5) = none ∧
      (far.opened [1]).rankAnswer 5 = none ∧ (far.opened [1]).rankAsked 5 = false :=
  ⟨⟨ready _ _ _ _ _ (by decide), by decide⟩, here _ (by decide), here _ (by decide), by decide, by decide, by decide, by decide, here _ (by decide),
    here _ (by decide), ⟨1, by decide⟩, by decide, by decide, by decide⟩
theorem witness_RankAndMigrationResults_home : let m : Migrant := { thr := {}, source := 1, srcSlot := 2 }
    (∀ b ∈ [Body.depart 5 0, .token 5 0, .arrive 5 3, .tokenBack 5, .msgReturn 0 mail (some 1), .entryWrite 5 0x800000, .entryWrite 5 0, .migrant m 5 0,
        .migrant m 5 1, .migrant m 5 3],
      (withPk (transit {}) (pk b)).arrived? 7 = some (pk b)) ∧
    ((transit {}).homeEntry 0 0 5).transit = true ∧ ((transit {}).homeEntry 0 0 5).tokens = 0 ∧
      ((transit { tokens := 1, arrived := some 3 }).homeEntry 0 0 5).tokens = 1 ∧ ((transit {}).homeEntry 0 0 5).arrived = none ∧
      ((transit { arrived := some 3 }).homeEntry 0 0 5).arrived = some 3 ∧
      (let h := (transit {}).homeEntry 0 0 5; h.returned = [] ∧ h.held = [] ∧ h.writes = []) ∧
      (let h := (ranked (idleThr []) 0 1 false).homeEntry 0 0 5; h.word.toNat / 2 ^ 23 % 2 = 1 ∧ coordPkg h.word = (turn []).pkg) ∧
      (ranked (idleThr []) 0 1 false).coreHasRank 0 0 5 = true ∧ (turn []).coreHasRank 0 0 5 = false ∧
      ((core0 (turn []) (fun c => { c with arrivals := List.replicate 4 m })).core 0).arrivals.length = 4 ∧
      ((ranked (idleThr []) 0 1 false).homeEntry 0 0 5).transit = false ∧ (0x800000 : Word).toNat / 2 ^ 23 % 2 = 1 ∧
      (core0 (turn []) (fun c => { c with migslot := 4 })).migSlot 0 = some 2 ∧ (turn []).migSlot 0 = none ∧ ((turn []).core 0).arrivals = [] ∧
      m.source ≠ (pk (.migrant m 5 3)).dst := by decide
/-- A copy whose destination rank is in transit waits with its piece. -/
theorem witness_CopyEngineEvents_waits : let c : Copy := { id := 1, core := 0, slot := 1, rows := 1, ch := 0, xid := 1, op := 0, x0 := 0x6000000A00000000, x1 := 0x4000000000000040, y0 := 16, started := true }
    let s := (transit { word := (turn []).coordOf 0 1 }).setCluster 0 { copies := [c] }
    s.copy? 0 1 = some c ∧ s.pieceLen c 0 = 16 ∧
      (match (checkPieces s c [(c.srcAt 0 0, 16, 0), (c.dstAt 0 0, 16, 1)]).1 with | .wait => true | _ => false) = true := by decide
theorem witness_MessageEvents : let s := ranked (idleThr []) 0 1 false
    let e := core0 s (fun c => { c with bind := [(1, 1)], sendbuf := [mail] })
    (∀ b ∈ [Body.toHome 0 mail, .rankFetch 0 mail, .hubMsg 15 [1], .msg 0 mail 1 true, .msgAck 3 0, .msgRefuse mail 0 1, .msgRefuse mail 0 2,
        .sendqReply 3 0 0 5 1 0, .sendqReply 3 0 2 5 0 0, .sendqData 0 { mail with sendq := some (0x10000, 32, 0) } 1 0 [1] (0, true),
        .sendqData 0 { mail with sendq := some (0x10000, 32, 0) } 1 0 [1] (0, false), .rankAsk 5, .msgReturn 0 mail none,
        .compFill 0 { slot := 9, reg := 3, val := 1, copy := true }],
      (withPk e (pk b)).arrived? 7 = some (pk b)) ∧
    (e.homeEntry 0 0 5).transit = false ∧ (e.homeEntry 0 0 5).word.toNat / 2 ^ 23 % 2 = 1 ∧ coordPkg (e.homeEntry 0 0 5).word = e.pkg ∧
      (e.homeEntry 0 0 6).word.toNat / 2 ^ 23 % 2 ≠ 1 ∧ (transit {}).homeEntry 0 0 5 = { transit := true } ∧
      (e.core 0).classQ 15 = [] ∧ e.slotHasRank 0 1 0 5 = true ∧ e.slotHasRank 0 2 0 5 = false ∧ (e.core 0).refuses 1 1 = none ∧
      (s.core 0).refuses 1 1 = some 2 ∧ (e.core 0).sendbuf = [mail] ∧ e.rankHome 0 5 = some (e.pkg, 0) ∧ (e.core 0).boundTo 1 = some 1 ∧
      (e.core 0).sendbuf.find? (fun e => e.id == 3) = some mail := by decide
/-- A pinned entry, a payload that its context can write, and a fill of an empty and of a full register. -/
theorem witness_MessageEvents_more : let s := ranked { idleThr [] with empty := 8 } 0 1 false
    let f : SendEntry := { mail with fillReg := some 3 }
    (0xC00000 : Word).toNat / 2 ^ 22 % 4 = 3 ∧ s.rangeFault 0 0x80000 8 1 ≠ none ∧
      (∃ t : State, t.rangeFault 0 0x10000 8 1 = none ∧ t.slotHasRank 0 1 0 5 = true) ∧
      (withPk s (pk (.msg 0 f 1 true))).arrived? 7 = some (pk (.msg 0 f 1 true)) ∧ s.slotHasRank 0 1 0 5 = true ∧
      (s.thrOf (.slot 0 1)).mapped 3 = none ∧ (s.thrOf (.slot 0 1)).empty.getLsbD 3 = true ∧ (s.thrOf (.slot 0 1)).pending.getLsbD 3 = false ∧
      (s.thrOf (.slot 0 1)).empty.getLsbD 4 = false ∧
      ((core0 s (fun c => { c with fillbuf := [{ slot := 1, reg := 3, val := 9 }] })).core 0).fillbuf = { slot := 1, reg := 3, val := 9 } :: [] :=
  ⟨by decide, by decide, ⟨let s := ranked { idleThr [] with empty := 8 } 0 1 false
    { s with mem := Memory.setByte (s.mem.setByte 0x42008 15) 0x42009 0 }, by decide, by decide⟩, by decide, by decide, by decide, by decide, by decide,
    by decide, by decide⟩

/-! ### Atomics and ordering -/

theorem witness_AtomicResults : let p : Word := 0x8000000000000000
    let s := tlb0 (turn [(1, 0x4000000000001FF8), (2, 0x80008), (3, p), (4, 1)]) 8 0 true
    let v := { s with ctxs := [(0, { grants := [0x1C0 + 0x7FFF * 2 ^ 27] })] }
    (s.canIssue [1, 5] [6] true ∧ s.nextOk ∧ s.hasRoom 0) ∧ s.canIssue [1, 5, 6] [6] true ∧ s.formPtr (s.operand [1, 5] 0) 0 8 true = .ok 0x4000000000001FF8 ∧
      (s.crewOf 0 1).phys 0x1FF8 = some 0x1FF8 ∧ s.poisoned 1 0 0x1FF8 8 = false ∧ s.poison = [] ∧ s.formPtr (s.operand [2] 0) 0 8 true = .ok 0x80008 ∧
      s.tlbLookup 0 s.thr.ctx 0x80008 = some { ctx := 0, page := 8, shift := 16, leaf := leafWord 8 0 true } ∧ s.flawed = [] ∧ s.allows (leafWord 8 0 true) 16 0x80008 2 = true ∧
      s.formPtr (s.operand [3] 0) 0 8 true = .ok p ∧ v.vaultGrant 0 p 8 false = true ∧ v.vaultGrant 0 p 8 true = true ∧
      (s.vaultGrant 0 p 8 false && s.vaultGrant 0 p 8 true) = false ∧ s.formPtr (s.operand [4] 0) 0 4 true = .error (.pointerFault, 1) :=
  ⟨ready _ _ _ _ _ (by decide), ⟨rfl, by decide, by decide⟩, by decide, by decide, by decide, by decide, by decide, by decide, by decide, by decide,
    by decide, by decide, by decide, by decide⟩
theorem witness_AtomicResults_acquires : let s := user { idleThr [] with stage := 8, vals := [0x4000000000000008, 1] }
    s.thr.stage = 8 ∧ s.thr.saveAt = none ∧ s.formPtr (s.thr.vals.getD 0 0) 0 8 true = .ok 0x4000000000000008 ∧ s.owes s.cur Body.isLoad = false ∧
      s.thr.vecAccessesOut = false := by decide
/-- One with release, its release done; and accesses of a rank: on this core, and of none. -/
theorem witness_AtomicResults_release : let s := tlb0 (user { idleThr [] with stage := 1, arg := 6, vals := [0x80008, 1] }) 8 0 true
    s.thr.stage = 1 ∧ s.thr.arg = 6 ∧ s.thr.saveAt = none ∧ s.formPtr (s.thr.vals.getD 0 0) 0 8 true = .ok 0x80008 ∧
      s.tlbLookup 0 s.thr.ctx 0x80008 = some { ctx := 0, page := 8, shift := 16, leaf := leafWord 8 0 true } ∧
      s.allows (leafWord 8 0 true) 16 0x80008 2 = true ∧ leafSync (leafWord 8 0 true) = true ∧ s.fenceClear 1 = true ∧ s.thr.async = [] := by decide
theorem witness_AtomicResults_spr : let s := ranked (idleThr [(1, 0x6000000A00000000), (2, 0x6000000C00000000)]) 0 1 true
    let t := { s with poison := [(1, 0, 0x3FF)] }
    s.canIssue [1, 5] [6] true ∧ s.formPtr (s.operand [1, 5] 0) 0 8 true = .ok 0x6000000A00000000 ∧
      (s.opened [1, 5]).resolves 5 (.here 0 1) (s.opened [1, 5]) ∧ (s.opened [2, 5]).resolves 6 .nowhere (s.opened [2, 5]) ∧
      (∃ u, (s.opened [1, 5]).relTurn s.thr.csr.regmask 0 1 = .wait u) ∧ t.poison ≠ [] :=
  ⟨⟨rfl, by decide, by decide⟩, by decide, here _ (by decide), here _ (by decide), ⟨_, rfl⟩, by decide⟩
theorem witness_AtomicResults_point : ∀ acc ∈ [some ({ pa := 0x80008, n := 8, region := 0, sync := true, ca := 0 } : PAccess), none],
    let p := pk (.atomic 0 (.reg 3) 0x8000000000000000 8 1 0 acc 0 0)
    (withPk (turn []) p).arrived? 7 = some p ∧ (withPk (turn []) p).orderClear p = true ∧ p.parts = [] ∧ (withPk (turn []) p).poison = [] ∧
      (withPk (turn []) p).flawed = [] ∧ ({ withPk (turn []) p with poison := [(0, 0, 0x10001)] } : State).poisoned 0 0 0x80008 8 = true := by decide
theorem witness_OrderingInstructionResults : let s := tlb0 (turn [(1, 0x80008), (2, 0x90008)]) 8 0 true
    let t := tlb0 (turn [(1, 0x80008)]) 8 0 false
    (s.canIssue [1] [] true ∧ s.nextOk ∧ s.hasRoom 0) ∧ s.thr.saveAt = none ∧ s.thr.runAhead = false ∧ s.canIssue [] [] true ∧ s.canIssue [1, 2] [3] true ∧
      s.owes s.cur Body.isLoad = false ∧ s.thr.vecAccessesOut = false ∧ s.thr.arg = 0 ∧ s.classDone 1 = true ∧
      s.formPtr (s.operand [1] 0) 0 8 true = .ok 0x80008 ∧ s.tlbLookup 0 s.thr.ctx 0x80008 = some { ctx := 0, page := 8, shift := 16, leaf := leafWord 8 0 true } ∧
      t.tlbLookup 0 t.thr.ctx 0x80008 = some { ctx := 0, page := 8, shift := 16, leaf := leafWord 8 0 false } ∧ leafSync (leafWord 8 0 false) = false ∧
      s.allows (leafWord 8 0 true) 16 0x80008 2 = true ∧ s.allows (leafWord 8 0 true) 16 0x80008 0 = true ∧ s.orphan 0x80008 = none ∧ s.canIssue [1] [3] true ∧ s.canIssue [] [3] true ∧ s.thr.mapped 1 = none ∧
      s.now / 2 < (s.operand [1] 0).toNat ∧ (s.operand [3] 0).toNat ≤ s.now / 2 ∧ (s.core 0).sendbuf.length < 8 :=
  ⟨ready _ _ _ _ _ (by decide), by decide, by decide, ⟨rfl, by decide, by decide⟩, ⟨rfl, by decide, by decide⟩, by decide, by decide, by decide,
    by decide, by decide, by decide, by decide, by decide, by decide, by decide, by decide, ⟨rfl, by decide, by decide⟩, ⟨rfl, by decide, by decide⟩, by decide,
    by decide, by decide, by decide⟩
/-- The later acts: a fence answered and not yet, a lock granted, one released and one refused, a wait answered, and a barrier. -/
theorem witness_OrderingInstructionResults_later : let s := user { idleThr [] with stage := 1, arg := 6 }
    let probe := withPk s (pk .probe)
    let lock := withPk s (pk (.lockReply 0x80008 true))
    let qw := withPk s (pk (.qwaitReply 5))
    let copy : Copy := { id := 1, core := 0, slot := 1, ch := 0, xid := 1, op := 0 }
    s.fenceClear 15 = true ∧ s.thr.async = [] ∧ probe.fenceClear 15 = false ∧ lock.lockAnswer = some (pk (.lockReply 0x80008 true)) ∧
      (lock.dropPacket 7).owes lock.cur Body.isLoad = false ∧ qw.qwaitAnswer = some (7, 5) ∧
      ((turn []).setCluster 0 { copies := [copy] }).classDone 1 = false ∧ (withPk (user { idleThr [] with stage := 4, vals := [8] }) (pk (.lockReply 8 false))).lockAnswer =
        some (pk (.lockReply 8 false)) := by decide
/-- A thread in a barrier of its crew: the generation it joined is complete, and not yet. -/
theorem witness_OrderingInstructionResults_barrier : let n : Inst := { num := 0, bars := [(0, 0, 1, [])] }
    let r : LaunchRec := { threads := 2, cores := 1, clusters := 1 }
    let l : Launch := { lid := 0, lrec := r, insts := [n] }
    let s := user { idleThr [] with stage := 2, barWait := some (0, 0) }
    let s := s.setPart 0 { s.part 0 with graph := [l] }
    s.myInst = some (r, n) ∧ 0 < (n.bar 0 (s.thr.tidx.toNat / barSize r 0)).1 ∧ (n.bar 0 (s.thr.tidx.toNat / barSize r 0)).1 ≤ 1 ∧
      n.barFull r 0 (s.thr.tidx.toNat / barSize r 0) = false := by decide
theorem witness_HomeLockAndWaitEvents : let q := pk (.lockReq 0x80008 9)
    let l : Lock := { pa := 0x80008, slice := sliceOf q, holder := 4, waiters := [(8, 5)] }
    let w : Packet := { id := 8, body := .lockReq 0x80008 5 }
    let u : Packet := { id := 8, owner := some (.slot 0 1), body := .lockReply 0x80008 5 }
    let s := turn []
    (∀ b ∈ [Body.lockReq 0x80008 9, .lockRel 0x80008 4, .qwait 0x80008 0 0, .qwait 0x80008 1 0], (withPk s (pk b)).arrived? 7 = some (pk b)) ∧
      s.locks.find? (fun l => l.pa == 0x80008) = none ∧ ({ s with locks := [l] } : State).locks.find? (fun l => l.pa == 0x80008) = some l ∧ l.holder = 4 ∧
      w.id = 8 ∧ u.id = 8 ∧ qwaitMet 0 (BitVec.ofNat 64 (s.mem.readLE 0x80008 8)) 0 = true ∧ qwaitMet 1 (BitVec.ofNat 64 (s.mem.readLE 0x80008 8)) 0 = false := by
  decide
theorem witness_HomeLockAndWaitEvents_full : let q := pk (.lockReq 0x80008 9)
    let l : Lock := { pa := 8, slice := sliceOf q, holder := 4 }
    let w : QWaiter := { pkt := 3, pa := 8, slice := sliceOf q, cond := 0, v := 1 }
    128 ≤ ((List.replicate 128 l).filter (fun l => l.slice == sliceOf q)).length ∧ 256 ≤ ((List.replicate 256 w).filter (fun x => x.slice == sliceOf q)).length ∧
      1024 ≤ ({ l with pa := 0x80008, waiters := List.replicate 1024 (3, 4) } : Lock).waiters.length ∧
      (let p := { q with waiting := true, after := 5 }
       (withPk (turn []) p).packet? 7 = some p ∧ p.waiting = true ∧ (turn []).now < p.after) := by decide +kernel
/-- An output with one head, with two, with two of which one is old, and with two atomics that combine. -/
theorem witness_SwitchGrants : let out := 0
    let p : Packet := { id := 7, net := .syn, route := [(out, 0)], body := .atomic 0 .none 0 8 1 0 (some { pa := 8, n := 8, region := 0, sync := true, ca := 0 }) 0 0 }
    let q : Packet := { p with id := 8, route := [(out, 1)], stamp := 1 }
    let o : Packet := { p with age := 63, body := .probe }
    let s := turn []
    s.now = 0 ∧ (Tab.get {} s.switches out : SwitchOut).busy ≤ s.now ∧ s.heads out = [] ∧ (withPk s p).heads out = [(0, p)] ∧
      ({ s with packets := [p, q] } : State).heads out = [(0, p), (1, q)] ∧ ({ s with packets := [o, q] } : State).heads out = [(0, o), (1, q)] ∧
      combines o q = false ∧ combines q o = false ∧ (Tab.get {} s.switches (outSwitch out) : SwitchOut).split < 2 ∧ p.cls ≤ 3 := by decide
theorem witness_SwitchGrants_home : let acc : PAccess := { pa := 8, n := 8, region := 0, sync := true, ca := 0 }
    let p : Packet := { pk (.atomic 0 .none 0 8 3 0 (some acc) 0 0) with parts := [(8, 1, 0)] }
    let q : Packet := { id := 8, held := true, body := .atomic 0 .none 0 8 2 0 (some acc) 0 0 }
    let s := { turn [] with packets := [p, q] }
    let f := pk .probe
    let g : Packet := { f with id := 5, body := .store acc 0 }
    s.arrived? 7 = some p ∧ s.orderClear p = true ∧ s.poison = [] ∧ s.packet? 8 = some q ∧ (withPk (turn []) f).arrived? 7 = some f ∧
      g.body.isGen = true ∧ g.id < f.id := by decide
theorem witness_RegistrationEvents : let d : Memory := [(0, 1)]
    let l : Line := { line := 5, s0 := { valid := true, reg := some 2 } }
    let s := { turn [] with nextId := 9, homeReg := [(10, 3)], clusters := [(0, { cc := [l] })] }
    (∀ b ∈ [Body.regis 1 0 5 0 1 d 0, .regis 0 0 5 0 1 d 0, .regisReply 1 0 5 0 1 d, .notice 1 0 5 0], (withPk s (pk b)).arrived? 7 = some (pk b)) ∧
      7 < s.nextId ∧ Memory.wf d = true ∧ s.homeDie (256 * 5) = 0 / 16 ∧ Tab.find? s.homeReg (2 * 5 + 0) = some 3 ∧ registrantAt 1 3 = some (1, 3) ∧
      findLine (s.cluster 0).cc 5 = some l ∧ l.ro = false ∧ findLine (s.linesAt 1 0) 5 = some l ∧ Memory.wf l.s0.data = true ∧
      (s.sectorAt 1 0 5 0).reg.bind (registrantAt 0) = some (0, 2) := by decide

/-! ### Threads and launches -/

theorem read_ok (s : State) (k i : Nat) (p : Word) (n : Nat) (h : ptrPath p ≤ 1)
    (hf : s.pagesLook k i (ptrAddr p) n 0 = none) :
    s.threadRead k i p n = .ok ((List.range n).map (fun j => s.genByte k (s.thrOf (.slot k i)).ctx (ptrAddr p + j))) := by
  simp only [State.threadRead, h, if_true, hf]

/-- The state with words in the placed page, which the TLB of core 0 has: pairs of an offset and eight bytes. -/
def withRec (s : State) (ws : List (Nat × Nat)) : State :=
  core0 { s with mem := ws.foldl (fun m w => m.writeLE (0x50000 + w.1) 8 w.2) s.mem }
    (fun c => { c with tlb := [{ ctx := 0, page := 1, shift := 16, leaf := leafWord 5 0 false }] })
/-- Launch 1 of one thread, admitted, with its instance on core 0 as given. -/
def oneLaunch (n : Inst) : Launch :=
  { lid := 1, lrec := { threads := 1, cores := 1, clusters := 1, count := 1, sprows := 1, sflags := 1 }, phase := .admitted, next := 1, insts := [n] }
/-- Its instance, with the thread's start record on its way to slot 3. -/
def plannedInst : Inst := { num := 0, cores := [(0, 0)], plan := [(0, 3, 0)] }
/-- Its instance, with the thread in slot 3. -/
def startedInst : Inst := { num := 0, cores := [(0, 0)], started := [(0, 3, 0)] }
def withGraph (s : State) (g : List Launch) : State := s.setPart 0 { s.part 0 with graph := g }
/-- The thread of slot 3 of core 0, of launch 1. -/
def member (t : Thread) : State → State := fun s => s.setThrOf (.slot 0 3) { t with lid := 1, crew := 2 }

theorem witness_ThreadStartAndControlResults :
    let s := withGraph (withRec (sysTurn [(1, 0x10040), (2, 0x2000000000000000), (3, 0x10041)])
      [(0x40, 0x10000), (0x48, 1), (0x58, 3)]) [oneLaunch plannedInst]
    s.cur = .slot 0 0 ∧ (s.canIssue [1] [4] true ∧ s.nextOk ∧ s.hasRoom 0) ∧ s.thr.saveAt = none ∧ s.thr.runAhead = false ∧
      s.checkPtr false 0x10040 = none ∧ s.checkPtr false 0x10041 = none ∧
      (∃ b, s.threadRead 0 0 0x10040 32 = .ok b ∧ (startRec b).slot = 3 ∧ s.slotBound 0 3 = false ∧
        s.startInst 0 (startRec b) = some (0, oneLaunch plannedInst, plannedInst) ∧ (startRec b).bad = false ∧ (startRec b).ranked = false ∧
        (∃ cs, s.joinCrew 0 (startRec b) (oneLaunch plannedInst) = some (1, cs)) ∧ (startRec b).accs = 0 ∧ (startRec b).lanes = 0) ∧
      (turn []).cur = .slot 0 1 :=
  ⟨rfl, ready _ _ _ _ _ (by decide), by decide, by decide, by decide, by decide, ⟨_, rfl, by decide, by decide, by decide, by decide, by decide,
    ⟨_, rfl⟩, by decide, by decide⟩, rfl⟩
/-- Records with a rank, with lane groups, with a reserved bit set, and of a launch with no instance here; and the later acts. -/
theorem witness_ThreadStartAndControlResults_more : let recd := fun (a b c d : Nat) => startRec (bytesLE 8 a ++ bytesLE 8 b ++ bytesLE 8 c ++ bytesLE 8 d)
    let s := withGraph (sysTurn []) [oneLaunch plannedInst]
    let later := fun (n : Nat) (t : Thread) => member t (s.setThrOf (.slot 0 0) { s.thrOf (.slot 0 0) with stage := n, arg := 3 })
    (recd 0x10000 1 0 (3 + 2 ^ 53)).ranked = true ∧ (recd 0x10000 1 0 (3 + 256)).lanes = 1 ∧ (recd 0x10000 1 0 (3 + 64)).bad = true ∧
      s.startInst 0 (recd 0x10000 2 0 3) = none ∧ (recd 0x10000 1 0 (3 + 9 * 2 ^ 12)).accs = 9 ∧ s.rankHome 0 0 = none ∧
      (recd 0x10000 1 0 (3 + 64 * 2 ^ 24)).bad = true ∧ s.joinCrew 0 (recd 0x10000 1 0 (3 + 63 * 2 ^ 24 + 2 ^ 54)) (oneLaunch plannedInst) = none ∧
      (later 1 {}).owesEntry = false ∧ ((later 1 {}).thrOf (.slot 0 (later 1 {}).thr.arg)).laneReq = 0 ∧
      (withPk (later 1 {}) { pk (.entryWrite 5 0) with owner := some (.slot 0 0) }).owesEntry = true ∧
      ((later 2 { lanes := [0] }).thrOf (.slot 0 (later 2 {}).thr.arg)).lanes ≠ [] ∧ (later 2 {}).thr.stage = 2 := by decide
/-- TREAP, TKILL, TSTAT and TSELF: the slot named by g1, and one above 15. -/
theorem witness_ThreadStartAndControlResults_control : let at_ := fun (t : Thread) => member t (withGraph (sysTurn [(1, 3), (2, 16)]) [oneLaunch startedInst])
    let s := at_ { run := .exited }
    let k := at_ { vq := [{ op := { major := 14, f5 := 0 } }] }
    let q := ((k.countKill 0 3).unholdOf 0 3).quench 0 3
    (s.canIssue [1] [4] true ∧ s.nextOk ∧ s.hasRoom 0) ∧ s.canIssue [2] [4] true ∧ s.canIssue [1] [] true ∧ 16 ≤ (s.operand [2] 0).toNat ∧
      (s.operand [1] 0).toNat = 3 ∧ s.slotBound 0 3 = true ∧ s.slotBound 0 5 = false ∧ (s.thrOf (.slot 0 3)).run = .exited ∧ s.owesNothing 0 3 = true ∧
      (at_ { run := .exited, vec := { unlanded := [{ v := 0, group := 0, vtype := 3, elems := [] }] } }).owesNothing 0 3 = false ∧
      ((at_ { run := .trapped }).thrOf (.slot 0 3)).run = .trapped ∧ (k.thrOf (.slot 0 3)).run ≠ .killed ∧ q.killQuiet 0 3 = true ∧
      ((withPk k { pk .probe with owner := some (.slot 0 3) }).quench 0 3).killQuiet 0 3 = false ∧
      (k.partOfCore 0 = some 0 ∧ k.launch? 0 1 = some (oneLaunch startedInst) ∧ startedInst.killed.contains 0 = false) ∧
      ((at_ { run := .killed }).killQuiet 0 3 = true) := 
  ⟨ready _ _ _ _ _ (by decide), ⟨rfl, by decide, by decide⟩, ⟨rfl, by decide, by decide⟩, by decide, by decide, by decide, by decide, by decide,
    by decide, by decide, by decide, by decide, by decide, by decide, by decide, by decide⟩
/-- The last of a crew: its rows are freed. -/
theorem witness_ThreadStartAndControlResults_last : let s := member { run := .exited } (sysTurn [(1, 3)])
    let s := core0 s (fun c => { c with crews := [(2, { lid := 1, rows := 1 })] })
    s.instAt 0 (s.thrOf (.slot 0 3)) = none ∧ Tab.find? (s.core 0).crews 2 = some { lid := 1, rows := 1 } ∧
      (∀ y ∈ (s.core 0).slots, y.1 ≠ 3 → ¬ (y.2.crew = 2 ∧ y.2.lid = 1 ∧ y.2.ord = 0)) ∧ (s.core 0).notices = [] := by decide
/-- EXIT and RETIRE: nothing pending, a register pending, and the second act with and without a successor. -/
theorem witness_ThreadStartAndControlResults_exit : let s := turn []
    let p := user { idleThr [] with pending := 8 }
    let e := user { idleThr [] with stage := 1, arg := 6, lid := 1 }
    let f := withGraph e [oneLaunch { num := 0, started := [(0, 1, 0)], succLid := some 2 }]
    s.canIssue [] [] true ∧ s.thr.pending = 0 ∧ s.thr.arg = 0 ∧ p.canIssue [] [] true ∧ p.thr.pending ≠ 0 ∧ e.thr.stage = 1 ∧ e.fenceClear 7 = true ∧
      e.thr.async = [] ∧ e.hasSuccessor = false ∧ f.fenceClear 7 = true ∧ f.hasSuccessor = true ∧ s.canIssue [] [4] true :=
  ⟨⟨rfl, by decide, by decide⟩, by decide, by decide, ⟨rfl, by decide, by decide⟩, by decide, by decide, by decide, by decide, by decide, by decide,
    by decide, ⟨rfl, by decide, by decide⟩⟩
theorem witness_ThreadStartAndControlResults_lanes : let wait := fun (n : Nat) (g : List Nat) => ((turn []).setThrOf (.slot 0 2) { lanes := g }).setQuad 0 { laneWait := [(0, 1, n)] }
    ((wait 1 [0]).quad 0).laneWait = [(0, 1, 1)] ∧ 1 ∈ (wait 1 [0]).freeLanes 0 ∧ (∀ h, h < 1 → h ∉ (wait 1 [0]).freeLanes 0) ∧
      0 ∈ (wait 2 []).freeLanes 0 ∧ 1 ∈ (wait 2 []).freeLanes 0 ∧ 2 ∈ (wait 2 [0]).freeLanes 0 ∧ 3 ∈ (wait 2 [0]).freeLanes 0 ∧
      0 ∉ (wait 2 [0]).freeLanes 0 ∧ laneGrant ((wait 4 [0]).freeLanes 0) 4 = none := by decide

theorem room_of_empty (s : State) (q : Nat) (h : (s.part q).graph = []) : s.graphRoom q = some s := by
  simp [State.graphRoom, h, Partition.share]
theorem room_of_old (s : State) (q : Nat) (l : Launch) (h : (s.part q).graph.find? Launch.mayLeave = some l) : s.graphRoom q ≠ none := by
  simp only [State.graphRoom, h]
  split <;> exact Option.some_ne_none _
theorem no_room_of_full (s : State) (n : Nat) (l : Launch) (hn : 4096 ≤ n) (h : (s.part 0).graph = List.replicate n l) (h1 : l.holdsEntry = true)
    (h2 : l.mayLeave = false) : s.graphRoom 0 = none := by
  have : Partition.share 0 ≤ 4096 := by
    have := Nat.mod_lt (Config.graphShare 0) (show 0 < 4096 - 0 - (15 - 0) by decide)
    unfold Partition.share Partition.sharesTo
    omega
  simp only [State.graphRoom, h, List.filter_replicate, h1, if_true, List.length_replicate, List.find?_replicate, h2]
  rw [if_neg (by omega)]
  simp
/-- An object with one image at offset 0, and a record of a launch of it: one thread, 64 KiB of scratchpad. -/
def image : List Byte := bytesLE 8 (0x314F584B + 2 ^ 32 + 2 ^ 48) ++ List.replicate 24 0 ++ bytesLE 8 (64 * 2 ^ 32)
def launchWords : List (Nat × Nat) := [(0x80, 7), (0x88, 2 ^ 40 + 2 ^ 48 + 2 ^ 56), (0x90, 1 + 8 * 2 ^ 56)]
def withImage (s : State) : State := { s with objs := [(7, { part := 0, va := 0, bytes := image })] }
/-- LAUNCH with its record at g1, at its first act and at the one after its release. -/
theorem witness_LaunchResults : let s := withImage (withRec (turn [(1, 0x10080), (2, 0x10088)]) launchWords)
    let u := withImage (withRec (user { idleThr [] with stage := 1, arg := 6, vals := [0x10080] }) launchWords)
    s.cur = .slot 0 1 ∧ (s.canIssue [1] [3] true ∧ s.nextOk ∧ s.hasRoom 0) ∧ s.thr.saveAt = none ∧ s.thr.runAhead = false ∧
      s.checkPtr false (s.operand [1] 0) = none ∧ (s.operand [2] 0).toNat % 64 ≠ 0 ∧ s.checkPtr false 0xE000000000000800 ≠ none ∧ s.thr.arg = 0 ∧
      s.owes s.cur Body.isLoad = false ∧ s.thr.vecAccessesOut = false ∧ u.thr.stage = 1 ∧ u.thr.arg = 6 ∧ u.fenceClear 1 = true ∧ u.thr.async = [] ∧
      u.partOfCore 0 = some 0 ∧ u.graphRoom 0 = some u ∧ (∃ b, u.threadRead 0 1 0x10080 64 = .ok b ∧
        u.checkLaunch 0 0 (launchRec b) = .ok none ∧ u.launchEntry 0 (launchRec b) = some 0) ∧
      (withGraph u (List.replicate 4096 (oneLaunch startedInst))).graphRoom 0 = none :=
  ⟨rfl, ready _ _ _ _ _ (by decide), by decide, by decide, by decide, by decide, by decide, by decide, by decide, by decide, by decide, by decide,
    by decide, by decide, by decide, room_of_empty _ _ rfl, ⟨_, read_ok _ _ _ _ _ (by decide) (by decide +kernel), by decide, by decide⟩, no_room_of_full _ 4096 _ (by decide) rfl rfl rfl⟩
/-- SUCC, by the lead of an instance of one thread, with a descriptor that passes; and what fails each of its checks. -/
theorem witness_LaunchResults_succ : let d : List (Nat × Nat) := [(0x40, 0x10000), (0x50, 2 ^ 24 + 2 ^ 32 + 2 ^ 40 + 2 ^ 56), (0x58, 0)]
    let n : Inst := { num := 0, cores := [(0, 0)], started := [(0, 1, 0)] }
    let s := withGraph (withRec (user { idleThr [(1, 0x10040)] with lid := 1, lead := true }) d) [oneLaunch n, { lid := 3, phase := .recorded }]
    s.canIssue [1] [3] true ∧ s.instAt 0 s.thr = some (0, oneLaunch n, n) ∧ s.thr.lead = true ∧ (oneLaunch n).lrec.sflags % 2 ≠ 0 ∧ n.succLid = none ∧
      (turn []).instAt 0 (turn []).thr = none ∧ s.graphRoom 0 ≠ none ∧ lidOf ((s.part 0).lastLid + 1) ≠ 2 ∧
      (∃ b, s.threadRead 0 1 0x10040 32 = .ok b ∧ s.succMalformed 0 b = false ∧ s.succMismatch (oneLaunch n) n b = false) ∧
      s.succMalformed 0 [] = true ∧ s.succMismatch (oneLaunch n) n (List.replicate 19 0 ++ [2]) = true :=
  ⟨⟨rfl, by decide, by decide⟩, by decide, by decide, by decide, by decide, by decide,
    room_of_old _ _ _ rfl, by decide, ⟨_, read_ok _ _ _ _ _ (by decide) (by decide +kernel), by decide, by decide⟩, by decide, by decide⟩
theorem witness_LaunchResults_answer : let p := pk (.succ (.reg 3) 5)
    (withPk (turn []) p).arrived? 7 = some p ∧ p.owner = some (.slot 0 1) ∧ lidOf 1 = 1 ∧ lidOf (2 ^ 32 - 1) = 2 ^ 32 - 1 ∧ lidOf (2 ^ 32) = 1 := by decide
/-- A ring of two records in the placed page with one to read, one with none, and a table that is full. -/
theorem witness_LaunchResults_ring : let v : Vi := { qbase := BitVec.ofNat 64 (0x10080 + 1), tail := 1 }
    let s := { withImage (withRec (turn []) launchWords) with vis := [(4, v)] }
    s.ringReady 4 = true ∧ (turn []).ringReady 4 = false ∧ s.graphRoom (s.vi 4).part = some s ∧
      s.checkLaunch 0 0 (launchRec (s.genRead 0 (ringAt v.qbase 64 0) 64)) = .ok none ∧
      s.launchEntry 0 (launchRec (s.genRead 0 (ringAt v.qbase 64 0) 64)) = some 0 ∧
      (withGraph s (List.replicate 4096 (oneLaunch startedInst))).graphRoom (s.vi 4).part = none :=
  ⟨by decide, by decide, room_of_empty _ _ rfl, by decide, by decide, no_room_of_full _ 4096 _ (by decide) rfl rfl rfl⟩
theorem witness_LaunchResults_admit : let l : Launch := { oneLaunch startedInst with phase := .queued }
    let at_ := fun (p : Nat) => (withGraph (turn []) [{ l with prio := p }]).part 0
    let first := (slotsOf (at_ 0).lwgt).getD (at_ 0).lwptr 0
    first < 4 ∧ (at_ first).admissible first = some { l with prio := first } ∧ (at_ (3 - first)).admissible first = none ∧
      (at_ (3 - first)).admissible (3 - first) = some { l with prio := 3 - first } ∧ ((turn []).part 0).admissible 0 = none := by decide
/-- An admitted launch with an instance to place on core 0, one that is not admitted, one whose place is no place, one behind another. -/
theorem witness_LaunchResults_place : let l : Launch := { oneLaunch plannedInst with next := 0, insts := [] }
    let s := withGraph (turn []) [l]
    let t := withGraph (turn []) [{ l with lid := 4 }, l]
    s.launch? 0 1 = some l ∧ l.phase = .admitted ∧ l.next < l.lrec.count ∧ s.placeOk (s.part 0) l.lrec [(0, 8)] = true ∧ s.placeBefore (s.part 0) 1 = false ∧
      s.placeOk (s.part 0) l.lrec [(0, 0)] = false ∧ t.placeBefore (t.part 0) 1 = true := by decide
/-- A launch whose record is due and goes to its CPLT, one that goes to its interface's ring, one not due, one without a place. -/
theorem witness_LaunchResults_record : let l : Launch := { oneLaunch startedInst with phase := .ended }
    let s := { withData (turn []) with vis := [(0, { cqbase := 0x20000 })] }
    let c := { l with lrec := { l.lrec with cplt := 0x20020 } }
    l.due = true ∧ (oneLaunch startedInst).due = false ∧ s.recordPlace c = some (0x20020, false) ∧ s.recordPlace l = some (0x20000, true) ∧
      s.recordPlace { l with lrec := { l.lrec with cplt := 0x90000 } } = none ∧ (withGraph s [l]).launch? 0 1 = some l ∧ l.status ≤ 1 := by decide
theorem witness_LaunchResults_account : let s := { turn [] with now := 4400, parts := [(0, { capw := 5 }), (1, { accrued := 2 })] }
    Tab.find? s.parts 0 = some { capw := 5 } ∧ 0 < s.tb.toNat / 1100 ∧ s.tb.toNat / 1100 ≤ 2 := by decide

/-- Launch 1, whose only thread has arrived in slot 3 of core 0, with its successor held as launch 2. -/
def succeeded (n : Inst) (verdict : Nat) : State :=
  let l := oneLaunch { n with num := 0, cores := [(0, 0)], started := [(0, 3, 0)], gone := [0], succLid := some 2 }
  withGraph (member { run := .retiring } (turn []))
    [{ l with verdict := verdict }, { lid := 2, lrec := l.lrec, phase := .held, sdesc := List.replicate 32 0, pred := some 1 }]
theorem witness_SuccessionEvents : ∀ st ∈ [0, 1, 3, 4], let s := succeeded { num := 0, seqStage := st } 0
    (∃ l n m, s.launch? 0 1 = some l ∧ l.insts.find? (fun n => n.succLid.isSome && n.allGone l.lrec) = some n ∧ n.succLid.bind (s.launch? 0) = some m ∧
      m.lid ≠ l.lid ∧ n.killed = [] ∧ continues n l.lrec m.lrec = true ∧ n.seqStage = st ∧ s.membersQuiet n = true ∧ (n.here.map (fun x => (x.1, x.2.1))).Nodup ∧
      l.verdict ≠ 2 ∧ l.phase ≠ .held ∧ nextTidx l.lrec m.lrec 0 = some 0 ∧ (s.dropTasks n l.lrec m.lrec m.sdesc).stepTwo n m.sdesc = true ∧
      (l.insts.find? (fun n => n.succLid.isSome && n.seqStage == 4) = some n ↔ st = 4) ∧ (m.lrec.energy : Int) ≤ (s.part 0).bal) := by
  intro st hs
  simp only [List.mem_cons, List.not_mem_nil, or_false] at hs
  rcases hs with rfl | rfl | rfl | rfl <;>
    exact ⟨_, _, _, rfl, rfl, rfl, by decide, by decide, by decide, by decide, by decide, by decide, by decide, by decide, by decide, by decide, by decide,
      by decide⟩
/-- A killed member, one whose thread still owes something, tiles of the thread at work, a tainted predecessor, an account too low. -/
theorem witness_SuccessionEvents_more : let n : Inst := { num := 0, cores := [(0, 0)], started := [(0, 3, 0)], gone := [0], succLid := some 2 }
    let l := oneLaunch n
    let s := succeeded n 0
    let t := s.setQuad 0 { tasks := [{ core := 0, slot := 3, seq := 1, record := 2 :: List.replicate 63 0, engine := some 0, origin := 0 }] }
    s.launch? 0 1 = some l ∧ (succeeded { n with killed := [0] } 0).launch? 0 1 = some (oneLaunch { n with killed := [0] }) ∧
      continues n l.lrec { l.lrec with threads := 2 } = false ∧ (withPk s { pk .probe with owner := some (.slot 0 3) }).membersQuiet n = false ∧
      (t.dropTasks n l.lrec l.lrec []).stepTwo n [] = false ∧ (succeeded n 2).launch? 0 1 = some { l with verdict := 2 } ∧ nextTidx { l.lrec with threads := 2 } l.lrec 1 = none ∧
      (s.part 0).bal < ({ l.lrec with energy := 5 } : LaunchRec).energy := by decide
/-- TSAVE and TLOAD of slot 3, with the image pointer in g2; slot 0, a slot above 15, a pointer of another path. -/
theorem witness_SaveAndRestoreResults : let g : List (Nat × Word) := [(1, 3), (2, 0x10040), (3, 16), (4, 0x4000000000000000), (6, 0x2000000000000000)]
    let s := withRec (sysTurn g) [(0x40, 0x3149534B + 2 ^ 32), (0x50, 576)]
    let m := member {} s
    let q : Packet := { id := 7, owner := some (.slot 0 3), body := .probe }
    s.cur = .slot 0 0 ∧ (s.canIssue [1, 2] [] true ∧ s.nextOk ∧ s.hasRoom 0) ∧ s.thr.saveAt = none ∧ s.thr.runAhead = false ∧ s.canIssue [3, 2] [] true ∧
      s.checkPtr true 0x10040 = none ∧ s.checkPtr false 0x10040 = none ∧ s.checkPtr true 0x4000000000000000 = none ∧
      s.checkPtr true 0x2000000000000000 ≠ none ∧ s.slotBound 0 3 = false ∧ m.slotBound 0 3 = true ∧ (m.thrOf (.slot 0 3)).run = .issuing ∧
      (turn []).cur = .slot 0 1 ∧ (withPk m q).slotBound 0 3 = true :=
  ⟨rfl, ready _ _ _ _ _ (by decide), by decide, by decide, ⟨rfl, by decide, by decide⟩, by decide, by decide, by decide, by decide, by decide,
    by decide, by decide, rfl, by decide⟩
/-- The image at g2: a good one, one with a lane group, one with a wrong magic, one whose slot is bound. -/
theorem witness_SaveAndRestoreResults_image : let g : List (Nat × Word) := [(1, 3), (2, 0x10040)]
    let s := withRec (sysTurn g) [(0x40, 0x3149534B + 2 ^ 32), (0x50, 576)]
    let v := withRec (sysTurn g) [(0x40, 0x3149534B + 2 ^ 32 + 2 ^ 48), (0x50, 576 + 2048 + 2 ^ 56)]
    (∃ hdr bs, s.threadRead 0 0 0x10040 64 = .ok hdr ∧ s.threadRead 0 0 0x10040 (Nat.min (max 576 (imgSize hdr)) (576 + 32 * 1088 + 2048 + 8 * 16448)) = .ok bs ∧
      s.imageFault 0 3 hdr = none ∧ s.restoreRoom 0 3 (imgLid hdr) (imgTidx hdr) = true ∧ imgLanes hdr = 0 ∧ imgFlag hdr 3 = false ∧ s.poison = [] ∧
      (s.core 0).slots.foldl (fun m t => m + t.2.accQuota) 0 + (bitsSet (imgClaim hdr) 8).length ≤ 8 ∧
      (member {} s).imageFault 0 3 hdr = some (BitVec.ofNat 64 (2 ^ 63 + 2)) ∧
      (core0 s (fun c => { c with slots := c.slots ++ [(5, { accQuota := 9 })] })).imageFault 0 3 hdr = none) ∧
    (∃ hdr, v.threadRead 0 0 0x10040 64 = .ok hdr ∧ v.imageFault 0 3 hdr = none ∧ imgLanes hdr = 1) ∧ s.partOfCore 0 = some 0 ∧
    (∃ hdr, (withRec (sysTurn g) []).threadRead 0 0 0x10040 64 = .ok hdr ∧
      (withRec (sysTurn g) []).imageFault 0 3 hdr = some (BitVec.ofNat 64 (2 ^ 63 + 1))) :=
  ⟨⟨_, _, read_ok _ _ _ _ _ (by decide) (by decide +kernel), read_ok _ _ _ _ _ (by decide) (by decide +kernel), by decide, by decide, by decide, by decide,
    by decide, by decide, by decide, by decide⟩, ⟨_, read_ok _ _ _ _ _ (by decide) (by decide +kernel), by decide, by decide⟩, by decide,
    ⟨_, read_ok _ _ _ _ _ (by decide) (by decide +kernel), by decide⟩⟩
/-- The later acts of TSAVE and TLOAD. -/
theorem witness_SaveAndRestoreResults_later :
    let at_ := fun (n : Nat) (t : Thread) => member t ((sysTurn []).setThrOf (.slot 0 0) { pc := 0x10000, stage := n, vals := [3, 0x10040] })
    (at_ 1 { saveAt := some 5 }).thr.stage = 1 ∧ (at_ 1 { saveAt := some 5 }).saveOver 0 3 = false ∧ (at_ 1 {}).saveOver 0 3 = true ∧
      (at_ 1 {}).slotBound 0 3 = true ∧ (at_ 1 {}).slotBound 0 4 = false ∧ ((at_ 2 { lanes := [0] }).thrOf (.slot 0 3)).lanes ≠ [] ∧
      ((at_ 2 {}).thrOf (.slot 0 3)).lanes = [] ∧ (at_ 2 {}).thr.stage = 2 := by decide
/-- A thread that lands at a back-edge, one halted by a trap, and one with no request; two members of one instance. -/
theorem witness_SaveAndRestoreResults_landing : let at_ := fun (t : Thread) => { member t (turn []) with now := 100 }
    let r : LaunchRec := { threads := 2, cores := 1, clusters := 1, count := 1 }
    let n : Inst := { num := 0, cores := [(0, 0)], started := [(0, 3, 0), (0, 4, 1)] }
    let s := withGraph ((at_ { landing := true, saveAt := some 0 }).setThrOf (.slot 0 4) { lid := 1, tidx := 1, crew := 2 }) [{ lid := 1, lrec := r, insts := [n] }]
    s.mayLand 0 3 = true ∧ (at_ { run := .trapped, saveAt := some 0 }).mayForce 0 3 = true ∧ (at_ { landing := true }).mayLand 0 3 = false ∧
      (at_ {}).mayForce 0 3 = false ∧ ((at_ { run := .exited }).thrOf (.slot 0 3)).run = .exited ∧
      s.instAt 0 (s.thrOf (.slot 0 3)) = some (0, { lid := 1, lrec := r, insts := [n] }, n) ∧ s.slotBound 0 4 = true := by decide
theorem witness_SaveAndRestoreResults_write : let at_ := fun (t : Thread) => core0 (member t (withData (turn [])))
                                               (fun c => { c with tlb := [{ ctx := 0, page := 2, shift := 16, leaf := leafWord 6 0 false }, { ctx := 0, page := 1, shift := 16, leaf := 3 }] })
    let s := at_ { run := .swapping, saveAt := some 0, saveTo := 0x20040 }
    let w := at_ { run := .swapping, saveAt := some 0, saveTo := 0x20040, stage := 1 }
    let f := at_ { run := .swapping, saveAt := some 0, saveTo := 0x10040, stage := 1 }
    let m := core0 w (fun c => { c with tlb := [] })
    s.slotBound 0 3 = true ∧ (s.thrOf (.slot 0 3)).run = .swapping ∧ s.leaveQuiet 0 3 = true ∧ w.saveQuiet 0 3 = true ∧
      (s.thrOf (.slot 0 0)).faultSeq = none ∧ w.pagesLook 0 0 0x20040 (w.imageOf 0 3).length 1 = none ∧
      (match f.pagesLook 0 0 0x10040 (f.imageOf 0 3).length 1 with | some (.fault ..) => true | _ => false) = true ∧
      m.pagesLook 0 0 0x20040 (m.imageOf 0 3).length 1 = some (.miss 0x20040) ∧
      (withPk s { pk .probe with owner := some (.slot 0 3) }).leaveQuiet 0 3 = false ∧
      (at_ { run := .swapping, stage := 1, vec := { unlanded := [{ v := 0, group := 0, vtype := 3, elems := [] }] } }).saveQuiet 0 3 = false := by
  decide +kernel

/-! ### Episodes -/

/-- The user thread with episode context 0, opened by its context with handle 0x10000, and its own registers. -/
def epUser (t : Thread) (e : Episode) : State := { user t with episodes := [(0, { e with handle := 0x10000 })] }
/-- The placed page with a descriptor at 0x10080 of an image, and a page of data, pinned, as its window. -/
def openTurn (words : List (Nat × Nat)) : State :=
  let s := withImage (withRec (turn [(1, 0x10080), (2, 0x10088)])
    ([(0x80, 7), (0x90, 0x20000), (0x98, 65536), (0xA0, 1), (0xA8, 1), (0xB0, 0x21000)] ++ words))
  { s with mem := s.mem.writeLE 0x42010 8 ((leafWord 6 0 false).toNat + 256) }

theorem witness_EpisodeInstructionResults : let s := openTurn []
    s.cur = .slot 0 1 ∧ (s.canIssue [1] [3] true ∧ s.nextOk ∧ s.hasRoom 0) ∧ s.thr.saveAt = none ∧ s.thr.runAhead = false ∧
      s.checkPtr false 0x10080 = none ∧ s.checkPtr false 0xE000000000000800 ≠ none ∧ s.checkPtr false 0x10088 = none ∧ s.partOfCore 0 = some 0 ∧
      s.emptyEpisode 0 = some 0 ∧
      (epDesc []).malformed = true ∧ (turn []).epFrames 0 { epDesc [] with wlen := 65536 } = none :=
  ⟨rfl, ready _ _ _ _ _ (by decide), by decide, by decide, by decide, by decide, by decide, by decide,
    by decide +kernel, by decide, by decide⟩
theorem witness_EpisodeInstructionResults_open : let s := openTurn []
    ∃ y, s.threadRead 0 1 0x10080 64 = .ok y ∧ (epDesc y).malformed = false ∧ s.epFrames 0 (epDesc y) = some ([0x60000], 0x61000) ∧
      (s.epImage 0 (epDesc y)).isSome = true ∧ (turn []).epImage 0 (epDesc y) = none :=
  ⟨_, read_ok _ _ _ _ _ (by decide) (by decide +kernel), by decide +kernel, by decide +kernel, by decide +kernel, by decide +kernel⟩
theorem witness_EpisodeInstructionResults_none_empty :
    let s := { turn [] with episodes := (List.range Config.episodeContexts).map (fun x => (x, ({} : Episode))) }
    s.emptyEpisode 0 = none := by decide +kernel
/-- EPSEND: the message of no bytes at g2, of a handle in g1; one too long, one of a kind that no message has; a handle of no episode. -/
theorem witness_EpisodeInstructionResults_send : let g : List (Nat × Word) := [(1, 0x10000), (2, 0x10040), (3, 8), (4, 0x20000)]
    let tlb := fun (s : State) => core0 s (fun c => { c with tlb := [{ ctx := 0, page := 1, shift := 16, leaf := leafWord 5 0 false }] })
    let s := tlb (epUser (idleThr g) { turn := .P })
    let o := tlb ((epUser (idleThr g) { turn := .P, sender := some (.slot 0 2) }).setThrOf (.slot 0 2) { stage := 1, vals := [0x10000], sending := List.replicate 16 0 })
    let u := epUser { idleThr g with stage := 1, arg := 6, vals := [0x10000, 0x10040], sending := List.replicate 16 0 } { turn := .P }
    s.canIssue [1, 2] [] true ∧ s.epOf 0x10000 = some (0, { handle := 0x10000, turn := .P }) ∧ s.epOf 0x20000 = none ∧
      s.sendsOn { handle := 0x10000, turn := .P } = false ∧ (∃ x e, o.epOf 0x10000 = some (x, e) ∧ o.sendsOn e = true) ∧ s.checkPtr false 0x10040 = none ∧
      (∃ hdr pay, s.threadRead 0 1 0x10040 16 = .ok hdr ∧ s.threadRead 0 1 (ptrPlus 0x10040 16) (msgLen hdr) = .ok pay ∧ msgLen hdr ≤ 256 ∧
        msgOk hdr pay 0 = true) ∧ s.thr.arg = 0 ∧ u.fenceClear 1 = true ∧ u.thr.async = [] ∧ u.epOf 0x10000 = some (0, { handle := 0x10000, turn := .P }) ∧
      256 < msgLen [0, 0, 0, 0, 1, 1] ∧ msgOk [0, 0, 0, 0, 0, 0, 2] [] 0 = false ∧ (epUser {} { turn := .E }).epOf 0x10000 = some (0, { handle := 0x10000, turn := .E }) :=
  ⟨⟨rfl, by decide, by decide⟩, by decide, by decide, by decide, ⟨_, _, rfl, by decide⟩, by decide, ⟨_, _, read_ok _ _ _ _ _ (by decide) (by decide +kernel),
    read_ok _ _ _ _ _ (by decide) (by decide +kernel), by decide, by decide⟩, by decide, by decide, by decide, by decide,
    by decide, by decide, by decide⟩
/-- EPRECV of a mailbox that holds an observation, of one that the episode has, of one with another waiter. -/
theorem witness_EpisodeInstructionResults_receive : let g : List (Nat × Word) := [(1, 0x10000), (2, 0x4000000000000010)]
    let e : Episode := { turn := .R, msg := some {} }
    let s := epUser (idleThr g) e
    let o := (epUser (idleThr g) { e with recv := some (.slot 0 2) }).setThrOf (.slot 0 2) { parked := true, stage := 1, vals := [0x10000] }
    let u := epUser { idleThr g with stage := 1, vals := [0x20000, 0] } e
    s.canIssue [1, 2] [3] true ∧ s.epOf 0x10000 = some (0, { e with handle := 0x10000 }) ∧ s.otherWaits e = false ∧ s.owes s.cur Body.isLoad = false ∧ s.thr.vecAccessesOut = false ∧ o.otherWaits { e with handle := 0x10000, recv := some (.slot 0 2) } = true ∧
      s.checkPtr true 0x4000000000000010 = none ∧ (∃ v, (s.opened [1, 2]).threadWrite 0 1 0x4000000000000010 (StepMsg.bytes {}) = .ok v) ∧
      u.thr.stage = 1 ∧ u.epOf (u.thr.vals.getD 0 0) = none ∧ s.canIssue [1] [] true ∧ s.staleEpisodes 0 0 = [] ∧ s.staleEpisodes 0 5 ≠ [] :=
  ⟨⟨rfl, by decide, by decide⟩, by decide, by decide, by decide, by decide, by decide, by decide, ⟨_, rfl⟩, by decide, by decide, ⟨rfl, by decide, by decide⟩, by decide,
    by decide⟩
/-- The episode on its turn, with the turn of its mailbox as given: EPACT, EPOBS and EPEND with a pointer into its local store. -/
theorem witness_EpisodeSideResults : let at_ := fun (v : EpTurn) => { epTurn [] with
      episodes := [(0, { thr := { g := [(1, 1), (2, 0x4000000000000020), (3, 0x4000000000000000)] }, textLen := 16, budget := 100, turn := v,
                         msg := some {} })] }
    let s := at_ .A
    let o := at_ .E
    s.cur = .episode 0 ∧ (s.canIssue [2] [4] false ∧ s.nextOk ∧ s.hasRoom 0) ∧ s.thr.saveAt = none ∧ s.thr.runAhead = false ∧ s.thr.csr.qmap = 0 ∧
      (s.episode 0).turn = .A ∧ s.checkPtr false 0x4000000000000020 = none ∧ (s.episode 0).msg = some {} ∧
      (s.episode 0).admits 0x4000000000000020 0 true = true ∧ (s.episode 0).admits 0x4000000000000000 1 true = false ∧
      s.canIssue [1, 2] [] false ∧ (o.episode 0).turn = .E ∧ (o.episode 0).admits 0x4000000000000020 16 false = true ∧
      msgLen (o.epBytes 0 0x4000000000000020 16) = 0 ∧ msgOk (o.epBytes 0 0x4000000000000020 16) [] 0 = true ∧
      (o.episode 0).admits (ptrPlus 0x4000000000000020 16) 0 false = true ∧ ((at_ .R).episode 0).turn = .R :=
  ⟨rfl, ready _ _ _ _ _ (by decide), by decide, by decide, by decide, by decide, by decide, by decide, by decide, by decide,
    ⟨rfl, by decide, by decide⟩, by decide, by decide, by decide, by decide, by decide, by decide⟩
theorem witness_EpisodeSideResults_watchdog : let e : Episode := { turn := .E, deadline := 5, budget := 3, instr := 3, overrun := true }
    let s := { turn [] with now := 20, episodes := [(0, e), (1, { e with ended := some (1, 0, 0, 0) }), (2, { e with turn := .P })] }
    Tab.find? s.episodes 0 = some e ∧ e.ended = none ∧ e.closed = false ∧ e.clock + e.deadline ≤ s.now / 2 ∧ e.budget ≤ e.instr ∧ e.overrun = true ∧
      (s.episode 1).ended ≠ none ∧ (s.episode 0).ended = none ∧ (s.episode 2).turn ≠ .E ∧ (s.episode 2).turn ≠ .A := by decide

/-! ### Control and status registers -/

/-- Reads by an episode, by a user, by the supervisor; a register with results to come. -/
theorem witness_CsrReadResults : let e := epTurn []
    let s := turn []
    let y := sysTurn []
    let d := core0 s (fun c => { c with divs := [{ id := 0, slot := 1, dst := .reg 3, val := 0, float := true }] })
    let b := e.setCore 1024 { e.core 1024 with divs := [{ id := 0, slot := 0, dst := .reg 3, val := 0, float := true }] }
    (s.canIssue [] [4] false ∧ s.nextOk ∧ s.hasRoom 1) ∧ e.cur = .episode 0 ∧ (e.canIssue [] [4] false ∧ e.nextOk ∧ e.hasRoom 1) ∧
      (∃ v ∈ (b.core (1024 + 0 / 4)).divs, v.slot = 0 % 4 ∧ v.float = true) ∧ e.thr.srPending = false ∧ s.cur = .slot 0 1 ∧ y.cur = .slot 0 0 ∧ y.canIssue [] [4] false ∧ s.privilege s.cur = 0 ∧ y.privilege y.cur = 2 ∧
      (∃ v ∈ (d.core 0).divs, v.slot = 1 ∧ v.float = true) ∧ s.thr.srPending = false ∧ s.thr.grantPending = false ∧ s.thr.runAhead = false ∧
      y.partOfCore 0 = some 0 ∧ (0x635 : BitVec 12).toNat = 0x635 :=
  ⟨ready _ _ _ _ _ (by decide), rfl, ready _ _ _ _ _ (by decide), ⟨_, .head _, rfl, rfl⟩, by decide, rfl, rfl, ⟨rfl, by decide, by decide⟩,
    by decide, by decide, ⟨_, .head _, rfl, rfl⟩, by decide, by decide, by decide, by decide, rfl⟩
theorem witness_CsrReadResults_parks : (user { idleThr [] with laneReq := 1, vq := [{ op := { major := 16, f5 := 1 } }] }).thr.grantPending = true := by
  decide
/-- Writes by an episode, by a user thread of a crew, by the supervisor; a window in use by another crew. -/
theorem witness_CsrWriteResults : let e := epTurn [(1, 5)]
    let s := turn [(1, 5)]
    let y := sysTurn [(1, 5)]
    let w := core0 s (fun c => { c with win := [(0, 2 ^ 35 + 2 * 2 ^ 36)] })
    e.cur = .episode 0 ∧ (e.canIssue [1] [] true ∧ e.nextOk ∧ e.hasRoom 1) ∧ e.canIssue [1] [] false ∧ e.thr.srPending = false ∧ e.thr.mapped 1 = none ∧
      s.cur = .slot 0 1 ∧ (s.canIssue [1] [] true ∧ s.nextOk ∧ s.hasRoom 1) ∧ s.canIssue [1] [] false ∧ s.thr.srPending = false ∧ s.slotBound 0 1 = true ∧
      s.crewIdx 0 1 ≠ 0 ∧ (Tab.get 0 (s.core 0).win 0 : Word).getLsbD 35 = false ∧ (Tab.get 0 (w.core 0).win 0 : Word).getLsbD 35 = true ∧
      (Tab.get 0 (w.core 0).win 0 : Word).toNat / 2 ^ 36 % 16 ≠ w.crewIdx 0 1 ∧ y.canIssue [1] [] true ∧ y.slotBound 0 0 = true ∧ 1 ≤ y.privilege y.cur ∧
      s.privilege s.cur < 1 :=
  ⟨rfl, ready _ _ _ _ _ (by decide), ⟨rfl, by decide, by decide⟩, by decide, by decide, rfl, ready _ _ _ _ _ (by decide), ⟨rfl, by decide, by decide⟩,
    by decide, by decide, by decide, by decide, by decide, by decide, ⟨rfl, by decide, by decide⟩, by decide, by decide, by decide⟩
theorem witness_CsrWriteResults_commit : let c : Core := { pend := [(5, .csr 0x208 0 1)] }
    (∀ x ∈ c.pend, 4 < x.1) ∧ c.pend = (5, .csr 0x208 0 1) :: [] ∧ (2 ^ 37 : Word).getLsbD 37 = true := by decide
theorem witness_PartitionCsrResults : let s := sysTurn [(1, 0x1000)]
    let k := sysTurn [(1, 0x1005)]
    let k := { k with ctxs := k.ctxs ++ [(5, ({} : Ctx))] }
    let w : Packet := { id := 7, owner := some (.slot 0 1), body := .walk 0 0x10008 0 }
    let v := sysTurn [(1, 0x104)]
    let v := { v with vis := [(4, {})] }
    (s.canIssue [1] [] true ∧ s.nextOk ∧ s.hasRoom 0) ∧ s.partOfCore 0 = some 0 ∧ s.privilege s.cur = 2 ∧ (turn []).privilege (turn []).cur < 2 ∧
      s.walksBefore 0 s.nextId = false ∧ ({ s with packets := [w], nextId := 9 } : State).walksBefore 0 9 = true ∧ (s.part 0).killing = none ∧
      k.canIssue [1] [] true ∧ (k.operand [1] 0).getLsbD 12 = true ∧ (Tab.find? k.ctxs 5).map Ctx.part = some 0 ∧ (0, 0) ∉ k.slotsOfCtx 5 ∧
      v.canIssue [1] [] true ∧ (v.operand [1] 0).toNat / 2 ^ 8 % 4 = 1 ∧ Tab.find? v.vis 4 = some {} ∧ ({} : Vi).part = 0 ∧ ({} : Vi).away = false ∧
      s.slotBound 0 0 = true :=
  ⟨ready _ _ _ _ _ (by decide), by decide, by decide, by decide, by decide, by decide, by decide, ⟨rfl, by decide, by decide⟩, by decide, by decide,
    by decide, ⟨rfl, by decide, by decide⟩, by decide, by decide, rfl, rfl, by decide⟩
/-- A parked write that goes on, and what each of them waits for. -/
theorem witness_PartitionCsrResults_later : let at_ := fun (n : Nat) (v : Word) =>
      let s := sysTurn []
      { s.setThrOf (.slot 0 0) { s.thrOf (.slot 0 0) with stage := n, vals := [v], arg := 9 } with vis := [(4, { switching := some true }), (6, {})] }
    let w : Packet := { id := 7, owner := some (.slot 0 1), body := .walk 0 0x10008 0 }
    let killing := fun (s : State) => s.setPart 0 { s.part 0 with killing := some (5, []) }
    (at_ 4 0).thr.stage = 4 ∧ (withPk (at_ 4 0) w).walksBefore 0 9 = true ∧ (at_ 4 0).walksBefore 0 9 = false ∧ (at_ 5 0x1005).thr.stage = 5 ∧
      ((killing (at_ 5 0x1005)).part 0).killing ≠ none ∧ ((at_ 5 0x1005).part 0).killing = none ∧ (0x104 : Word).toNat / 2 ^ 8 % 4 = 1 ∧
      Tab.find? (at_ 4 0x104).vis 4 = some { switching := some true } ∧ Tab.find? (at_ 4 0x106).vis 6 = some {} ∧ (at_ 4 0).thr.saveAt = none := by decide
/-- An interface switched out with a write merged into its image, and one of another partition. -/
theorem witness_PartitionCsrResults_switch : let s := { turn [] with vis := [(4, { out := true, image := [(8, 3)] }), (6, { part := 1 })] }
    Tab.find? s.vis 4 = some { out := true, image := [(8, 3)] } ∧ Tab.find? s.vis 6 = some { part := 1 } ∧ (0x204 : Word).toNat / 2 ^ 8 % 4 = 2 ∧
      (0x204 : Word).toNat % 256 = 4 ∧ (s.vis.filter (fun y => !y.2.out)).length < 64 := by decide
/-- A switch-in beside 64 interfaces in residence. -/
theorem witness_PartitionCsrResults_full : let s := sysTurn [(1, 0x204)]
    let s := { s with vis := (4, { out := true }) :: (List.range 64).map (fun j => (j + 5, ({} : Vi))) }
    (s.canIssue [1] [] true ∧ s.nextOk ∧ s.hasRoom 0) ∧ 64 ≤ (s.vis.filter (fun y => !y.2.out)).length ∧ Tab.find? s.vis 4 = some { out := true } :=
  ⟨ready _ _ _ _ _ (by decide), by decide, by decide⟩

/-! ### The supervisor's rulings, the kill-drain, reset and the management core -/

/-- An open record that the user thread waits on. -/
theorem witness_SupervisorRulings : let o : OpenFault := { seq := 4, ctx := 0, page := 9, addr := 0x90000, joined := [(.slot 0 1, 0x90008)] }
    let at_ := fun (t : Thread) => let s := user t
      s.setPart 0 { s.part 0 with openFaults := [o] }
    let s := at_ { idleThr [] with faultSeq := some 4 }
    let v := at_ { idleThr [] with faultSeq := some 4, vq := [{ op := { major := 13, f5 := 0 }, stalled := true }] }
    (s.part 0).openFaults.find? (fun o => o.seq == 4 && !o.abandoned) = some o ∧ s.live (.slot 0 1) = true ∧ (s.thrOf (.slot 0 1)).faultSeq = some 4 ∧
      (s.thrOf (.slot 0 1)).vq = [] ∧ (s.thrOf (.slot 0 1)).runAhead = false ∧ (v.thrOf (.slot 0 1)).faultSeq = some 4 ∧
      (v.thrOf (.slot 0 1)).vq = [{ op := { major := 13, f5 := 0 }, stalled := true }] ∧ v.live (.slot 0 1) = true := by decide
/-- A thread halted by a trap with its record; a tainted launch with a dependent; a held successor. -/
theorem witness_SupervisorRulings_more : let s := user { idleThr [] with run := .trapped, recSeq := 4 }
    let s := s.setPart 0 { s.part 0 with trapRecs := [(4, 0, 1, .userTrap)] }
    let l := oneLaunch startedInst
    let t := withGraph s [{ l with phase := .recorded, verdict := 2 }, { lid := 2, lrec := { deps := [1] } }]
    let h := succeeded { num := 0, seqStage := 6 } 2
    (s.part 0).trapRecs.find? (fun x => x.1 == 4) = some (4, 0, 1, .userTrap) ∧ s.slotBound 0 1 = true ∧ (s.thrOf (.slot 0 1)).run = .trapped ∧
      (s.thrOf (.slot 0 1)).recSeq = 4 ∧ t.launch? 0 1 = some { l with phase := .recorded, verdict := 2 } ∧
      t.heldPred 0 { l with phase := .recorded, verdict := 2 } = none ∧ t.launch? 0 2 = some { lid := 2, lrec := { deps := [1] } } ∧
      (∃ m, h.launch? 0 2 = some m ∧ (h.heldPred 0 m).isSome = true ∧ m.lid ≠ 1) :=
  ⟨by decide, by decide, by decide, by decide, by decide, by decide, by decide, _, rfl, by decide, by decide⟩
theorem witness_KillDrain : let s := { turn [] with ctxs := [(0, {}), (5, {})] }
    let d := fun (acks : List Nat) => s.setPart 0 { s.part 0 with killing := some (5, acks) }
    let l : Lock := { pa := 8, slice := 0, holder := 5, waiters := [(3, 4)] }
    let p : Packet := { id := 7, ctx := 5, dst := 0, body := .store { pa := 0x80008, n := 4, region := 0, sync := true, ca := 0 } 5 }
    (0x1005 : Word).getLsbD 12 = true ∧ (s.part 0).killing = none ∧ Tab.find? s.ctxs 5 = some {} ∧ ((d []).part 0).killing ≠ none ∧
      (Tab.find? s.ctxs 6).map Ctx.part ≠ some 0 ∧ (d []).drainOf 5 = some (0, []) ∧ ((d []).part 0).killing = some (5, []) ∧
      ({ d [] with locks := [l] } : State).locks = [l] ∧ l.slice / 16 = 0 ∧ (∀ x ∈ l.waiters, x.2 ≠ 5) ∧ p.drainsAt 0 = true ∧ p.held = false ∧ s.copiesOf 5 = false ∧
      s.drainOf 5 = none ∧ (0, 1) ∈ s.slotsOfCtx 0 ∧ (0, 1) ∉ s.slotsOfCtx 5 := by decide
theorem witness_KillDrain_complete : let s := { turn [] with ctxs := [(0, {}), (5, {})] }
    let t := s.setPart 0 { s.part 0 with killing := some (5, List.range 129) }
    t.drainOf 5 = some (0, List.range 129) ∧ (∀ u, u < 129 → u ∈ List.range 129) := by decide +kernel
theorem witness_PartitionResetResults : let s := { turn [] with now := 2 ^ 32 }
    let r := s.setPart 0 { s.part 0 with resize := some (1, 0) }
    let m := s.setPart 0 { s.part 0 with resize := some (1, 0), moving := true }
    let y := s.setPart 0 { s.part 0 with supcore := 2 ^ 20 }
    (y.part 0).supcore.getLsbD 20 = true ∧ (y.part 0).supcore.toNat / 1024 % 1024 = (y.part 0).supcore.toNat % 1024 ∧ y.isSupervisorCore 0 = true ∧
      Tab.find? s.parts 0 = some (s.part 0) ∧ Tab.find? s.parts 3 = none ∧ (s.part 0).resize = none ∧ Tab.find? r.parts 0 = some (r.part 0) ∧
      (r.part 0).resize = some (1, 0) ∧ (r.part 0).moving = false ∧ 0 + 1100000000 ≤ r.now / 2 ∧ (m.part 0).moving = true ∧ Memory.wf s.mem = true ∧
      s.isSupervisorCore 0 = true ∧ s.partOfCore 0 = some 0 ∧ (s.part 0).supcore.getLsbD 20 = false ∧ recoverable .privilege = false ∧
      (s.thrOf (.slot 0 0)).popped = [] ∧ (s.thrOf (.slot 0 0)).reserved = [] ∧ recoverable .userTrap = true := by decide
theorem witness_ManagementResults : let s := turn []
    let r := s.setPart 0 { s.part 0 with quarters := 3, resize := some (1, 0) }
    let m := s.setPart 0 { s.part 0 with quarters := 0x11, resize := some (1, 0), moving := true }
    let x := m.part 0
    (∀ x ∈ s.parts, x.2.quarters &&& 2 = 0) ∧ Tab.find? s.parts 3 = none ∧ Tab.find? s.parts 0 = some (s.part 0) ∧ (s.part 0).quarters ≠ 0 ∧
      s.parts.foldl (fun m x => max m (x.2.base + x.2.granules)) 0 + 1 ≤ 8 * 64 * 2 ^ 30 / 65536 ∧
      1 ≤ 2 ^ 19 * ((List.range 16).filter (fun j => (2 : BitVec 16).getLsbD j)).length ∧ (∀ v ∈ [4, 5], v < 256 ∧ Tab.find? s.vis v = none) ∧ [4, 5].Nodup ∧
      (s.parts.map (fun y => if y.1 = 0 then 0 else y.2.capw.toNat)).sum + 100 ≤ 1800 ∧ 1800 < 0 + (1801 : BitVec 16).toNat ∧
      (r.part 0).resize = some (1, 0) ∧ (m.part 0).moving = true ∧ x.departs 0 = true ∧ x.departs 1 = true ∧
      x.newHome 1 = some 4 ∧ x.newHome 0 = none ∧ (s.setPart 0 { s.part 0 with capw := 7 }).limits = none ∧
      (1 : BitVec 16) &&& (r.part 0).quarters = 1 ∧ (1 : BitVec 16) ≠ (r.part 0).quarters := by decide
/-- A partition of one granule that departs, and one of none. -/
theorem witness_ManagementResults_move : let x : Partition := { quarters := 0x11, granules := 1, resize := some (1, 0), homeMap := [(0, 1)] }
    let s := (turn []).setPart 0 x
    let l : Line := { line := 5, s0 := { dirty := 1, data := [(0, 7)] } }
    let t := { s.setPart 0 { x with homeMap := [], moving := true } with piers := [(0, [l])] }
    (∀ g, x.base ≤ g → g < x.base + x.granules → x.departs g = false) ∧ (s.part 0).resize = some (1, 0) ∧ (t.part 0).departs 0 = true ∧
      t.piers = [(0, [l])] ∧ l.line / 256 = 0 ∧ l.s1.dirty = 0 ∧ Memory.wf l.s0.data = true ∧ (∀ c ∈ t.cores, c.2.l1 = []) ∧ t.clusters = [] := by
  refine ⟨fun g h h1 => ?_, by decide, by decide, by decide, by decide, by decide, by decide, by decide, by decide⟩
  obtain rfl : g = 0 := Nat.lt_one_iff.mp h1
  decide
/-- A granule that departs while another does. -/
theorem witness_ManagementResults_more : let x : Partition := { quarters := 0x11, granules := 2, resize := some (1, 0), moving := true }
    let s := (turn []).setPart 0 x
    let l : Line := { line := 5, s0 := { dirty := 1, data := [(0, 7)] } }
    let t := { s with piers := [(0, [l])] }
    (∃ j, x.base ≤ j ∧ j < x.base + x.granules ∧ j ≠ 0 ∧ x.departs j = true) ∧ x.departs 0 = true ∧ x.newHome 1 = some 4 ∧ t.piers = [(0, [l])] ∧
      l.line / 256 = 0 := ⟨⟨1, by decide⟩, by decide, by decide, rfl, by decide⟩
theorem witness_ManagementResults_stopped : let s := { State.reset with stopped := true }
    s.stopped = true ∧ (∀ b rest, s.agenda ≠ some (.coldReset b) :: rest) := ⟨rfl, fun _ _ h => by cases h⟩

/-! ### Traps, errors and the host -/

theorem witness_SyscTrapBreakAndTret : let s := turn []
    let t := fun (pc : Word) => user { idleThr [] with csr := { status := 1, trappc := pc } }
    s.cur = .slot 0 1 ∧ (s.canIssue [] [] true ∧ s.nextOk ∧ s.hasRoom 0) ∧ (s.canIssue [] [] false ∧ s.nextOk ∧ s.hasRoom 1) ∧
      s.thr.csr.status.getLsbD 0 = false ∧ (t 0x10000).canIssue [] [] false ∧ (t 0x10000).thr.csr.status.getLsbD 0 = true ∧
      (t 0x10000).targetLook (t 0x10000).cur 0x10000 = .ok ∧ (t 0x10002).targetLook (t 0x10002).cur 0x10002 = .bad ∧
      (t 0x90000).targetLook (t 0x90000).cur 0x90000 = .miss :=
  ⟨rfl, ready _ _ _ _ _ (by decide), ready _ _ _ _ _ (by decide), by decide, ⟨rfl, by decide, by decide⟩, by decide, by decide, by decide, by decide⟩
/-- A thread with a handler at the placed page, one whose handler may not run, one without. -/
theorem witness_TrapDelivery : let at_ := fun (v : Word) => user { idleThr [] with csr := { trapvec := v } }
    let s := at_ 0x10001
    (s.thrOf (.slot 0 1)).popped = [] ∧ recoverable .userTrap = true ∧ (s.thrOf (.slot 0 1)).csr.trapvec.getLsbD 0 = true ∧
      (s.thrOf (.slot 0 1)).csr.status.getLsbD 0 = false ∧ s.codeOk 0 0x10000 = true ∧ (at_ 0x90001).codeOk 0 0x90000 = false ∧
      ((at_ 0).thrOf (.slot 0 1)).csr.trapvec.getLsbD 0 = false ∧ s.partOfCore 0 = some 0 ∧ s.isSupervisorCore 1 = false ∧ (s.core 0).notices = [] ∧
      (withGraph s [{ lid := 0 }]).launch? 0 0 = some { lid := 0 } := by decide
/-- A timer that is due; a pending deferred trap, and a pending timer alone, that are taken; one within the handler. -/
theorem witness_TrapDelivery_deferred : let at_ := fun (t : Thread) => { user t with now := 40 }
    let takes := fun (s : State) => let t := s.thrOf (.slot 0 1)
      s.slotBound 0 1 && t.run == .issuing && !t.held && !t.arriving && (t.async != [] || t.timerDue) && !t.csr.status.getLsbD 0 && !t.runAhead &&
        t.faultSeq == none && t.walking == none && t.stage == 0 && !t.parked
    let d := at_ { idleThr [] with csr := { timer := 10 } }
    d.slotBound 0 1 = true ∧ (d.thrOf (.slot 0 1)).timerDue = false ∧ (d.thrOf (.slot 0 1)).csr.timer ≠ 0 ∧
      (d.thrOf (.slot 0 1)).csr.timer.toNat ≤ d.tb.toNat ∧ takes (at_ { idleThr [] with async := [{ cause := .lateCopy, tval := 5 }] }) = true ∧
      takes (at_ { idleThr [] with timerDue := true }) = true ∧ takes (at_ { idleThr [] with timerDue := true, csr := { status := 1 } }) = false := by
  decide
/-- A waiting record and room for it in a page that can be written; a full queue; a page that cannot; a core with a full class 15. -/
theorem witness_TrapDelivery_queue : let r : FaultRec := { kind := 0 }
    let at_ := fun (x : Partition) => let s := turn []
      withData (s.setPart 0 { s.part 0 with waiting := [r], fqbase := x.fqbase, fqtail := x.fqtail })
    let s := at_ { fqbase := 0x20000 }
    let full := core0 s (fun c => { c with classq := [(15, List.replicate 4 {})] })
    (s.part 0).waiting = r :: [] ∧ ((s.part 0).fqtail.toNat + 2 ^ 32 - (s.part 0).fqhead.toNat % 2 ^ 32) % 2 ^ 32 ≠ 1024 ∧
      (((at_ { fqtail := 1024 }).part 0).fqtail.toNat + 2 ^ 32 - ((at_ {}).part 0).fqhead.toNat % 2 ^ 32) % 2 ^ 32 = 1024 ∧
      Tab.find? s.ctxs (s.part 0).fqctx ≠ none ∧ (s.ctx 0).dead = false ∧ s.rangeFault 0 0x20000 32 1 = none ∧ (at_ { fqbase := 0x90000 }).rangeFault 0 0x90000 32 1 ≠ none ∧
      ((turn []).part 0).waiting = [] ∧ ((s.core 0).classQ 15).length + Tab.get 0 (s.core 0).resv 15 < 4 ∧
      4 ≤ ((full.core 0).classQ 15).length + Tab.get 0 (full.core 0).resv 15 := by decide
theorem witness_ErrorEvents : let s := turn []
    let l := oneLaunch startedInst
    let t := withGraph (user { idleThr [] with lid := 1 }) [l]
    let k := s.setPart 0 { s.part 0 with killing := some (5, []) }
    (∃ o, s.ownerOf 1 0 8 0 = some o) ∧ s.hasWord 1 0 1 = true ∧ s.hasWord 0 0 1 = true ∧ s.hasWord 2 0 1 = true ∧ s.hasWord 3 0 1 = false ∧
      (t.thrOf (.slot 0 1)).popped = [] ∧ (t.thrOf (.slot 0 1)).reserved = [] ∧ t.partOfCore 0 = some 0 ∧ t.launch? 0 1 = some l ∧
      Tab.find? s.ctxs 0 ≠ none ∧ Tab.find? s.ctxs 9 = none ∧ (s.part 0).killing = none ∧ (k.part 0).killing ≠ none ∧ (0x1000 : Word).toNat % 4096 = 0 ∧
      (0x1000 : Word).getLsbD 12 = true :=
  ⟨⟨_, rfl⟩, by decide, by decide, by decide, by decide, by decide, by decide, by decide, by decide, by decide, by decide, by decide, by decide, by decide, by decide⟩
/-- An interface with its rings idle, one with a record to read, one that is away. -/
theorem witness_HostInterfaceResults : let v : Vi := { tail := 1 }
    ({} : Vi).consumed = ({} : Vi).tail ∧ ({} : Vi).cqhead = ({} : Vi).cqtail ∧ v.consumed ≠ v.tail ∧ ({ out := true } : Vi).out = true ∧
      ({ switching := some true } : Vi).switching ≠ none ∧ v.out = false ∧ v.switching = none ∧
      Tab.find? ({ turn [] with vis := [(4, v)] } : State).vis 4 = some v ∧ Tab.find? (turn []).vis 4 = none := by decide
/-- Every datagram has a good tag and a bad one. -/
theorem witness_HostInterfaceResults_tags (v : Vi) (vi sq : Nat) (c : List Byte) :
    (∃ tag, Config.datagramTag v.key vi sq c = tag) ∧ ∃ tag, ¬ Config.datagramTag v.key vi sq c = tag := by
  refine ⟨⟨_, rfl⟩, Config.datagramTag v.key vi sq c + 1, fun h => ?_⟩
  have h1 := congrArg BitVec.toNat h
  rw [BitVec.toNat_add] at h1
  have h2 := (Config.datagramTag v.key vi sq c).isLt
  have h3 : (1 : BitVec 128).toNat = 1 := rfl
  omega
/-- The next datagram; ranges that can be read and written, only read, and neither; too many bytes, and past the last address. -/
theorem witness_HostInterfaceResults_ranges : let s := turn []
    let w := withData s
    Tab.find? w.ctxs 0 ≠ none ∧ (w.ctx 0).dead = false ∧ Tab.find? w.ctxs 9 = none ∧ (1 : BitVec 48) = ({} : Vi).lastSeq + 1 ∧ (3 : BitVec 48) ≠ ({} : Vi).lastSeq + 1 ∧ w.rangeFault 0 0x20040 8 1 = none ∧
      w.rangeFault 0 0x20040 8 0 = none ∧ s.rangeFault 0 0x10040 8 1 ≠ none ∧ s.rangeFault 0 0x90000 8 0 ≠ none ∧ 4096 < 4097 ∧
      2 ^ 53 < 2 ^ 53 - 1 + 2 := by decide

end Sys2Proof.Tests
end

section
/-! The integer operations as arithmetic on values: what the model's functions for R75 to R82 compute. -/

namespace Sys2Proof.Machine

/-! ### Comparisons, minima and maxima -/

theorem boolWord_slt (x y : Word) : boolWord (x.slt y) = if x.toInt < y.toInt then 1 else 0 := by
  simp [boolWord, BitVec.slt]

theorem boolWord_ult (x y : Word) : boolWord (x.ult y) = if x.toNat < y.toNat then 1 else 0 := by
  simp [boolWord, BitVec.ult]

/-- Sign extension keeps the value that a comparison sees (R36). -/
theorem toInt_sext12 (imm : BitVec 12) : (sext12 imm).toInt = imm.toInt :=
  BitVec.toInt_signExtend_of_le (by decide)

theorem ite_slt_eq_min (x y : Word) : (if x.slt y then x else y) = BitVec.ofInt 64 (Min.min x.toInt y.toInt) := by
  by_cases h : x.toInt < y.toInt
  · simp [BitVec.slt, h, min_eq_left h.le]
  · simp [BitVec.slt, h, min_eq_right (not_lt.1 h)]

theorem ite_slt_eq_max (x y : Word) : (if x.slt y then y else x) = BitVec.ofInt 64 (Max.max x.toInt y.toInt) := by
  by_cases h : x.toInt < y.toInt
  · simp [BitVec.slt, h, max_eq_right h.le]
  · simp [BitVec.slt, h, max_eq_left (not_lt.1 h)]

theorem ite_ult_eq_min (x y : Word) : (if x.ult y then x else y) = BitVec.ofNat 64 (Min.min x.toNat y.toNat) := by
  by_cases h : x.toNat < y.toNat
  · simp [BitVec.ult, h, min_eq_left h.le]
  · simp [BitVec.ult, h, min_eq_right (not_lt.1 h)]

theorem ite_ult_eq_max (x y : Word) : (if x.ult y then y else x) = BitVec.ofNat 64 (Max.max x.toNat y.toNat) := by
  by_cases h : x.toNat < y.toNat
  · simp [BitVec.ult, h, max_eq_right h.le]
  · simp [BitVec.ult, h, max_eq_left (not_lt.1 h)]

/-! ### Shifts as arithmetic -/

theorem shiftLeft_eq_ofNat {w : Nat} (x : BitVec w) (n : Nat) : x <<< n = BitVec.ofNat w (x.toNat * 2 ^ n) :=
  BitVec.eq_of_toNat_eq (by simp [Nat.shiftLeft_eq])

theorem ushiftRight_eq_ofNat {w : Nat} (x : BitVec w) (n : Nat) : x >>> n = BitVec.ofNat w (x.toNat / 2 ^ n) := by
  rw [← Nat.shiftRight_eq_div_pow, ← BitVec.toNat_ushiftRight, BitVec.ofNat_toNat, BitVec.setWidth_eq]

theorem sshiftRight_eq_ofInt {w : Nat} (x : BitVec w) (n : Nat) : x.sshiftRight n = BitVec.ofInt w (x.toInt / 2 ^ n) := by
  rw [BitVec.sshiftRight_eq, Int.shiftRight_eq_div_pow]; norm_cast

theorem rotRight_eq (x : Word) (n : Nat) (h : n < 64) : rotRight x n = (x >>> n) ||| (x <<< (64 - n)) := by
  rw [rotRight, BitVec.rotateRight_def, Nat.mod_eq_of_lt h]

/-- A shift left of the low half keeps what a shift of the whole word puts there (R80). -/
theorem low32_shiftLeft (x : Word) (n : Nat) : low32 x <<< n = BitVec.ofNat 32 (x.toNat * 2 ^ n) := by
  rw [shiftLeft_eq_ofNat, low32, BitVec.toNat_setWidth]
  exact BitVec.eq_of_toNat_eq (by simp [Nat.mod_mul_mod])

/-- A sign extension goes through the signed value, which an arithmetic shift divides (R80). -/
theorem sext32_sshiftRight (x : BitVec 32) (n : Nat) : sext32 (x.sshiftRight n) = BitVec.ofInt 64 (x.toInt / 2 ^ n) := by
  rw [sext32, BitVec.signExtend, BitVec.toInt_sshiftRight, Int.shiftRight_eq_div_pow]; norm_cast

/-! ### Extensions -/

theorem sextLow_eq (x : Word) (w : Nat) (h0 : 0 < w) (h : w ≤ 64) : sextLow x w = (x.setWidth w).signExtend 64 := by
  apply BitVec.eq_of_getLsbD_eq
  intro i hi
  rw [sextLow, BitVec.getLsbD_sshiftRight, BitVec.getLsbD_signExtend, BitVec.getLsbD_shiftLeft, BitVec.msb_shiftLeft, BitVec.msb_setWidth,
    BitVec.getLsbD_setWidth, BitVec.getMsbD_eq_getLsbD]
  by_cases hw : i < w
  · have h1 : 64 - w + i < 64 := by omega
    have h2 : 64 - w + i - (64 - w) = i := by omega
    simp [hi, hw, h1, h2]
  · have h1 : ¬ 64 - w + i < 64 := by omega
    have h2 : 64 - 1 - (64 - w) = w - 1 := by omega
    have h3 : 64 - w < 64 := by omega
    simp [h0, hw, h1, h2, h3, Nat.not_le.2 hi, hi]

theorem zextLow_eq (x : Word) (w : Nat) : zextLow x w = (x.setWidth w).setWidth 64 := by
  rw [zextLow, wordOf, ← BitVec.toNat_setWidth, BitVec.ofNat_toNat]

/-! ### Counts and bytes -/

/-- The length of the run from 0 in which `p` holds: `k` where it holds below `k` and stops there. -/
theorem length_takeWhile_range (p : Nat → Bool) (k n : Nat) (hk : k ≤ n) (hp : ∀ i < k, p i = true) (hs : k < n → p k = false) :
    ((List.range n).takeWhile p).length = k := by
  obtain ⟨m, rfl⟩ := Nat.exists_eq_add_of_le hk
  rw [List.range_add, List.takeWhile_append_of_pos (by simpa using hp)]
  cases m with
  | zero => simp
  | succ m => simp [List.range_succ_eq_map, hs (by omega)]

theorem leadingZeros_eq (x : Word) :
    leadingZeros x = ((List.range 64).takeWhile (fun i => !x.getLsbD (63 - i))).length := by
  unfold leadingZeros
  split
  · next h => exact (length_takeWhile_range _ 64 64 le_rfl (by simp [h]) (by omega)).symm
  · next h =>
    have hx : x.toNat ≠ 0 := fun e => h (BitVec.eq_of_toNat_eq e)
    have hlog : Nat.log2 x.toNat < 64 := (Nat.log2_lt hx).2 x.isLt
    refine (length_takeWhile_range _ _ 64 (by omega) (fun i hi => ?_) (fun _ => ?_)).symm
    · have : x.toNat < 2 ^ (63 - i) := (Nat.log2_lt hx).1 (by omega)
      simp [BitVec.getLsbD, Nat.testBit_lt_two_pow this]
    · rw [show 63 - (63 - Nat.log2 x.toNat) = Nat.log2 x.toNat by omega]
      simp [BitVec.getLsbD, Nat.testBit_log2 hx]

theorem trailingZeros_eq (x : Word) : trailingZeros x = ((List.range 64).takeWhile (fun i => !x.getLsbD i)).length := by
  unfold trailingZeros
  cases h : (List.range 64).find? (fun i => x.getLsbD i) with
  | none =>
    rw [List.find?_eq_none] at h
    exact (length_takeWhile_range _ 64 64 le_rfl (fun i hi => by simpa using h i (List.mem_range.2 hi)) (by omega)).symm
  | some k =>
    rw [List.find?_range_eq_some] at h
    obtain ⟨hk, hmem, hbelow⟩ := h
    exact (length_takeWhile_range _ k 64 (List.mem_range.1 hmem).le (fun i hi => by simpa using hbelow i hi) (by simp [hk])).symm

theorem popCount_eq (x : Word) : popCount x = (List.range 64).countP (fun i => x.getLsbD i) :=
  List.countP_eq_length_filter.symm

theorem length_bytesLE (n v : Nat) : (bytesLE n v).length = n := by
  induction n generalizing v with
  | zero => rfl
  | succ n ih => simp [bytesLE, ih]

theorem leNat_append (l m : List Byte) : leNat (l ++ m) = leNat l + 256 ^ l.length * leNat m := by
  induction l with
  | nil => simp [leNat]
  | cons b l ih => rw [List.cons_append, leNat, leNat, ih, List.length_cons, pow_succ']; ring

/-- Bytes in reverse order: byte `k` of `n` counts as byte `n - 1 - k` (R78). -/
theorem leNat_reverse_bytesLE (n v : Nat) :
    leNat (bytesLE n v).reverse = ((List.range n).map (fun k => v / 256 ^ k % 256 * 256 ^ (n - 1 - k))).sum := by
  induction n generalizing v with
  | zero => rfl
  | succ n ih =>
    have hterm : ∀ k, v / 256 / 256 ^ k % 256 * 256 ^ (n - 1 - k) = v / 256 ^ (k + 1) % 256 * 256 ^ (n + 1 - 1 - (k + 1)) := fun k => by
      rw [Nat.div_div_eq_div_mul, ← pow_succ', show n - 1 - k = n + 1 - 1 - (k + 1) by omega]
    rw [bytesLE, List.reverse_cons, leNat_append, ih, List.length_reverse, length_bytesLE, List.range_succ_eq_map, List.map_cons, List.sum_cons,
      List.map_map]
    simp only [hterm, leNat, BitVec.toNat_ofNat, Nat.reducePow, Function.comp_def, Nat.succ_eq_add_one, pow_zero, Nat.div_one, Nat.mul_zero,
      Nat.add_zero, Nat.add_sub_cancel, Nat.sub_zero]
    rw [Nat.add_comm, Nat.mul_comm]

theorem byteSwap_eq (x : Word) :
    byteSwap x = BitVec.ofNat 64 (((List.range 8).map (fun k => x.toNat / 256 ^ k % 256 * 256 ^ (7 - k))).sum) := by
  rw [byteSwap, wordOf, leNat_reverse_bytesLE]

/-! ### Divides -/

theorem sdiv_eq_ofInt {w : Nat} (x y : BitVec w) : x.sdiv y = BitVec.ofInt w (x.toInt.tdiv y.toInt) :=
  BitVec.eq_of_toInt_eq (by rw [BitVec.toInt_sdiv, BitVec.toInt_ofInt])

theorem srem_eq_ofInt {w : Nat} (x y : BitVec w) : x.srem y = BitVec.ofInt w (x.toInt.tmod y.toInt) := by
  rw [← BitVec.toInt_srem, BitVec.ofInt_toInt]

theorem udiv_eq_ofNat {w : Nat} (x y : BitVec w) : x / y = BitVec.ofNat w (x.toNat / y.toNat) := by
  rw [← BitVec.toNat_udiv, BitVec.ofNat_toNat, BitVec.setWidth_eq]

theorem umod_eq_ofNat {w : Nat} (x y : BitVec w) : x % y = BitVec.ofNat w (x.toNat % y.toNat) := by
  rw [← BitVec.toNat_umod, BitVec.ofNat_toNat, BitVec.setWidth_eq]

theorem sext32_divS32 (x y : BitVec 32) :
    sext32 (divS32 x y) = if y = 0 then -1 else (BitVec.ofInt 32 (x.toInt.tdiv y.toInt)).signExtend 64 := by
  unfold divS32
  split
  · decide
  · rw [sdiv_eq_ofInt, sext32]

theorem sext32_remS32 (x y : BitVec 32) :
    sext32 (remS32 x y) = (if y = 0 then x else BitVec.ofInt 32 (x.toInt.tmod y.toInt)).signExtend 64 := by
  rw [remS32, srem_eq_ofInt, sext32]

/-! ### LUI and APC -/

/-- The immediate of LUI and APC is 4,096 times its field, signed (R81, R82). -/
theorem toInt_imm20_append (imm : BitVec 20) : (imm ++ (0 : BitVec 12)).toInt = imm.toInt * 4096 := by
  rw [BitVec.toInt_append]; simp [mul_comm]

theorem setWidth_ofInt (z : Int) : (BitVec.ofInt 53 z).setWidth 64 = BitVec.ofInt 64 (z % 2 ^ 53) := by
  apply BitVec.eq_of_toNat_eq
  simp only [BitVec.toNat_setWidth, BitVec.toNat_ofInt]
  omega

theorem apc_value (pc : BitVec 53) (imm : BitVec 20) :
    (pc + (imm ++ (0 : BitVec 12)).signExtend 53).setWidth 64 = BitVec.ofInt 64 ((pc.toNat + imm.toInt * 4096) % 2 ^ 53) := by
  have hpc : BitVec.ofInt 53 pc.toNat = pc := by simp
  rw [← setWidth_ofInt, BitVec.ofInt_add, hpc, BitVec.signExtend, toInt_imm20_append]

end Sys2Proof.Machine
end

section
/-! The integer instructions that complete at once (R74 to R78, R80 to R82): their results and their words. -/

namespace Sys2Proof.Machine

/-! ### Instructions that complete at once -/

/-- An instruction whose meaning is a unary operation gives that operation's value. -/
theorem gives1_of_unaryOp {i : Instr} {w : Nat} {a d : Reg} {f g : Word → Word} (hi : ∀ s, exec i s = unaryOp w a d f s)
    (hfg : ∀ x, f x = g x) : Gives1 i a d g := fun s h hn hr => by
  rw [hi, unaryOp_gives w a d f s h hn hr, hfg]

/-- An instruction whose meaning is a binary operation gives that operation's value. -/
theorem gives2_of_binaryOp {i : Instr} {w : Nat} {a b d : Reg} {f g : Word → Word → Word} (hi : ∀ s, exec i s = binaryOp w b a d f s)
    (hfg : ∀ x y, f x y = g x y) : Gives2 i a b d g := fun s h hn hr => by
  rw [hi, binaryOp_gives w a b d f s h hn hr, hfg]

theorem sel_gives (b a d : Reg) :
    Gives (.sel b a d) [a, b, d] d (fun _ xs => if xs.getD 2 0 ≠ 0 then xs.getD 0 0 else xs.getD 1 0) := fun s h hn hr =>
  issue_gives _ [a, b, d] d (fun _ xs => if xs.getD 2 0 ≠ 0 then xs.getD 0 0 else xs.getD 1 0) _ (fun _ _ => rfl) s h hn hr

theorem lui_gives (imm : BitVec 20) (d : Reg) : Gives (.lui imm d) [] d (fun _ _ => (imm ++ (0 : BitVec 12)).signExtend 64) :=
  fun s h hn hr => issue_gives _ [] d (fun _ _ => (imm ++ (0 : BitVec 12)).signExtend 64) _ (fun _ _ => rfl) s h hn hr

theorem apc_gives (imm : BitVec 20) (d : Reg) :
    Gives (.apc imm d) [] d (fun s _ => BitVec.ofInt 64 ((s.thr.pc.toNat + imm.toInt * 4096) % 2 ^ 53)) := fun s h hn hr =>
  issue_gives _ [] d (fun s _ => BitVec.ofInt 64 ((s.thr.pc.toNat + imm.toInt * 4096) % 2 ^ 53)) _
    (fun s _ => by rw [← apc_value]; rfl) s h hn hr

/-! ### Words -/

theorem formI_eq (imm : Nat) (a : Reg) (f3 : Nat) (d : Reg) (low : Nat) :
    formI imm a f3 d low = f3 * 4096 + low + imm * 1048576 + a.toNat * 32768 + d.toNat * 128 := by
  unfold formI; omega

/-- The words of OP, with f3 = 0 and the bits of major 3. -/
theorem formK_op (f7 : Nat) (b a d : Reg) :
    formK f7 b a 0 d 0x0F = f7 * 33554432 + 15 + b.toNat * 1048576 + a.toNat * 32768 + d.toNat * 128 := by
  unfold formK; omega

/-- A word that its major's decoder refuses is refused. -/
theorem decodeNat_of_error {x : Nat} {e : DecodeError} (hlow : fld x 1 0 = 3) (hx : x ≠ 0xFFFFFFFF) (h : decodeMajor x = .error e) :
    decodeNat x = .error e := by
  simp [decodeNat, hlow, hx, h]

theorem decodeMajor_two {x : Nat} (h : fld x 6 2 = 2) : decodeMajor x = decodeMajor2 x := by simp [decodeMajor, h]
theorem decodeMajor_three {x : Nat} (h : fld x 6 2 = 3) : decodeMajor x = decodeMajor3 x := by simp [decodeMajor, h]

section
variable (a d : Reg)

/-- The fields of a word of OPI. -/
theorem fields_formI_opi {imm f3 : Nat} (hi : imm < 4096) (hf : f3 < 8) :
    let x := formI imm a f3 d 0x0B
    fld x 1 0 = 3 ∧ x ≠ 0xFFFFFFFF ∧ fld x 6 2 = 2 ∧ fld x 14 12 = f3 ∧ fld x 31 20 = imm := by
  have := a.isLt
  have := d.isLt
  simp only [fld, formI]
  omega

/-- The fields of a word of OP. -/
theorem fields_formK_op (b : Reg) {f7 : Nat} (hf : f7 < 127) :
    let x := formK f7 b a 0 d 0x0F
    fld x 1 0 = 3 ∧ x ≠ 0xFFFFFFFF ∧ fld x 6 2 = 3 ∧ fld x 31 25 = f7 ∧ fld x 24 20 = b.toNat := by
  have := a.isLt
  have := b.isLt
  have := d.isLt
  simp only [fld, formK]
  omega

theorem fld_29_26 (x : Nat) : fld x 29 26 = fld x 31 20 / 64 % 16 := by unfold fld; omega
theorem fld_31_29 (x : Nat) : fld x 31 29 = fld x 31 20 / 512 := by unfold fld; omega
theorem fld_28_20 (x : Nat) : fld x 28 20 = fld x 31 20 % 512 := by unfold fld; omega

theorem decodeMajor2_shift_refused {x : Nat} (hf3 : fld x 14 12 = 6) (hzero : fld x 29 26 ≠ 0) : decodeMajor2 x = .error .badField := by
  simp only [decodeMajor2, hf3]
  split <;> simp [chk, hzero]

theorem decodeMajor2_extend_refused {x : Nat} (hf3 : fld x 14 12 = 7) (h : 6 ≤ fld x 31 29 ∨ fld x 28 20 ≠ 0) :
    decodeMajor2 x = .error .badField := by
  simp only [decodeMajor2, hf3]
  split
  case h_7 => rfl
  all_goals simp [chk, h.resolve_left (by omega)]

theorem decodeMajor3_unary_refused {x : Nat} (hf7 : 22 ≤ fld x 31 25 ∧ fld x 31 25 ≤ 25) (hzero : fld x 24 20 ≠ 0) :
    decodeMajor3 x = .error .badField := by
  obtain ⟨h22, h25⟩ := hf7
  generalize hf : fld x 31 25 = f7 at h22 h25
  simp only [decodeMajor3, hf]
  interval_cases f7 <;> simp [chk, hzero]

/-- A shift's bits [29:26] must be 0 (R76). -/
theorem shift_word_refused {op low : Nat} (hop : op < 4) (hlow : low < 1024) (h : low / 64 ≠ 0) :
    decodeNat (formI (op * 1024 + low) a 6 d 0x0B) = .error .badField := by
  obtain ⟨h10, hx, hmaj, hf3, himm⟩ := fields_formI_opi a d (imm := op * 1024 + low) (f3 := 6) (by omega) (by omega)
  refine decodeNat_of_error h10 hx ?_
  rw [decodeMajor_two hmaj]
  exact decodeMajor2_shift_refused hf3 (by rw [fld_29_26, himm]; omega)

/-- An extension's bits [28:20] must be 0, and its number is at most 5 (R77). -/
theorem extend_word_refused {op low : Nat} (hop : op < 8) (hlow : low < 512) (h : 6 ≤ op ∨ low ≠ 0) :
    decodeNat (formI (op * 512 + low) a 7 d 0x0B) = .error .badField := by
  obtain ⟨h10, hx, hmaj, hf3, himm⟩ := fields_formI_opi a d (imm := op * 512 + low) (f3 := 7) (by omega) (by omega)
  refine decodeNat_of_error h10 hx ?_
  rw [decodeMajor_two hmaj]
  exact decodeMajor2_extend_refused hf3 (by rw [fld_31_29, fld_28_20, himm]; omega)

/-- The unary instructions of OP need b = 0 (R78). -/
theorem unary_word_refused {f7 : Nat} {b : Reg} (hf : 22 ≤ f7 ∧ f7 ≤ 25) (hb : b ≠ 0) :
    decodeNat (formK f7 b a 0 d 0x0F) = .error .badField := by
  have hb' : b.toNat ≠ 0 := fun e => hb (BitVec.eq_of_toNat_eq e)
  obtain ⟨h10, hx, hmaj, hf7, hfb⟩ := fields_formK_op a d b (f7 := f7) (by omega)
  refine decodeNat_of_error h10 hx ?_
  rw [decodeMajor_three hmaj]
  exact decodeMajor3_unary_refused (by rwa [hf7]) (by rwa [hfb])

end

theorem encodeNat_opi (a d : Reg) (imm : BitVec 12) :
    encodeNat (.addi imm a d) = some (formI imm.toNat a 0 d 0x0B) ∧ encodeNat (.andi imm a d) = some (formI imm.toNat a 1 d 0x0B) ∧
      encodeNat (.ori imm a d) = some (formI imm.toNat a 2 d 0x0B) ∧ encodeNat (.xori imm a d) = some (formI imm.toNat a 3 d 0x0B) ∧
      encodeNat (.slti imm a d) = some (formI imm.toNat a 4 d 0x0B) ∧ encodeNat (.sltiu imm a d) = some (formI imm.toNat a 5 d 0x0B) := by
  simp only [formI_eq]
  exact ⟨rfl, rfl, rfl, rfl, rfl, rfl⟩

theorem encodeNat_shifts (a d : Reg) (n : BitVec 6) :
    encodeNat (.slli n a d) = some (formI n.toNat a 6 d 0x0B) ∧ encodeNat (.srli n a d) = some (formI (1024 + n.toNat) a 6 d 0x0B) ∧
      encodeNat (.srai n a d) = some (formI (2048 + n.toNat) a 6 d 0x0B) ∧
      encodeNat (.rori n a d) = some (formI (3072 + n.toNat) a 6 d 0x0B) := by
  simp only [formI_eq]
  exact ⟨rfl, congrArg some (by omega), congrArg some (by omega), congrArg some (by omega)⟩

theorem encodeNat_extensions (a d : Reg) :
    ∀ x ∈ [(Instr.sextb a d, 0), (.sexth a d, 1), (.sextw a d, 2), (.zextb a d, 3), (.zexth a d, 4), (.zextw a d, 5)],
      encodeNat x.1 = some (formI (x.2 * 512) a 7 d 0x0B) := by
  simp only [formI_eq, List.forall_mem_cons]
  exact ⟨rfl, rfl, rfl, rfl, rfl, rfl, List.forall_mem_nil _⟩

theorem encodeNat_op (a b d : Reg) :
    ∀ x ∈ [(Instr.add b a d, 0), (.sub b a d, 1), (.and b a d, 2), (.or b a d, 3), (.xor b a d, 4), (.sll b a d, 5), (.srl b a d, 6),
      (.sra b a d, 7), (.ror b a d, 8), (.slt b a d, 9), (.sltu b a d, 10), (.min b a d, 11), (.max b a d, 12), (.minu b a d, 13),
      (.maxu b a d, 14), (.mul b a d, 15), (.mulh b a d, 16), (.mulhu b a d, 17), (.div b a d, 18), (.divu b a d, 19), (.rem b a d, 20),
      (.remu b a d, 21), (.sel b a d, 26), (.andn b a d, 27)], encodeNat x.1 = some (formK x.2 b a 0 d 0x0F) := by
  simp only [formK_op, List.forall_mem_cons]
  exact ⟨rfl, rfl, rfl, rfl, rfl, rfl, rfl, rfl, rfl, rfl, rfl, rfl, rfl, rfl, rfl, rfl, rfl, rfl, rfl, rfl, rfl, rfl, rfl, rfl,
    List.forall_mem_nil _⟩

/-- The words of CLZ, CTZ, POPC and BSWAP, and those with b not 0, which are refused (R78). -/
theorem unary_words (a b d : Reg) :
    ∀ x ∈ [(Instr.clz a d, 22), (.ctz a d, 23), (.popc a d, 24), (.bswap a d, 25)],
      encodeNat x.1 = some (formK x.2 0 a 0 d 0x0F) ∧ (b ≠ 0 → decodeNat (formK x.2 b a 0 d 0x0F) = .error .badField) := by
  simp only [List.forall_mem_cons]
  have hword : ∀ f7, 15 + f7 * 33554432 + a.toNat * 32768 + d.toNat * 128 = formK f7 0 a 0 d 0x0F := fun f7 => by
    rw [formK_op, show (0 : Reg).toNat = 0 from rfl]; omega
  exact ⟨⟨congrArg some (hword 22), unary_word_refused a d (by decide)⟩, ⟨congrArg some (hword 23), unary_word_refused a d (by decide)⟩,
    ⟨congrArg some (hword 24), unary_word_refused a d (by decide)⟩, ⟨congrArg some (hword 25), unary_word_refused a d (by decide)⟩,
    List.forall_mem_nil _⟩

theorem encodeNat_upper (d : Reg) (imm : BitVec 20) :
    encodeNat (.lui imm d) = some (imm.toNat * 2 ^ 12 + d.toNat * 2 ^ 7 + 0x17) ∧
      encodeNat (.apc imm d) = some (imm.toNat * 2 ^ 12 + d.toNat * 2 ^ 7 + 0x1B) :=
  ⟨congrArg some (by omega), congrArg some (by omega)⟩

/-! ### The integer instructions -/

/-- Settles O10: one line for each instruction, which names what its operation is in arithmetic; then its word. -/
theorem integerInstructionResults : Obligations.IntegerInstructionResults := by
  unfold Obligations.IntegerInstructionResults
  refine ⟨fun a d => ⟨fun imm => ?opi, fun n => ?shifts, ?extensions⟩, fun a b d => ?op, fun a b d => ?opw, fun a b d => ?words⟩
  case opi =>
    exact ⟨gives1_of_unaryOp (f := fun x => x + sext12 imm) (exec_addi imm a d) fun _ => rfl,
      gives1_of_unaryOp (f := fun x => x &&& sext12 imm) (exec_andi imm a d) fun _ => rfl,
      gives1_of_unaryOp (f := fun x => x ||| sext12 imm) (exec_ori imm a d) fun _ => rfl,
      gives1_of_unaryOp (f := fun x => x ^^^ sext12 imm) (exec_xori imm a d) fun _ => rfl,
      gives1_of_unaryOp (f := fun x => boolWord (x.slt (sext12 imm))) (exec_slti imm a d) fun x => by rw [boolWord_slt, toInt_sext12],
      gives1_of_unaryOp (f := fun x => boolWord (x.ult (sext12 imm))) (exec_sltiu imm a d) fun x => boolWord_ult x _⟩
  case shifts =>
    exact ⟨gives1_of_unaryOp (exec_slli n a d) fun x => shiftLeft_eq_ofNat x _,
      gives1_of_unaryOp (exec_srli n a d) fun x => ushiftRight_eq_ofNat x _,
      gives1_of_unaryOp (exec_srai n a d) fun x => sshiftRight_eq_ofInt x _,
      gives1_of_unaryOp (exec_rori n a d) fun x => rotRight_eq x _ n.isLt⟩
  case extensions =>
    exact ⟨gives1_of_unaryOp (exec_sextb a d) fun x => sextLow_eq x 8 (by decide) (by decide),
      gives1_of_unaryOp (exec_sexth a d) fun x => sextLow_eq x 16 (by decide) (by decide),
      gives1_of_unaryOp (exec_sextw a d) fun x => sextLow_eq x 32 (by decide) (by decide),
      gives1_of_unaryOp (exec_zextb a d) fun x => zextLow_eq x 8,
      gives1_of_unaryOp (exec_zexth a d) fun x => zextLow_eq x 16,
      gives1_of_unaryOp (exec_zextw a d) fun x => zextLow_eq x 32⟩
  case op =>
    exact ⟨gives2_of_binaryOp (exec_add b a d) fun _ _ => rfl,
      gives2_of_binaryOp (exec_sub b a d) fun _ _ => rfl,
      gives2_of_binaryOp (exec_and b a d) fun _ _ => rfl,
      gives2_of_binaryOp (exec_or b a d) fun _ _ => rfl,
      gives2_of_binaryOp (exec_xor b a d) fun _ _ => rfl,
      gives2_of_binaryOp (exec_sll b a d) fun x _ => shiftLeft_eq_ofNat x _,
      gives2_of_binaryOp (exec_srl b a d) fun x _ => ushiftRight_eq_ofNat x _,
      gives2_of_binaryOp (exec_sra b a d) fun x _ => sshiftRight_eq_ofInt x _,
      gives2_of_binaryOp (exec_ror b a d) fun x y => rotRight_eq x _ (Nat.mod_lt _ (by decide)),
      gives2_of_binaryOp (exec_slt b a d) boolWord_slt,
      gives2_of_binaryOp (exec_sltu b a d) boolWord_ult,
      gives2_of_binaryOp (exec_min b a d) ite_slt_eq_min,
      gives2_of_binaryOp (exec_max b a d) ite_slt_eq_max,
      gives2_of_binaryOp (exec_minu b a d) ite_ult_eq_min,
      gives2_of_binaryOp (exec_maxu b a d) ite_ult_eq_max,
      gives2_of_binaryOp (exec_mul b a d) fun _ _ => rfl,
      gives2_of_binaryOp (exec_mulh b a d) fun _ _ => rfl,
      gives2_of_binaryOp (exec_mulhu b a d) fun _ _ => rfl,
      gives2_of_binaryOp (exec_andn b a d) fun _ _ => rfl,
      gives1_of_unaryOp (exec_clz a d) fun x => by rw [leadingZeros_eq, wordOf],
      gives1_of_unaryOp (exec_ctz a d) fun x => by rw [trailingZeros_eq, wordOf],
      gives1_of_unaryOp (exec_popc a d) fun x => by rw [popCount_eq, wordOf],
      gives1_of_unaryOp (exec_bswap a d) byteSwap_eq,
      sel_gives b a d⟩
  case opw =>
    exact ⟨gives2_of_binaryOp (exec_addw b a d) fun _ _ => rfl,
      gives2_of_binaryOp (exec_subw b a d) fun _ _ => rfl,
      gives2_of_binaryOp (exec_mulw b a d) fun _ _ => rfl,
      gives2_of_binaryOp (exec_sllw b a d) fun x y => by rw [low32_shiftLeft, sext32],
      gives2_of_binaryOp (exec_srlw b a d) fun x y => by rw [ushiftRight_eq_ofNat, sext32, low32],
      gives2_of_binaryOp (exec_sraw b a d) fun x y => by rw [sext32_sshiftRight, low32],
      fun imm => ⟨lui_gives imm d, apc_gives imm d⟩⟩
  case words =>
    exact ⟨encodeNat_opi a d, encodeNat_shifts a d, encodeNat_extensions a d, fun _ _ => shift_word_refused a d,
      fun _ _ => extend_word_refused a d, encodeNat_op a b d, unary_words a b d, encodeNat_upper d⟩

end Sys2Proof.Machine
end

section
/-! The integer divides and the dividers (R65, R79, R80). -/

namespace Sys2Proof.Machine

/-! ### The issue of a divide -/

/-- Reading operands leaves the dividers of every core as they are. -/
theorem State.divs_readSrcs (s : State) (l : List Reg) (k : Nat) : ((s.readSrcs l).2.core k).divs = (s.core k).divs := by
  induction l generalizing s with
  | nil => rfl
  | cons r l ih =>
    unfold State.readSrcs
    split
    · refine (ih _).trans ?_
      by_cases h : k = s.curCore
      · subst h; simp [Core.setQueue]
      · simp [State.core_setCore_other _ _ h]
    · exact ih s

theorem State.divs_opened (s : State) (l : List Reg) (k : Nat) : ((s.opened l).core k).divs = (s.core k).divs := s.divs_readSrcs l k

theorem State.cur_awaitDst (s : State) (r : Reg) : (s.awaitDst r).2.cur = s.cur := by
  unfold State.awaitDst
  split
  · split
    · next h =>
      obtain ⟨l, rfl⟩ := State.claim_spec _ _ _ _ h
      simp
    · simp
  · split <;> simp

theorem Thread.log_makePending_le (t : Thread) (r : Reg) : (t.makePending r).log.length ≤ t.log.length + 1 := by
  unfold Thread.makePending
  split
  · omega
  · show (t.note (t.undoReg r)).log.length ≤ _
    unfold Thread.note
    split <;> simp

/-- A destination that waits makes at most one entry of the shadow log. -/
theorem State.log_awaitDst_le (s : State) (r : Reg) : (s.awaitDst r).2.thr.log.length ≤ s.thr.log.length + 1 := by
  unfold State.awaitDst
  split
  · split
    · next h =>
      obtain ⟨l, rfl⟩ := State.claim_spec _ _ _ _ h
      simp
    · next i _ _ _ =>
      have hq : ∀ q, (State.thr { s.setCore s.curCore ((s.core s.curCore).setQueue i q) with nextId := s.nextId + 1 }) = s.thr :=
        fun q => State.thr_setQueue s s.curCore i q
      rw [hq]; omega
  · split
    · exact Nat.le_succ _
    · rw [State.thr_setThr]; exact Thread.log_makePending_le _ _

/-- A core's dividers play no part in its threads. -/
theorem State.thrOf_setDivs (s : State) (k : Nat) (l : List DivJob) (a : Actor) :
    (s.setCore k { s.core k with divs := l }).thrOf a = s.thrOf a := by
  cases a with
  | slot c j =>
    by_cases h : c = k
    · subst h; simp [State.thrOf]
    · simp [State.thrOf, State.core_setCore_other _ _ h]
  | episode x => rfl

@[simp] theorem State.thr_divideSent (s : State) (v : Word) (flags : Nat) (float : Bool) (d : Dest) :
    (s.divideSent v flags float d).thr = s.thr := s.thrOf_setDivs _ _ _

/-- Completion in sequence, of an instruction whose result lands later: `u` is the state once it is sent. -/
theorem settle_later (f : Form) (s s' u : State) (xs : List Word) (k : State → Dest → State) (hseq : s.nextOk)
    (hu : k (s'.awaitDst (f.dsts.headD 0)).2 (s'.awaitDst (f.dsts.headD 0)).1 = u) (hroom : u.logRoom = true) :
    settle f s xs (.later s' k) = u.complete s.cur := by
  simp only [settle, State.checked_nextOk s _ hseq, hu, hroom, if_true]

/-- Both dividers are busy: the divide does not issue (R65). -/
theorem startDivide_busy (s : State) (v : Word) (flags : Nat) (float : Bool) (h : 2 ≤ (s.core s.cur.divCore).divs.length) :
    startDivide s v flags float = .park := if_pos h

/-- A divider is free: the divide begins there, and its result lands later (R65). -/
theorem startDivide_free (s : State) (v : Word) (flags : Nat) (float : Bool) (h : (s.core s.cur.divCore).divs.length < 2) :
    ∃ k, startDivide s v flags float = .later s k ∧ ∀ t d, t.cur = s.cur → k t d = t.divideSent v flags float d :=
  ⟨_, if_neg (by omega), fun t d ht => by simp only [State.divideSent, ht]⟩

/-- An instruction whose meaning is `divideOp` is a divide. -/
theorem divides_of_divideOp {i : Instr} {w : Nat} {a b d : Reg} {f : Word → Word → Word} {r : Thread → List Word → Word × Nat}
    (hi : ∀ s, exec i s = divideOp w b a d f s) (hr : ∀ t xs, r t xs = (f (xs.getD 0 0) (xs.getD 1 0), 0)) :
    Divides i [a, b] d false r := by
  intro s hcan
  have hgate := gate_go { word := w, srcs := [a, b], dsts := [d] } s rfl rfl rfl hcan
  have hdivs : ((s.opened [a, b]).core (s.opened [a, b]).cur.divCore).divs = (s.core s.cur.divCore).divs := by
    rw [State.cur_opened, State.divs_opened]
  simp only [hr]
  refine ⟨fun hfree hseq hroom => ?_, fun hbusy => ?_⟩
  · obtain ⟨k, hk, hsent⟩ := startDivide_free (s.opened [a, b]) (f (arg (s.operands [a, b]) 0) (arg (s.operands [a, b]) 1)) 0 false
      (by rwa [hdivs])
    rw [hi, divideOp, issue_of_gate _ _ _ _ _ hgate, hk]
    refine congrArg _ (settle_later _ s _ _ _ k hseq (hsent _ _ (State.cur_awaitDst _ _)) ?_)
    have hlog := State.log_awaitDst_le (s.opened [a, b]) d
    rw [State.thr_opened] at hlog
    unfold State.hasRoom at hroom
    exact decide_eq_true (by rw [State.thr_divideSent]; exact hlog.trans (by omega))
  · rw [hi, divideOp, issue_of_gate _ _ _ _ _ hgate, startDivide_busy _ _ _ _ (by rwa [hdivs])]
    rfl

/-! ### A result that lands -/

/-- A landing fills its register as a write does; the rest says when turns see it (R62). -/
theorem Thread.landG_eq_putG (t : Thread) (now : Nat) (r : Reg) (v : Word) :
    ∃ l p n, t.landG now r v = { t.putG r v with late := l, latePend := p, lateAt := n } := by
  unfold Thread.landG
  split
  · next h => exact ⟨t.late, t.latePend, t.lateAt, by simp [Thread.putG, h]⟩
  · exact ⟨_, _, _, rfl⟩

theorem Thread.getG_landG (t : Thread) (now : Nat) (r q : Reg) (v : Word) : (t.landG now r v).getG q = (t.putG r v).getG q := by
  obtain ⟨l, p, n, h⟩ := t.landG_eq_putG now r v
  rw [h]; rfl

theorem Thread.full_landG (t : Thread) (now : Nat) (r q : Reg) (v : Word) : (t.landG now r v).full q = (t.putG r v).full q := by
  obtain ⟨l, p, n, h⟩ := t.landG_eq_putG now r v
  rw [h]; rfl

@[simp] theorem Thread.csr_landG (t : Thread) (now : Nat) (r : Reg) (v : Word) : (t.landG now r v).csr = t.csr := by
  obtain ⟨l, p, n, h⟩ := t.landG_eq_putG now r v
  rw [h]; exact Thread.csr_putG t r v

@[simp] theorem Thread.pc_landG (t : Thread) (now : Nat) (r : Reg) (v : Word) : (t.landG now r v).pc = t.pc := by
  obtain ⟨l, p, n, h⟩ := t.landG_eq_putG now r v
  rw [h]; exact Thread.pc_putG t r v

theorem Thread.lateAt_landG (t : Thread) (now : Nat) {r : Reg} (v : Word) (h : r ≠ 0) : (t.landG now r v).lateAt = now := by
  rw [Thread.landG, if_neg h]

theorem Thread.late_landG (t : Thread) (now : Nat) {r : Reg} (v : Word) (h : r ≠ 0) : (t.landG now r v).late.getLsbD r.toNat = true := by
  rw [Thread.landG, if_neg h]
  exact maskSet_same _ _ _ r.isLt

/-- A turn of the F-cycle of the landing does not see the register full (R62). -/
theorem Thread.seenFull_landG_now (t : Thread) (now : Nat) {r : Reg} (v : Word) (h : r ≠ 0) : (t.landG now r v).seenFull now r = false := by
  simp [Thread.seenFull, Thread.lateAt_landG t now v h, Thread.late_landG t now v h]

/-- A turn of the next F-cycle does (R62). -/
theorem Thread.seenFull_landG_next (t : Thread) (now : Nat) {r : Reg} (v : Word) (h : r ≠ 0) :
    (t.landG now r v).seenFull (now + 1) r = true := by
  simp [Thread.seenFull, Thread.lateAt_landG t now v h, Thread.full_landG, Thread.full_putG_same]

/-- A landing in a register changes its thread alone, and of the rest of the thread the shadow log at most (R67, R181). -/
theorem State.landAt_reg (s : State) (a : Actor) (r : Reg) (v : Word) (after : Option Nat) :
    ∃ l, s.landAt a (.reg r) v after = s.setThrOf a ({ s.thrOf a with log := l }.landG s.now r v) := by
  unfold State.landAt
  cases after with
  | none => exact ⟨(s.thrOf a).log, rfl⟩
  | some n =>
    simp only
    split
    · exact ⟨_, rfl⟩
    · exact ⟨(s.thrOf a).log, rfl⟩

/-! ### Flags that a landing raises -/

theorem ThrCsrs.get_put_fpctl (c : ThrCsrs) (v : Word) {n : Nat} (h : n ≠ 0x012) : (c.put 0x012 v).get n = c.get n := by
  show ThrCsrs.get { c with fpctl := v } n = c.get n
  unfold ThrCsrs.get
  split
  case h_10 => exact absurd rfl h
  all_goals rfl

/-- Raised flags are in THR_FPCTL; of the thread only its CSRs and shadow log change (R127, R183). -/
theorem Thread.raiseAt_eq (t : Thread) (flags after : Nat) (undoable : Bool) :
    ∃ l, t.raiseAt flags after undoable =
      { t with csr := t.csr.put 0x012 (t.csr.fpctl ||| wordOf (flags * 8)), log := l } := by
  unfold Thread.raiseAt
  split
  · next h =>
    refine ⟨t.log, ?_⟩
    have : t.csr.put 0x012 (t.csr.fpctl ||| wordOf (flags * 8)) = t.csr := by
      rw [h, show wordOf (0 * 8) = 0#64 from rfl, BitVec.or_zero]; rfl
    rw [this]
  · exact ⟨_, rfl⟩

/-! ### DIVIDER_COMPLETE -/

theorem State.divs_setThrOf (s : State) (a : Actor) (t : Thread) (k : Nat) : ((s.setThrOf a t).core k).divs = (s.core k).divs := by
  obtain ⟨l, h⟩ := s.core_setThrOf a t k
  rw [h]

theorem State.live_setDivs (s : State) (k : Nat) (l : List DivJob) (i : Nat) :
    (s.setCore k { s.core k with divs := l }).live (.slot k i) = s.live (.slot k i) := by
  simp only [State.live, State.slotBound, State.core_setCore_same]
  rfl

/-- The thread of a divide once it has landed in register `r`, with the shadow log `l`. -/
def Thread.divided (t : Thread) (j : DivJob) (now : Nat) (r : Reg) (l : List Undo) : Thread :=
  Thread.landG { t with csr := t.csr.put 0x012 (t.csr.fpctl ||| wordOf (j.flags * 8)), log := l } now r j.val

section
variable (t : Thread) (j : DivJob) (now : Nat) (r : Reg) (l : List Undo)

theorem Thread.getG_divided_same (h : r ≠ 0) : (t.divided j now r l).getG r = j.val := by
  rw [Thread.divided, Thread.getG_landG, Thread.getG_putG_same _ _ _ h]

theorem Thread.getG_divided_other {q : Reg} (h : q ≠ r) : (t.divided j now r l).getG q = t.getG q := by
  rw [Thread.divided, Thread.getG_landG, Thread.getG_putG_other _ _ h]; rfl

theorem Thread.full_divided_same : (t.divided j now r l).full r = true := by
  rw [Thread.divided, Thread.full_landG, Thread.full_putG_same]

theorem Thread.full_divided_other {q : Reg} (h : q ≠ r) : (t.divided j now r l).full q = t.full q := by
  rw [Thread.divided, Thread.full_landG, Thread.full_putG_other _ _ h]; rfl

theorem Thread.csr_divided : (t.divided j now r l).csr = t.csr.put 0x012 (t.csr.fpctl ||| wordOf (j.flags * 8)) := Thread.csr_landG _ _ _ _

theorem Thread.pc_divided : (t.divided j now r l).pc = t.pc := Thread.pc_landG _ _ _ _

end

/-- A divide of a thread that is still there frees its divider, raises its flags, and lands in its register (R65, R127, R129). -/
theorem execDividerComplete_reg (s : State) (k id : Nat) (j : DivJob) (r : Reg) (hfind : (s.core k).divs.find? (fun x => x.id == id) = some j)
    (hk : k < 1024) (hdst : j.dst = .reg r) (hlive : s.live (.slot k j.slot) = true) :
    ∃ t0 l, execDividerComplete k id s =
      .next (((s.setCore k { s.core k with divs := (s.core k).divs.filter (fun x => x.id != id) }).setThrOf (.slot k j.slot) t0).setThrOf
        (.slot k j.slot) ((s.thrOf (.slot k j.slot)).divided j s.now r l)) := by
  have hact : divActor k j.slot = .slot k j.slot := if_pos hk
  have hflags := Thread.raiseAt_eq (s.thrOf (.slot k j.slot)) j.flags j.after ((s.thrOf (.slot k j.slot)).undoable j.after)
  obtain ⟨l0, hraise⟩ := hflags
  unfold execDividerComplete
  simp only [hfind, hact, State.live_setDivs, hlive, if_true, State.thrOf_setDivs, hraise, hdst]
  obtain ⟨l, hland⟩ := State.landAt_reg (State.setThrOf (s.setCore k { s.core k with divs := (s.core k).divs.filter (fun x => x.id != id) })
    (.slot k j.slot) _) (.slot k j.slot) r j.val (some j.after)
  rw [hland]
  exact ⟨_, l, by rw [State.thrOf_setThrOf_same]; rfl⟩

/-- Settles O11: the six divides by their operations; then DIVIDER_COMPLETE by what it does to the one thread. -/
theorem integerDivideResults : Obligations.IntegerDivideResults := by
  unfold Obligations.IntegerDivideResults
  refine ⟨fun a b d => ?divides, fun s k id j r hfind hk hdst hr hlive => ?completes⟩
  case divides =>
    exact ⟨divides_of_divideOp (exec_div b a d) fun _ xs => by rw [divS, sdiv_eq_ofInt],
      divides_of_divideOp (exec_rem b a d) fun _ xs => by rw [remS, srem_eq_ofInt],
      divides_of_divideOp (exec_divu b a d) fun _ xs => by rw [divU, udiv_eq_ofNat],
      divides_of_divideOp (exec_remu b a d) fun _ xs => by rw [remU, umod_eq_ofNat],
      divides_of_divideOp (exec_divw b a d) fun _ xs => by rw [sext32_divS32]; rfl,
      divides_of_divideOp (exec_remw b a d) fun _ xs => by rw [sext32_remS32]; rfl⟩
  case completes =>
    obtain ⟨t0, l, hnext⟩ := execDividerComplete_reg s k id j r hfind hk hdst hlive
    refine ⟨_, (exec_dividerComplete k id s).trans hnext, ?_⟩
    simp only [State.divs_setThrOf, State.core_setCore_same, State.thrOf_setThrOf_same]
    exact ⟨trivial, Thread.getG_divided_same _ _ _ _ _ hr, Thread.full_divided_same _ _ _ _ _, Thread.seenFull_landG_now _ _ _ hr,
      Thread.seenFull_landG_next _ _ _ hr, fun q hq => ⟨Thread.getG_divided_other _ _ _ _ _ hq, Thread.full_divided_other _ _ _ _ _ hq⟩,
      by rw [Thread.csr_divided]; rfl, fun n hn => by rw [Thread.csr_divided, ThrCsrs.get_put_fpctl _ _ hn], Thread.pc_divided _ _ _ _ _,
      fun b hb => by rw [State.thrOf_setThrOf_other _ _ hb, State.thrOf_setThrOf_other _ _ hb, State.thrOf_setDivs], rfl, rfl⟩

end Sys2Proof.Machine
end

section
/-! The sequencer: where a completed instruction goes (R85). -/

namespace Sys2Proof.Machine

/-! ### The step of R85 -/

theorem Thread.seqNext_of_nil {t : Thread} (h : t.loops = []) : t.seqNext = (t.pc + 4, [], false) := by simp [Thread.seqNext, h]

theorem Thread.seqNext_away {t : Thread} {l : LoopLevel} {rest : List LoopLevel} (h : t.loops = l :: rest) (hpc : l.stop ≠ t.pc) :
    t.seqNext = (t.pc + 4, l :: rest, false) := by
  simp [Thread.seqNext, h, hpc]

theorem Thread.seqNext_at_stop {t : Thread} {l : LoopLevel} {rest : List LoopLevel} (h : t.loops = l :: rest) (hpc : l.stop = t.pc) :
    t.seqNext = loopStep t.pc (l :: rest) := by
  simp [Thread.seqNext, h, hpc]

theorem loopStep_back (e : BitVec 53) {l : LoopLevel} (rest : List LoopLevel) (h : l.index.toNat + 1 < l.count.toNat) :
    loopStep e (l :: rest) = (l.start, { l with index := l.index + 1 } :: rest, true) := by
  simp [loopStep, h]

/-- On its last iteration a level is left, and what the levels outside it say of its end is the step (R85). -/
theorem loopStep_last (t : Thread) {l : LoopLevel} (rest : List LoopLevel) (hpc : l.stop = t.pc) (h : l.count.toNat ≤ l.index.toNat + 1) :
    loopStep t.pc (l :: rest) = ({ t with loops := rest } : Thread).seqNext := by
  have hno : ¬ l.index.toNat + 1 < l.count.toNat := Nat.not_lt.2 h
  cases rest with
  | nil => rw [Thread.seqNext_of_nil rfl, loopStep, if_neg hno, hpc]
  | cons m r =>
    rw [loopStep, if_neg hno, hpc]
    by_cases hm : m.stop = t.pc
    · rw [if_pos hm, Thread.seqNext_at_stop (t := { t with loops := m :: r }) rfl hm]
    · rw [if_neg hm, Thread.seqNext_away (t := { t with loops := m :: r }) rfl hm]

theorem Thread.seqNext_setCsr (t : Thread) (n : Nat) (v : Word) : (t.setCsr n v).seqNext = t.seqNext := by simp [Thread.seqNext]

/-! ### Completion -/

section
variable (s : State) (a b : Actor)

@[simp] theorem State.cur_countIssue : (s.countIssue a).cur = s.cur := by cases a <;> rfl
@[simp] theorem State.mem_countIssue : (s.countIssue a).mem = s.mem := by cases a <;> rfl

/-- The count of an episode's instructions is no part of its thread. -/
@[simp] theorem State.thrOf_countIssue : (s.countIssue a).thrOf b = s.thrOf b := by
  cases a with
  | slot k i => rfl
  | episode x =>
    cases b with
    | slot k i => rfl
    | episode y =>
      by_cases h : y = x
      · subst h; simp [State.countIssue, State.thrOf]
      · simp [State.countIssue, State.thrOf, State.episode_setEpisode_other _ _ h]

variable (yields : Bool)

@[simp] theorem State.cur_complete : (s.complete a yields).cur = s.cur := by simp [State.complete]
@[simp] theorem State.mem_complete : (s.complete a yields).mem = s.mem := by simp [State.complete]

/-- Completion puts the thread where R85 says. -/
theorem State.thrOf_complete : (s.complete a yields).thrOf a =
    (s.thrOf a).goTo (s.thrOf a).seqNext.1 (s.thrOf a).seqNext.2.1 ((s.thrOf a).seqNext.2.2 || yields) := by
  simp [State.complete]

theorem State.thr_complete : (s.complete s.cur yields).thr =
    s.thr.goTo s.thr.seqNext.1 s.thr.seqNext.2.1 (s.thr.seqNext.2.2 || yields) := by
  simp [State.thr, State.thrOf_complete]

end

/-- Settles O13: the four cases of the step; then completion, which takes it. -/
theorem sequencingStepsLoops : Obligations.SequencingStepsLoops := by
  unfold Obligations.SequencingStepsLoops
  refine ⟨fun t => ⟨Thread.seqNext_of_nil, fun l rest h => ⟨Thread.seqNext_away h, fun hpc hmore => ?back, fun hpc hlast => ?last⟩⟩,
    fun s a yields => ?completes⟩
  case back => rw [Thread.seqNext_at_stop h hpc, loopStep_back _ _ hmore]
  case last => rw [Thread.seqNext_at_stop h hpc, loopStep_last t rest hpc hlast]
  case completes =>
    simp only [State.thrOf_complete]
    exact ⟨rfl, rfl, rfl⟩

end Sys2Proof.Machine
end

section
/-! The ends of a turn that changes the pc, and of those that trap, complete or yield (R89, R97). -/

namespace Sys2Proof.Machine

/-! ### Destinations in a row -/

theorem State.cur_putDsts (s : State) (ds : List Reg) (vs : List Word) (lat : Nat) : (s.putDsts ds vs lat).cur = s.cur := by
  induction ds generalizing s vs with
  | nil => rfl
  | cons d ds ih =>
    cases vs with
    | nil => rfl
    | cons v vs => exact (ih _ _).trans (s.cur_putDst d v lat)

/-- Each destination's write makes at most one entry of the shadow log (R181). -/
theorem State.log_putDsts_le (s : State) (ds : List Reg) (vs : List Word) (lat : Nat) :
    (s.putDsts ds vs lat).thr.log.length ≤ s.thr.log.length + ds.length := by
  induction ds generalizing s vs with
  | nil => exact le_rfl
  | cons d ds ih =>
    cases vs with
    | nil => exact Nat.le_add_right _ _
    | cons v vs =>
      have hfirst := s.log_putDst_le d v lat
      have hrest := ih (s.putDst d v lat) vs
      simp only [State.putDsts, List.length_cons]
      omega

theorem State.logRoom_putDsts_opened (s : State) (srcs ds : List Reg) (vs : List Word) (lat : Nat) (h : s.hasRoom ds.length) :
    ((s.opened srcs).putDsts ds vs lat).logRoom = true := by
  have hlog := (s.opened srcs).log_putDsts_le ds vs lat
  rw [State.thr_opened] at hlog
  exact decide_eq_true (hlog.trans h)

/-! ### The check of a target (R89) -/

theorem State.targetLook_of_targetOk {s : State} {a : Actor} {pc : BitVec 53} (h : s.targetOk a pc = true) : s.targetLook a pc = .ok := by
  simpa [State.targetOk] using h

theorem State.checked_bad {s : State} {target : BitVec 53} (go : State) (h : s.targetLook s.cur target = .bad) :
    s.checked true target go = s.trapTurn .branchTarget (wordOf target.toNat) := by
  simp [State.checked, h]

theorem State.checked_miss {s : State} {target : BitVec 53} (go : State) (h : s.targetLook s.cur target = .miss) :
    s.checked true target go = startWalk target.toNat 3 s.parkTurn := by
  simp [State.checked, h]

/-! ### Instructions of user privilege that exist everywhere, by how they end -/

section
variable {f : Form} {body : State → List Word → Res} {s : State} (hsub : f.sub = 0) (hpriv : f.priv = 0) (hpre : f.pre = none)
  (hcan : s.canIssue f.srcs f.dsts f.leaves)
include hsub hpriv hpre hcan

theorem issue_body : issue f body s = .next (settle f s (s.operands f.srcs) (body (s.opened f.srcs) (s.operands f.srcs))) :=
  issue_of_gate _ _ _ _ _ (gate_go f s hsub hpriv hpre hcan)

theorem issue_trap {c : Cause} {v : Word} (hb : body (s.opened f.srcs) (s.operands f.srcs) = .trap c v) :
    issue f body s = .next (s.trapTurn c v) := by
  rw [issue_body hsub hpriv hpre hcan, hb]; rfl

theorem issue_done {vs : List Word} (hseq : s.nextOk) (hroom : s.hasRoom f.dsts.length)
    (hb : body (s.opened f.srcs) (s.operands f.srcs) = .done (s.opened f.srcs) vs) :
    issue f body s = .next (((s.opened f.srcs).putDsts f.dsts vs f.lat).complete s.cur) := by
  rw [issue_body hsub hpriv hpre hcan, hb, settle_done f s _ _ _ hseq hcan.1 (s.logRoom_putDsts_opened _ _ _ _ hroom)]

/-- A change of pc: to its target, as far as the check of R89 lets it. -/
theorem issue_jump {vs : List Word} {target : BitVec 53} {loops : List LoopLevel} {need back : Bool} (hroom : s.hasRoom f.dsts.length)
    (hb : body (s.opened f.srcs) (s.operands f.srcs) = .jump (s.opened f.srcs) vs target loops need back) :
    issue f body s = .next (s.checked need target (((s.opened f.srcs).putDsts f.dsts vs f.lat).goesTo target loops back)) := by
  have hcur : ((s.opened f.srcs).putDsts f.dsts vs f.lat).cur = s.cur := by rw [State.cur_putDsts, State.cur_opened]
  rw [issue_body hsub hpriv hpre hcan, hb]
  simp only [settle, s.logRoom_putDsts_opened _ _ _ _ hroom, if_true, State.goesTo, hcur]

/-- A change of pc whose target passes the check of R89, or needs none, and that writes no register. -/
theorem issue_goes {target : BitVec 53} {loops : List LoopLevel} {need back : Bool} (hdsts : f.dsts = []) (hroom : s.hasRoom 0)
    (hb : body (s.opened f.srcs) (s.operands f.srcs) = .jump (s.opened f.srcs) [] target loops need back)
    (hok : need = true → s.targetOk s.cur target = true) : issue f body s = .next ((s.opened f.srcs).goesTo target loops back) := by
  rw [issue_jump hsub hpriv hpre hcan (by rwa [hdsts]) hb, State.checked_ok _ _ _ _ hok, hdsts]
  rfl

theorem issue_yielded {t : Thread} (hseq : s.nextOk) (hlog : t.log.length ≤ 16)
    (hb : body (s.opened f.srcs) (s.operands f.srcs) = .yielded (s.setThr t)) :
    issue f body s = .next ((s.setThr t).complete s.cur true) := by
  have hroom : (s.setThr t).logRoom = true := decide_eq_true (by rwa [State.thr_setThr])
  rw [issue_body hsub hpriv hpre hcan, hb]
  simp only [settle, State.checked_nextOk s _ hseq, hroom, if_true]

end

end Sys2Proof.Machine
end

section
/-! The branches and the jumps (R90 to R92): targets, conditions, links and words. -/

namespace Sys2Proof.Machine

/-! ### Targets and links -/

theorem ofInt_toNat_add {w : Nat} (x : BitVec w) (z : Int) : BitVec.ofInt w (x.toNat + z) = x + BitVec.ofInt w z := by
  rw [BitVec.ofInt_add, BitVec.ofInt_natCast, BitVec.ofNat_toNat, BitVec.setWidth_eq]

/-- A branch's displacement is four times its signed offset (R36). -/
theorem branchDisp_eq_ofInt {n : Nat} (off : BitVec n) : branchDisp off = BitVec.ofInt 53 (4 * off.toInt) := by
  rw [branchDisp, BitVec.signExtend, BitVec.shiftLeft_eq_mul_twoPow, BitVec.ofInt_mul, mul_comm]
  rfl

theorem pc_add_branchDisp {n : Nat} (pc : BitVec 53) (off : BitVec n) :
    pc + branchDisp off = BitVec.ofInt 53 (pc.toNat + 4 * off.toInt) := by
  rw [branchDisp_eq_ofInt, ofInt_toNat_add]

theorem jalr_target (base : Word) (imm : BitVec 12) :
    base.setWidth 53 + imm.signExtend 53 = BitVec.ofInt 53 (base.toNat + imm.toInt) := by
  rw [BitVec.ofInt_add, BitVec.ofInt_natCast, BitVec.ofNat_toNat, BitVec.signExtend]

theorem State.link_eq_ofNat (s : State) : s.link = BitVec.ofNat 64 ((s.thr.pc.toNat + 4) % 2 ^ 53) := by
  rw [State.link, ← BitVec.ofNat_toNat, BitVec.toNat_add]
  rfl

/-! ### Branches -/

theorem branchTo_taken (s : State) (off : BitVec 12) :
    branchTo s off true = .jump s [] (BitVec.ofInt 53 (s.thr.pc.toNat + 4 * off.toInt)) s.thr.loops true false := by
  rw [← pc_add_branchDisp]; rfl

theorem branchTo_not_taken (s : State) (off : BitVec 12) : branchTo s off false = .done s [] := rfl

/-- An instruction whose execution is `branchTo` branches. -/
theorem branches_of_branchTo {i : Instr} {w : Nat} {srcs : List Reg} {off : BitVec 12} {taken : State → List Word → Bool}
    {body : State → List Word → Res} (hi : ∀ s, exec i s = issue { word := w, srcs := srcs } body s)
    (hb : ∀ s, body (s.opened srcs) (s.operands srcs) = branchTo (s.opened srcs) off (taken s (s.operands srcs))) :
    Branches i srcs off taken := by
  intro s hcan hroom
  have hjump : taken s (s.operands srcs) = true → exec i s = .next (s.checked true (BitVec.ofInt 53 (s.thr.pc.toNat + 4 * off.toInt))
      ((s.opened srcs).goesTo (BitVec.ofInt 53 (s.thr.pc.toNat + 4 * off.toInt)) s.thr.loops false)) := fun ht =>
    (hi s).trans (issue_jump rfl rfl rfl hcan hroom ((hb s).trans (by rw [ht, branchTo_taken, State.thr_opened])))
  refine ⟨fun ht hok => ?ok, fun ht hbad => ?bad, fun ht hmiss => ?miss, fun ht hseq => ?on⟩
  case ok => rw [hjump ht, State.checked_ok _ _ _ _ fun _ => hok]
  case bad => rw [hjump ht, State.checked_bad _ hbad]
  case miss => rw [hjump ht, State.checked_miss _ hmiss]
  case on => exact (hi s).trans (issue_done rfl rfl rfl hcan hseq hroom ((hb s).trans (by rw [ht, branchTo_not_taken])))

/-- A compare-and-branch, by its condition. -/
theorem branches_of_branchOp {i : Instr} {f3 : Nat} {off : BitVec 12} {a b : Reg} {cond : Word → Word → Bool}
    {taken : State → List Word → Bool} (hi : ∀ s, exec i s = branchOp f3 off b a cond s)
    (hc : ∀ s xs, cond (xs.getD 0 0) (xs.getD 1 0) = taken s xs) : Branches i [a, b] off taken :=
  branches_of_branchTo hi fun s => congrArg (branchTo _ off) (hc s _)

/-- The compare-and-branches of R90, by their conditions. -/
theorem branches_compare (off : BitVec 12) (a b : Reg) :
    Branches (.beq off b a) [a, b] off (fun _ xs => decide (xs.getD 0 0 = xs.getD 1 0)) ∧
      Branches (.bne off b a) [a, b] off (fun _ xs => decide (xs.getD 0 0 ≠ xs.getD 1 0)) ∧
      Branches (.blt off b a) [a, b] off (fun _ xs => decide ((xs.getD 0 0).toInt < (xs.getD 1 0).toInt)) ∧
      Branches (.bge off b a) [a, b] off (fun _ xs => decide ((xs.getD 1 0).toInt ≤ (xs.getD 0 0).toInt)) ∧
      Branches (.bltu off b a) [a, b] off (fun _ xs => decide ((xs.getD 0 0).toNat < (xs.getD 1 0).toNat)) ∧
      Branches (.bgeu off b a) [a, b] off (fun _ xs => decide ((xs.getD 1 0).toNat ≤ (xs.getD 0 0).toNat)) :=
  ⟨branches_of_branchOp (exec_beq off b a) fun _ _ => rfl,
    branches_of_branchOp (exec_bne off b a) fun _ _ => decide_not.symm,
    branches_of_branchOp (exec_blt off b a) fun _ _ => rfl,
    branches_of_branchOp (exec_bge off b a) fun _ _ => by simp [BitVec.slt, ← decide_not],
    branches_of_branchOp (exec_bltu off b a) fun _ _ => rfl,
    branches_of_branchOp (exec_bgeu off b a) fun _ _ => by simp [BitVec.ult, ← decide_not]⟩

theorem branches_full (off : BitVec 12) (a : Reg) :
    Branches (.bfull off a) [] off (fun s _ => s.testsFull a) ∧ Branches (.bempty off a) [] off (fun s _ => !s.testsFull a) :=
  ⟨branches_of_branchTo (exec_bfull off a) fun _ => rfl, branches_of_branchTo (exec_bempty off a) fun _ => rfl⟩

/-- Instructions that branch alike by equal conditions. -/
theorem Branches.congr {i : Instr} {srcs : List Reg} {off : BitVec 12} {p q : State → List Word → Bool} (h : Branches i srcs off p)
    (hpq : ∀ s xs, p s xs = q s xs) : Branches i srcs off q :=
  (funext fun s => funext (hpq s) : p = q) ▸ h

theorem State.testsFull_of_mapped {s : State} {r : Reg} {i : Nat} (h : s.thr.mapped r = some i) :
    s.testsFull r = ((s.core s.curCore).queue i).canPop s.now 1 := by
  simp [State.testsFull, h]

theorem State.testsFull_of_unmapped {s : State} {r : Reg} (h : s.thr.mapped r = none) : s.testsFull r = s.thr.seenFull s.now r := by
  simp [State.testsFull, h]

/-! ### Jumps -/

/-- JAL, up to the check of its target. -/
theorem exec_jal_checked (s : State) (d : Reg) (off : BitVec 20) (hcan : s.canIssue [] [d] false) (hroom : s.hasRoom 1) :
    let target := BitVec.ofInt 53 (s.thr.pc.toNat + 4 * off.toInt)
    exec (.jal off d) s = .next (s.checked true target
      ((s.putDst d (BitVec.ofNat 64 ((s.thr.pc.toNat + 4) % 2 ^ 53)) 3).goesTo target s.thr.loops false)) := by
  intro target
  have htarget : s.thr.pc + branchDisp off = target := pc_add_branchDisp _ _
  rw [exec_jal, ← State.link_eq_ofNat, ← htarget]
  exact issue_jump (f := { word := _, dsts := [d] }) (vs := [s.link]) rfl rfl rfl hcan hroom rfl

/-- JALR, up to the check of its target: its base is read before the link is written (R91). -/
theorem exec_jalr_checked (s : State) (d a : Reg) (imm : BitVec 12) (hcan : s.canIssue [a] [d] false) (hroom : s.hasRoom 1) :
    let target := BitVec.ofInt 53 ((s.operand [a] 0).toNat + imm.toInt)
    exec (.jalr imm a d) s = .next (s.checked true target
      (((s.opened [a]).putDst d (BitVec.ofNat 64 ((s.thr.pc.toNat + 4) % 2 ^ 53)) 3).goesTo target s.thr.loops false)) := by
  intro target
  have htarget : (s.operand [a] 0).setWidth 53 + imm.signExtend 53 = target := jalr_target _ _
  have hlink : (s.opened [a]).link = s.link := by simp [State.link]
  rw [exec_jalr, ← State.link_eq_ofNat, ← htarget, ← hlink, ← s.thr_opened [a]]
  exact issue_jump (f := { word := _, srcs := [a], dsts := [d] }) (vs := [(s.opened [a]).link]) rfl rfl rfl hcan hroom rfl

/-! ### Words -/

theorem formB_eq (off : BitVec 12) (b a : Reg) (f3 low : Nat) :
    formB off b a f3 low =
      f3 * 4096 + low + off.toNat / 32 * 33554432 + off.toNat % 32 * 128 + b.toNat * 1048576 + a.toNat * 32768 := by
  unfold formB; omega

/-- The fields of a word of the branches. -/
theorem fields_formB (off : BitVec 12) (a b : Reg) {f3 : Nat} (hf : f3 < 8) :
    let x := formB off b a f3 0x1F
    fld x 1 0 = 3 ∧ x ≠ 0xFFFFFFFF ∧ fld x 6 2 = 7 ∧ fld x 14 12 = f3 ∧ fld x 24 20 = b.toNat := by
  have hhi : off.toNat / 32 < 128 := by omega
  have hlo : off.toNat % 32 < 32 := by omega
  have ha := a.isLt
  have hb := b.isLt
  simp only [fld, formB]
  generalize off.toNat / 32 = hi at hhi
  generalize off.toNat % 32 = lo at hlo
  omega

theorem decodeMajor_seven {x : Nat} (h : fld x 6 2 = 7) : decodeMajor x = decodeMajor7 x := by simp [decodeMajor, h]

/-- BFULL and BEMPTY need b = 0 (R90). -/
theorem full_branch_word_refused (off : BitVec 12) (a : Reg) {b : Reg} {f3 : Nat} (hf : f3 = 6 ∨ f3 = 7) (hb : b ≠ 0) :
    decodeNat (formB off b a f3 0x1F) = .error .badField := by
  have hb' : b.toNat ≠ 0 := fun e => hb (BitVec.eq_of_toNat_eq e)
  obtain ⟨h10, hx, hmaj, hf3, hfb⟩ := fields_formB off a b (f3 := f3) (by omega)
  refine decodeNat_of_error h10 hx ?_
  rw [decodeMajor_seven hmaj]
  rcases hf with rfl | rfl <;> simp [decodeMajor7, hf3, chk, hfb, hb']

theorem encodeNat_compare_branches (off : BitVec 12) (a b : Reg) :
    ∀ x ∈ [(Instr.beq off b a, 0), (.bne off b a, 1), (.blt off b a, 2), (.bge off b a, 3), (.bltu off b a, 4), (.bgeu off b a, 5)],
      encodeNat x.1 = some (formB off b a x.2 0x1F) := by
  simp only [formB_eq, List.forall_mem_cons]
  exact ⟨rfl, rfl, rfl, rfl, rfl, rfl, List.forall_mem_nil _⟩

/-- The words of BFULL and BEMPTY, and those with b not 0, which are refused (R90). -/
theorem full_branch_words (off : BitVec 12) (a b : Reg) :
    ∀ x ∈ [(Instr.bfull off a, 6), (.bempty off a, 7)], encodeNat x.1 = some (formB off 0 a x.2 0x1F) ∧
      (b ≠ 0 → decodeNat (formB off b a x.2 0x1F) = .error .badField) := by
  have hword : ∀ f3, f3 * 4096 + 31 + off.toNat / 32 * 33554432 + off.toNat % 32 * 128 + a.toNat * 32768 = formB off 0 a f3 0x1F :=
    fun f3 => by rw [formB_eq, show (0 : Reg).toNat = 0 from rfl]; omega
  simp only [List.forall_mem_cons]
  exact ⟨⟨congrArg some (hword 6), full_branch_word_refused off a (.inl rfl)⟩,
    ⟨congrArg some (hword 7), full_branch_word_refused off a (.inr rfl)⟩, List.forall_mem_nil _⟩

theorem encodeNat_jal (off : BitVec 20) (d : Reg) : encodeNat (.jal off d) = some (off.toNat * 2 ^ 12 + d.toNat * 2 ^ 7 + 0x23) :=
  congrArg some (by omega)

theorem encodeNat_jalr (imm : BitVec 12) (a d : Reg) : encodeNat (.jalr imm a d) = some (formI imm.toNat a 0 d 0x27) := by
  rw [formI_eq, Nat.zero_mul, Nat.zero_add]; rfl

/-! ### The branches and jumps -/

/-- Settles O12: the branches by their conditions; the jumps by what the check of their targets finds; then the words. -/
theorem branchesAndJumps : Obligations.BranchesAndJumps := by
  unfold Obligations.BranchesAndJumps
  refine ⟨fun off a b => ?branches, fun s d hroom => ⟨fun off hcan hok => ?jal, fun imm a hcan hok => ?jalr⟩,
    fun off a b => ⟨encodeNat_compare_branches off a b, full_branch_words off a b⟩, encodeNat_jal, encodeNat_jalr,
    fun s d hroom => ⟨fun off hcan => ?jalRefused, fun imm a hcan => ?jalrRefused⟩⟩
  case branches =>
    obtain ⟨heq, hne, hlt, hge, hltu, hgeu⟩ := branches_compare off a b
    obtain ⟨hfull, hempty⟩ := branches_full off a
    refine ⟨heq, hne, hlt, hge, hltu, hgeu, hfull.congr fun s _ => ?_, hempty.congr fun s _ => ?_⟩ <;>
    · cases h : s.thr.mapped a with
      | none => simp only [State.testsFull_of_unmapped h]
      | some i => simp only [State.testsFull_of_mapped h]
  case jal => rw [exec_jal_checked s d off hcan hroom, State.checked_ok _ _ _ _ fun _ => hok]
  case jalr => rw [exec_jalr_checked s d a imm hcan hroom, State.checked_ok _ _ _ _ fun _ => hok]
  case jalRefused =>
    rw [exec_jal_checked s d off hcan hroom]
    exact ⟨fun hbad => by rw [State.checked_bad _ hbad], fun hmiss => by rw [State.checked_miss _ hmiss]⟩
  case jalrRefused =>
    rw [exec_jalr_checked s d a imm hcan hroom]
    exact ⟨fun hbad => by rw [State.checked_bad _ hbad], fun hmiss => by rw [State.checked_miss _ hmiss]⟩

end Sys2Proof.Machine
end

section
/-! LOOP, LOOPI, LBRK, LNEXT, LIDX and YIELD (R93 to R97). -/

namespace Sys2Proof.Machine

/-! ### LOOP and LOOPI -/

/-- The last instruction of a body of `len` instructions behind the pc (R93). -/
def Thread.bodyEnd (t : Thread) (len : BitVec 12) : BitVec 53 := t.pc + BitVec.ofNat 53 (4 * len.toNat)

/-- The level that a loop of `n` iterations of a body of `len` instructions opens (R93). -/
def Thread.newLevel (t : Thread) (n : Nat) (len : BitVec 12) : LoopLevel :=
  { count := BitVec.ofNat 32 n, index := 0, start := t.pc + 4, stop := t.bodyEnd len }

section
variable (s : State) {n : Nat} (len : BitVec 12)

theorem openLoop_count_too_large (h : 2 ^ 32 ≤ n) : openLoop s n len = .trap .loopFault 2 := if_pos h

theorem openLoop_too_deep (h0 : 0 < n) (h : n < 2 ^ 32) (hdeep : s.thr.loops.length = 6) : openLoop s n len = .trap .loopFault 1 := by
  rw [openLoop, if_neg (Nat.not_le.2 h), if_neg h0.ne', if_pos hdeep]

theorem openLoop_opens (h0 : 0 < n) (h : n < 2 ^ 32) (hdeep : s.thr.loops.length ≠ 6) :
    openLoop s n len = .jump s [] (s.thr.pc + 4) (s.thr.newLevel n len :: s.thr.loops) s.stepChecked false := by
  rw [openLoop, if_neg (Nat.not_le.2 h), if_neg h0.ne', if_neg hdeep]
  rfl

theorem openLoop_skips (h : ∀ l rest, s.thr.loops = l :: rest → l.stop ≠ s.thr.bodyEnd len) :
    openLoop s 0 len = .jump s [] (s.thr.bodyEnd len + 4) s.thr.loops true false := by
  rw [openLoop, if_neg (by decide), if_pos rfl]
  cases hl : s.thr.loops with
  | nil => rfl
  | cons l rest => exact if_neg (h l rest hl)

/-- A body that is skipped, and ends where its enclosing level ends: its step follows (R85, R93). -/
theorem openLoop_skips_to_step {l : LoopLevel} {rest : List LoopLevel} (hl : s.thr.loops = l :: rest) (hstop : l.stop = s.thr.bodyEnd len) :
    let q := ({ s.thr with pc := s.thr.bodyEnd len } : Thread).seqNext
    openLoop s 0 len = .jump s [] q.1 q.2.1 (!q.2.2) q.2.2 := by
  rw [openLoop, if_neg (by decide), if_pos rfl, Thread.seqNext_at_stop (t := { s.thr with pc := s.thr.bodyEnd len }) hl hstop]
  simp only [hl]
  exact if_pos hstop

end

/-- `i` is LOOP of a register, or LOOPI of a constant, that reads `srcs` and whose count is `n` (R93). -/
def State.OpensLoop (s : State) (len : BitVec 12) (i : Instr) (srcs : List Reg) (n : Nat) : Prop :=
  (∃ a, i = .loop len a ∧ srcs = [a] ∧ n = (s.operand [a] 0).toNat) ∨ (∃ c : BitVec 10, i = .loopi len c ∧ srcs = [] ∧ n = c.toNat)

section
variable {s : State} {len : BitVec 12} {i : Instr} {srcs : List Reg} {n : Nat} (hi : s.OpensLoop len i srcs n)
include hi

/-- LOOP and LOOPI are instructions whose execution is `openLoop`. -/
theorem State.OpensLoop.exec_eq : ∃ w body, exec i s = issue { word := w, srcs := srcs } body s ∧
    body (s.opened srcs) (s.operands srcs) = openLoop (s.opened srcs) n len := by
  rcases hi with ⟨a, rfl, rfl, rfl⟩ | ⟨c, rfl, rfl, rfl⟩
  · exact ⟨_, _, exec_loop len a s, rfl⟩
  · exact ⟨_, _, exec_loopi len c s, rfl⟩

variable (hcan : s.canIssue srcs [] false)
include hcan

theorem State.OpensLoop.traps {c : Cause} {v : Word} (h : openLoop (s.opened srcs) n len = .trap c v) :
    exec i s = .next (s.trapTurn c v) := by
  obtain ⟨w, body, hexec, hbody⟩ := hi.exec_eq
  exact hexec.trans (issue_trap rfl rfl rfl hcan (hbody.trans h))

theorem State.OpensLoop.goes {target : BitVec 53} {loops : List LoopLevel} {need back : Bool} (hroom : s.hasRoom 0)
    (h : openLoop (s.opened srcs) n len = .jump (s.opened srcs) [] target loops need back)
    (hok : need = true → s.targetOk s.cur target = true) : exec i s = .next ((s.opened srcs).goesTo target loops back) := by
  obtain ⟨w, body, hexec, hbody⟩ := hi.exec_eq
  exact hexec.trans (issue_goes rfl rfl rfl hcan rfl hroom (hbody.trans h) hok)

end

theorem State.stepChecked_opened (s : State) (srcs : List Reg) : (s.opened srcs).stepChecked = s.stepChecked := by
  simp [State.stepChecked]

/-! ### LBRK, LNEXT, LIDX and YIELD -/

@[simp] theorem State.opened_nil (s : State) : s.opened [] = s := rfl

section
variable {s : State} (hcan : s.canIssue [] [] false)
include hcan

/-- Without a level there is none to leave or to go on with (R94, R95). -/
theorem exec_lbrk_lnext_without_level (hl : s.thr.loops = []) :
    exec .lbrk s = .next (s.trapTurn .loopFault 3) ∧ exec .lnext s = .next (s.trapTurn .loopFault 3) := by
  refine ⟨(exec_lbrk s).trans (issue_trap rfl rfl rfl hcan ?_), (exec_lnext s).trans (issue_trap rfl rfl rfl hcan ?_)⟩ <;>
    simp only [State.opened_nil, hl]

theorem exec_lbrk_bad_target {l : LoopLevel} {rest : List LoopLevel} (hl : s.thr.loops = l :: rest)
    (hbad : s.targetLook s.cur (l.stop + 4) = .bad) :
    exec .lbrk s = .next (s.trapTurn .branchTarget (wordOf (l.stop + 4).toNat)) := by
  refine (exec_lbrk s).trans (issue_trap rfl rfl rfl hcan ?_)
  simp only [State.opened_nil, hl, hbad]

variable (hroom : s.hasRoom 0)
include hroom

/-- LBRK leaves a level that no enclosing level ends with (R94). -/
theorem exec_lbrk_leaves {l : LoopLevel} {rest : List LoopLevel} (hl : s.thr.loops = l :: rest)
    (hok : s.targetOk s.cur (l.stop + 4) = true) (haway : ∀ m r, rest = m :: r → m.stop ≠ l.stop) :
    exec .lbrk s = .next (s.goesTo (l.stop + 4) rest false) := by
  refine (exec_lbrk s).trans (issue_goes (need := false) rfl rfl rfl hcan rfl hroom ?_ nofun)
  simp only [State.opened_nil, hl, State.targetLook_of_targetOk hok]
  cases rest with
  | nil => rfl
  | cons m r => exact if_neg (haway m r rfl)

/-- LBRK of a level that its enclosing level ends with takes that level's step (R94). -/
theorem exec_lbrk_steps {l m : LoopLevel} {r : List LoopLevel} (hl : s.thr.loops = l :: m :: r)
    (hok : s.targetOk s.cur (l.stop + 4) = true) (hstop : m.stop = l.stop) :
    let q := ({ s.thr with pc := l.stop, loops := m :: r } : Thread).seqNext
    (q.2.2 = false → s.targetOk s.cur q.1 = true) → exec .lbrk s = .next (s.goesTo q.1 q.2.1 q.2.2) := by
  rw [Thread.seqNext_at_stop (t := { s.thr with pc := l.stop, loops := m :: r }) rfl hstop]
  intro q hq
  refine (exec_lbrk s).trans (issue_goes (need := !q.2.2) rfl rfl rfl hcan rfl hroom ?_ fun hback => hq (Bool.eq_false_of_not_eq_true' hback))
  simp only [State.opened_nil, hl, State.targetLook_of_targetOk hok]
  exact if_pos hstop

/-- LNEXT takes the step of R85 from the end of its level (R95). -/
theorem exec_lnext_steps {l : LoopLevel} {rest : List LoopLevel} (hl : s.thr.loops = l :: rest) :
    let q := ({ s.thr with pc := l.stop } : Thread).seqNext
    (q.2.2 = false → s.targetOk s.cur q.1 = true) → exec .lnext s = .next (s.goesTo q.1 q.2.1 q.2.2) := by
  rw [Thread.seqNext_at_stop (t := { s.thr with pc := l.stop }) hl rfl]
  intro q hq
  refine (exec_lnext s).trans (issue_goes (need := !q.2.2) rfl rfl rfl hcan rfl hroom ?_ fun hback => hq (Bool.eq_false_of_not_eq_true' hback))
  simp only [State.opened_nil, hl]
  rfl

end

section
variable {s : State} {level : BitVec 3} {d : Reg} (hcan : s.canIssue [] [d] false)
include hcan

theorem exec_lidx_index (hseq : s.nextOk) (hroom : s.hasRoom 1) {l : LoopLevel} (hl : s.thr.loops[level.toNat]? = some l) :
    exec (.lidx level d) s = .next (s.writes [] d (l.index.setWidth 64)) := by
  refine (exec_lidx level d s).trans (issue_done (vs := [l.index.setWidth 64]) rfl rfl rfl hcan hseq hroom ?_)
  simp only [State.opened_nil, hl]

theorem exec_lidx_beyond (h : s.thr.loops.length ≤ level.toNat) : exec (.lidx level d) s = .next (s.trapTurn .loopFault 4) := by
  refine (exec_lidx level d s).trans (issue_trap rfl rfl rfl hcan ?_)
  simp only [State.opened_nil, List.getElem?_eq_none h]

end

theorem Thread.log_setCsr_le (t : Thread) (n : Nat) (v : Word) : (t.setCsr n v).log.length ≤ t.log.length + 1 := by
  show (t.note _).log.length ≤ _
  unfold Thread.note
  split <;> simp

/-- YIELD writes THR_LIVETILE and completes at a landing point (R97). -/
theorem exec_yield_completes {s : State} (mask : BitVec 8) (hcan : s.canIssue [] [] false) (hseq : s.nextOk) (hroom : s.hasRoom 1) :
    exec (.yield mask) s = .next ((s.setThr (s.thr.setCsr 0x011 (mask.setWidth 64))).complete s.cur true) :=
  (exec_yield mask s).trans (issue_yielded rfl rfl rfl hcan hseq ((s.thr.log_setCsr_le _ _).trans hroom) rfl)

theorem Thread.livetile_setCsr (t : Thread) (v : Word) : (t.setCsr 0x011 v).csr.livetile = v := rfl

/-! ### The loop instructions -/

/-- Settles O14: LOOP and LOOPI by what their count and the levels say, then each of the others; last the words. -/
theorem loopInstructionResults : Obligations.LoopInstructionResults := by
  unfold Obligations.LoopInstructionResults
  refine ⟨fun s len i srcs n hi hcan hroom => ?loops, fun s hcan hroom => ⟨exec_lbrk_lnext_without_level hcan,
    fun l rest hl hok haway => exec_lbrk_leaves hcan hroom hl hok haway,
    fun l m r hl hok hstop => exec_lbrk_steps hcan hroom hl hok hstop,
    fun l rest hl hbad => exec_lbrk_bad_target hcan hl hbad,
    fun l rest hl => exec_lnext_steps hcan hroom hl,
    fun level d hcan' hseq hroom' => ⟨fun l hl => exec_lidx_index hcan' hseq hroom' hl, exec_lidx_beyond hcan'⟩,
    fun mask hseq hroom' => ?yields⟩, rfl, rfl⟩
  case loops =>
    have hi : s.OpensLoop len i srcs n := hi
    have hthr := s.thr_opened srcs
    refine ⟨fun h => ?tooMany, fun h0 h hdeep => ?tooDeep, fun h0 h hdeep hok => ?opens, fun h0 haway hok => ?skips,
      fun h0 l rest hl hstop hok => ?steps⟩
    case tooMany => exact hi.traps hcan (openLoop_count_too_large _ _ h)
    case tooDeep => exact hi.traps hcan (openLoop_too_deep _ _ h0 h (by rwa [hthr]))
    case opens =>
      have h := openLoop_opens (s.opened srcs) len h0 h (by rwa [hthr])
      rw [hthr, State.stepChecked_opened] at h
      exact hi.goes hcan hroom h hok
    case skips =>
      have h := openLoop_skips (s.opened srcs) len (by rwa [hthr])
      rw [hthr] at h
      exact hi.goes hcan hroom (h0 ▸ h) fun _ => hok
    case steps =>
      have h := openLoop_skips_to_step (s.opened srcs) len (l := l) (rest := rest) (by rwa [hthr]) (by rwa [hthr])
      rw [hthr] at h
      exact hi.goes hcan hroom (h0 ▸ h) fun hback => hok (Bool.eq_false_of_not_eq_true' hback)
  case yields =>
    refine ⟨_, exec_yield_completes mask hcan hseq hroom', ?_⟩
    have hthr := (s.setThr (s.thr.setCsr 0x011 (mask.setWidth 64))).thr_complete true
    rw [State.cur_setThr, State.thr_setThr, Thread.seqNext_setCsr] at hthr
    simp only [hthr, Thread.csr_goTo, Thread.livetile_setCsr, Thread.landing_goTo, Bool.or_true, Thread.pc_goTo, Thread.getG_goTo,
      Thread.getG_setCsr, State.mem_complete, State.mem_setThr, implies_true, and_self]

end Sys2Proof.Machine
end

section
/-! The pointer instructions (R106 to R108): moves of the address field, the upper fields, and the codes of PCHK. -/

namespace Sys2Proof.Machine

/-! ### Fields of a word as arithmetic (R3) -/

/-- A number is its part above a field, the field, and its part below it (R3). -/
theorem eq_above_add_fld_add_below (x : Nat) {hi lo : Nat} (h : lo ≤ hi) :
    x = x / 2 ^ (hi + 1) * 2 ^ (hi + 1) + fld x hi lo * 2 ^ lo + x % 2 ^ lo := by
  have hsplit : 2 ^ (hi + 1) = 2 ^ lo * 2 ^ (hi + 1 - lo) := by rw [← pow_add]; congr 1; omega
  have hlow := Nat.div_add_mod x (2 ^ lo)
  have hhigh := Nat.div_add_mod (x / 2 ^ lo) (2 ^ (hi + 1 - lo))
  rw [fld, hsplit, ← Nat.div_div_eq_div_mul]
  calc x = 2 ^ lo * (x / 2 ^ lo) + x % 2 ^ lo := hlow.symm
    _ = 2 ^ lo * (2 ^ (hi + 1 - lo) * (x / 2 ^ lo / 2 ^ (hi + 1 - lo)) + x / 2 ^ lo % 2 ^ (hi + 1 - lo)) + x % 2 ^ lo := by rw [hhigh]
    _ = _ := by ring

/-- A replaced field leaves the bits above and below it (R3). -/
theorem toNat_setBits (w : Word) {hi lo : Nat} (v : Nat) (h : lo ≤ hi) (hhi : hi < 64) :
    (setBits w hi lo v).toNat =
      w.toNat / 2 ^ (hi + 1) * 2 ^ (hi + 1) + v % 2 ^ (hi + 1 - lo) * 2 ^ lo + w.toNat % 2 ^ lo := by
  have hw := eq_above_add_fld_add_below w.toNat h
  have hsplit : 2 ^ (hi + 1) = 2 ^ (hi + 1 - lo) * 2 ^ lo := by rw [← pow_add]; congr 1; omega
  have htop : 2 ^ 64 = 2 ^ (64 - (hi + 1)) * 2 ^ (hi + 1) := by rw [← pow_add]; congr 1; omega
  have habove : w.toNat / 2 ^ (hi + 1) + 1 ≤ 2 ^ (64 - (hi + 1)) :=
    Nat.div_lt_of_lt_mul (by rw [mul_comm, ← htop]; exact w.isLt)
  have hfield : v % 2 ^ (hi + 1 - lo) + 1 ≤ 2 ^ (hi + 1 - lo) := Nat.mod_lt _ (by positivity)
  have hbelow : w.toNat % 2 ^ lo < 2 ^ lo := Nat.mod_lt _ (by positivity)
  have habove' := Nat.mul_le_mul_right (2 ^ (hi + 1)) habove
  have hfield' := Nat.mul_le_mul_right (2 ^ lo) hfield
  rw [← htop, Nat.succ_mul] at habove'
  rw [← hsplit, Nat.succ_mul] at hfield'
  rw [setBits, wordOf, BitVec.toNat_ofNat, Nat.mod_eq_of_lt] <;> omega

/-- Bits set side by side count as the upper ones shifted past the lower ones. -/
theorem toNat_append_add {m n : Nat} (x : BitVec m) (y : BitVec n) : (x ++ y).toNat = x.toNat * 2 ^ n + y.toNat := by
  rw [BitVec.toNat_append, ← Nat.shiftLeft_add_eq_or_of_lt y.isLt, Nat.shiftLeft_eq]

theorem toNat_extractLsb_div (x : Word) (lo n : Nat) : (x.extractLsb' lo n).toNat = x.toNat / 2 ^ lo % 2 ^ n := by
  rw [BitVec.extractLsb'_toNat, Nat.shiftRight_eq_div_pow]

/-! ### The fields of a pointer (R99, R100) -/

theorem ptrPath_eq (p : Word) : ptrPath p = p.toNat / 2 ^ 61 := by
  have := p.isLt
  simp only [ptrPath, bits, fld]
  omega

theorem ptrFmt_eq (p : Word) : ptrFmt p = p.toNat / 2 ^ 56 % 32 := rfl

theorem ptrL_eq (p : Word) : ptrL p = p.toNat / 2 ^ 53 % 8 := rfl

theorem bits_52_0 (w : Word) : bits w 52 0 = w.toNat % 2 ^ 53 := by rw [bits, fld, pow_zero, Nat.div_one]

theorem ptrAddr_eq (p : Word) : ptrAddr p = p.toNat % 2 ^ 53 := bits_52_0 p

/-- A pointer with another address keeps what stands above the address field (R106). -/
theorem ptrWith_eq (p : Word) {addr : Nat} (h : addr < 2 ^ 53) : ptrWith p addr = BitVec.ofNat 64 (p.toNat / 2 ^ 53 * 2 ^ 53 + addr) := by
  have hp := p.isLt
  apply BitVec.eq_of_toNat_eq
  rw [ptrWith, toNat_setBits p addr (by decide) (by decide), BitVec.toNat_ofNat]
  omega

/-- The bits of a path's address that R100 marks zero. -/
theorem ptrDirty_iff (p : Word) :
    ptrDirty p = true ↔ (ptrPath p = 2 ∧ 2 ^ 19 ≤ ptrAddr p) ∨ (ptrPath p = 3 ∧ ptrAddr p / 2 ^ 19 % 2 ^ 14 ≠ 0) ∨
      (ptrPath p = 4 ∧ 2 ^ 33 ≤ ptrAddr p) := by
  rw [ptrAddr_eq]
  unfold ptrDirty
  split
  case h_4 h2 h3 h4 =>
    have : ptrPath p ≠ 2 ∧ ptrPath p ≠ 3 ∧ ptrPath p ≠ 4 := ⟨h2, h3, h4⟩
    simp only [Bool.false_eq_true, false_iff]
    omega
  all_goals
    simp only [bits, fld, bne_iff_ne]
    omega

/-- The bytes that an offset of the path of `p` counts in (R100). -/
def ptrExtent (p : Word) : Nat :=
  match ptrPath p with
  | 2 => 2 ^ 19
  | 3 => 2 ^ 19
  | 4 => 2 ^ 27
  | _ => 2 ^ 53

theorem ptrExtent_other {p : Word} (h2 : ptrPath p ≠ 2) (h3 : ptrPath p ≠ 3) (h4 : ptrPath p ≠ 4) : ptrExtent p = 2 ^ 53 := by
  unfold ptrExtent
  split
  case h_4 => rfl
  all_goals contradiction

/-- The offset of a pointer is its address within the extent of its path (R100). -/
theorem ptrOff_eq_mod (p : Word) : ptrOff p = ptrAddr p % ptrExtent p := by
  rw [ptrAddr_eq]
  unfold ptrOff
  split
  case h_4 h2 h3 h4 => rw [ptrAddr_eq, ptrExtent_other h2 h3 h4, Nat.mod_mod]
  all_goals
    next h =>
    rw [ptrExtent, h]
    simp only [bits, fld]
    omega

/-- An access of `n` bytes that leaves the extent of its path (R100). -/
theorem ptrExtent_lt_iff (p : Word) (n : Nat) :
    ptrExtent p < ptrOff p + n ↔ (ptrPath p = 2 ∧ 2 ^ 19 < ptrAddr p % 2 ^ 19 + n) ∨ (ptrPath p = 3 ∧ 2 ^ 19 < ptrAddr p % 2 ^ 19 + n) ∨
      (ptrPath p = 4 ∧ 2 ^ 27 < ptrAddr p % 2 ^ 27 + n) ∨
      (ptrPath p ≠ 2 ∧ ptrPath p ≠ 3 ∧ ptrPath p ≠ 4 ∧ 2 ^ 53 < ptrAddr p + n) := by
  rw [ptrOff_eq_mod, ptrAddr_eq]
  unfold ptrExtent
  split
  case h_4 h2 h3 h4 =>
    have : ptrPath p ≠ 2 ∧ ptrPath p ≠ 3 ∧ ptrPath p ≠ 4 := ⟨h2, h3, h4⟩
    omega
  all_goals omega

/-! ### PADD, PADDI and PSUB (R106) -/

section
variable (s : State) {p : Word} {off : Int}

/-- A move that stays in the address field. -/
theorem movePtr_moves (h0 : 0 ≤ ((p.toNat % 2 ^ 53 : Nat) : Int) + off) (h : ((p.toNat % 2 ^ 53 : Nat) : Int) + off < 2 ^ 53) :
    movePtr s p off =
      .done s [BitVec.ofNat 64 (p.toNat / 2 ^ 53 * 2 ^ 53 + (((p.toNat % 2 ^ 53 : Nat) : Int) + off).toNat)] := by
  rw [← ptrAddr_eq] at h0 h ⊢
  rw [← ptrWith_eq p (by omega)]
  exact if_neg (by omega)

/-- A move that leaves the address field. -/
theorem movePtr_faults (h : ((p.toNat % 2 ^ 53 : Nat) : Int) + off < 0 ∨ 2 ^ 53 ≤ ((p.toNat % 2 ^ 53 : Nat) : Int) + off) :
    movePtr s p off = .trap .pointerFault p := by
  rw [← ptrAddr_eq] at h
  exact if_pos h

end

/-- `i` is PADD, PADDI or PSUB of the pointer in `a`, reads `srcs`, and moves by `off` (R106). -/
def State.MovesPointer (s : State) (a b d : Reg) (i : Instr) (srcs : List Reg) (off : Int) : Prop :=
  (i = .padd b a d ∧ srcs = [a, b] ∧ off = (s.operand [a, b] 1).toInt) ∨
    (∃ imm : BitVec 12, i = .paddi imm a d ∧ srcs = [a] ∧ off = imm.toInt) ∨
    (i = .psub b a d ∧ srcs = [a, b] ∧ off = -(s.operand [a, b] 1).toInt)

section
variable {s : State} {a b d : Reg} {i : Instr} {srcs : List Reg} {off : Int} (hi : s.MovesPointer a b d i srcs off)
include hi

/-- PADD, PADDI and PSUB are instructions whose execution is `movePtr`. -/
theorem State.MovesPointer.exec_eq : ∃ w body, exec i s = issue { word := w, srcs := srcs, dsts := [d] } body s ∧
    body (s.opened srcs) (s.operands srcs) = movePtr (s.opened srcs) (s.operand srcs 0) off := by
  rcases hi with ⟨rfl, rfl, rfl⟩ | ⟨imm, rfl, rfl, rfl⟩ | ⟨rfl, rfl, rfl⟩
  · exact ⟨_, _, exec_padd b a d s, rfl⟩
  · exact ⟨_, _, exec_paddi imm a d s, rfl⟩
  · exact ⟨_, _, exec_psub b a d s, rfl⟩

variable (hcan : s.canIssue srcs [d] false)
include hcan

theorem State.MovesPointer.completes (hseq : s.nextOk) (hroom : s.hasRoom 1) {v : Word}
    (h : movePtr (s.opened srcs) (s.operand srcs 0) off = .done (s.opened srcs) [v]) : exec i s = .next (s.writes srcs d v) := by
  obtain ⟨w, body, hexec, hbody⟩ := hi.exec_eq
  exact hexec.trans (issue_done (f := { word := w, srcs := srcs, dsts := [d] }) rfl rfl rfl hcan hseq hroom (hbody.trans h))

theorem State.MovesPointer.traps {c : Cause} {v : Word} (h : movePtr (s.opened srcs) (s.operand srcs 0) off = .trap c v) :
    exec i s = .next (s.trapTurn c v) := by
  obtain ⟨w, body, hexec, hbody⟩ := hi.exec_eq
  exact hexec.trans (issue_trap rfl rfl rfl hcan (hbody.trans h))

end

/-! ### PSETF, PSETP and PGETF (R107) -/

theorem setBits_fmt_l (p : Word) (l : BitVec 3) (f : BitVec 5) :
    setBits (setBits p 60 56 f.toNat) 55 53 l.toNat = p.extractLsb' 61 3 ++ f ++ l ++ p.extractLsb' 0 53 := by
  apply BitVec.eq_of_toNat_eq
  rw [toNat_setBits _ _ (by decide) (by decide), toNat_setBits _ _ (by decide) (by decide)]
  simp only [toNat_append_add, toNat_extractLsb_div]
  omega

theorem setBits_path (p : Word) (path : BitVec 3) : setBits p 63 61 path.toNat = path ++ p.extractLsb' 0 61 := by
  apply BitVec.eq_of_toNat_eq
  rw [toNat_setBits _ _ (by decide) (by decide)]
  simp only [toNat_append_add, toNat_extractLsb_div]
  omega

theorem upper_fields_eq_append (p : Word) :
    wordOf (ptrFmt p + ptrL p * 32 + ptrPath p * 256) =
      (p.extractLsb' 61 3 ++ p.extractLsb' 53 3 ++ p.extractLsb' 56 5 : BitVec 11).setWidth 64 := by
  have hp := p.isLt
  rw [wordOf, ← BitVec.ofNat_toNat, ptrFmt_eq, ptrL_eq, ptrPath_eq]
  congr 1
  simp only [toNat_append_add, toNat_extractLsb_div]
  omega

/-! ### PCHK (R108) -/

theorem State.privilege_opened (s : State) (l : List Reg) (a : Actor) : (s.opened l).privilege a = s.privilege a := by
  rw [State.opened, State.readSrcs_frame]; rfl

theorem pchk_gives (a b d : Reg) :
    Gives (.pchk b a d) [a, b] d (fun s xs => wordOf (pchkCode (s.privilege s.cur == 0) (xs.getD 0 0) (xs.getD 1 0))) :=
  fun s h hn hr => issue_gives _ [a, b] d (fun s xs => wordOf (pchkCode (s.privilege s.cur == 0) (xs.getD 0 0) (xs.getD 1 0))) _
    (fun s xs => by rw [State.cur_opened, State.privilege_opened]; rfl) s h hn hr

/-- The table of R108 in order, by the model's readings of the fields. -/
theorem pchkCode_eq (user : Bool) (p b : Word) :
    pchkCode user p b =
      if ptrPath p = 5 ∨ ptrPath p = 6 then 1
      else if fmtReserved p then 2
      else if fmtBadL p then 3
      else if ptrDirty p then 4
      else if ptrExtent p < ptrOff p + bits b 52 0 then 5
      else if ptrPath p = 7 ∧ user = true then 6
      else if b.getLsbD 63 = true ∧ ptrPath p = 1 then 7
      else if b.getLsbD 62 = true ∧ ptrFmt p = 17 then 8
      else 0 := rfl

theorem fmtReserved_iff (p : Word) : fmtReserved p = true ↔ 19 ≤ ptrFmt p := decide_eq_true_iff

theorem fmtBadL_iff (p : Word) :
    fmtBadL p = true ↔ (ptrFmt p = 14 ∧ ptrL p ≠ 0) ∨ ((ptrFmt p = 15 ∨ ptrFmt p = 16) ∧ 6 ≤ ptrL p) := by
  simp [fmtBadL]

/-! ### Words -/

/-- The K-form words of PTR: f7 = 0 and the bits of major 11 (R106 to R108). -/
theorem formK_ptr (b a : Reg) (f3 : Nat) (d : Reg) :
    formK 0 b a f3 d 0x2F = f3 * 4096 + 47 + b.toNat * 1048576 + a.toNat * 32768 + d.toNat * 128 := by
  unfold formK; omega

/-! ### The pointer instructions -/

/-- Settles O15: the moves by where they end; the upper fields as bits side by side; PCHK's table line by line; then the words. -/
theorem pointerInstructionResults : Obligations.PointerInstructionResults := by
  unfold Obligations.PointerInstructionResults
  refine ⟨fun a b d => ⟨fun s i srcs off hi hcan hseq hroom => ?moves, fun l f => ?psetf, fun path => ?psetp, ?pgetf, pchk_gives a b d⟩,
    fun user p b => ?codes, fun a b d => ?words⟩
  case moves =>
    have hi : s.MovesPointer a b d i srcs off := hi
    exact ⟨fun h0 h => hi.completes hcan hseq hroom (movePtr_moves _ h0 h), fun h => hi.traps hcan (movePtr_faults _ h)⟩
  case psetf => exact gives1_of_unaryOp (exec_psetf l f a d) fun p => setBits_fmt_l p l f
  case psetp => exact gives1_of_unaryOp (exec_psetp path a d) fun p => setBits_path p path
  case pgetf => exact gives1_of_unaryOp (exec_pgetf a d) upper_fields_eq_append
  case codes =>
    simp only [← ptrPath_eq, ← ptrFmt_eq, ← ptrL_eq, ← ptrAddr_eq p, ← bits_52_0 b]
    exact if_congr .rfl rfl (if_congr (fmtReserved_iff p) rfl (if_congr (fmtBadL_iff p) rfl (if_congr (ptrDirty_iff p) rfl
      (if_congr (ptrExtent_lt_iff p _) rfl rfl))))
  case words =>
    simp only [formK_ptr, formI_eq]
    exact ⟨rfl, rfl, rfl, rfl, fun _ => rfl, fun l f => congrArg some (by omega), fun _ => rfl⟩

end Sys2Proof.Machine
end

section
/-! FNEG, FABS, FSGN, the compares and FCLS (R133, R134), and the completion of an FPU instruction whose result is not a divider's
(R127, R129). -/

namespace Sys2Proof.Machine

/-! ### Completion with flags -/

/-- Raising flags makes at most one entry of the shadow log (R127, R181). -/
theorem Thread.log_raise_le (t : Thread) (flags : Nat) : (t.raise flags).log.length ≤ t.log.length + 1 := by
  unfold Thread.raise
  split
  · exact Nat.le_succ _
  · show (t.note _).log.length ≤ _
    unfold Thread.note
    split <;> simp

theorem State.logRoom_putDst_raised (s : State) (srcs : List Reg) (d : Reg) (v : Word) (flags lat : Nat) (h : s.hasRoom 2) :
    (((s.opened srcs).setThr (s.thr.raise flags)).putDst d v lat).logRoom = true := by
  have hput := ((s.opened srcs).setThr (s.thr.raise flags)).log_putDst_le d v lat
  have hraise := s.thr.log_raise_le flags
  rw [State.thr_setThr] at hput
  unfold State.hasRoom at h
  exact decide_eq_true (by omega)

/-- An FPU instruction that issues completes with its result, landing ten F-cycles later, and its flags (R127, R129). -/
theorem issue_fpuDone {w : Nat} {srcs : List Reg} {d : Reg} {body : State → List Word → Res} {s : State} {q : Nat × Nat}
    (hcan : s.canIssue srcs [d] false) (hseq : s.nextOk) (hroom : s.hasRoom 2)
    (hb : body (s.opened srcs) (s.operands srcs) = fpuDone (s.opened srcs) q) :
    issue { word := w, srcs := srcs, dsts := [d], lat := 10 } body s =
      .next ((((s.opened srcs).setThr (s.thr.raise q.2)).putDst d (wordOf q.1) 10).complete s.cur) := by
  rw [issue_body (f := { word := w, srcs := srcs, dsts := [d], lat := 10 }) rfl rfl rfl hcan, hb, fpuDone, State.thr_opened]
  exact congrArg _ (settle_done _ s _ _ _ hseq hcan.1 (s.logRoom_putDst_raised _ _ _ _ _ hroom))

section
variable {i : Instr} {f7 : Nat} {a b d : Reg} {fmt : BitVec 2} {r : Thread → List Word → Word × Nat}

/-- An instruction whose meaning is an FPU operation of one source gives that operation's result and flags. -/
theorem givesFlags_of_fpu1 {f : Rnd → Nat → Nat × Nat} (hi : ∀ s, exec i s = fpu1 f7 a fmt d f s)
    (hr : ∀ (t : Thread) xs, r t xs = Prod.map wordOf id (f (t.rounding 0) (lowBits (fpuFmt fmt) (xs.getD 0 0)))) :
    GivesFlags i [a] d r := fun s hcan hseq hroom => by
  rw [hi, hr]
  exact issue_fpuDone hcan hseq hroom (by rw [← State.thr_opened s [a]]; rfl)

/-- An instruction whose meaning is an FPU operation of two sources gives that operation's result and flags. -/
theorem givesFlags_of_fpu2 {f : Rnd → Nat → Nat → Nat × Nat} (hi : ∀ s, exec i s = fpu2 f7 b a fmt d f s)
    (hr : ∀ (t : Thread) xs, r t xs =
      Prod.map wordOf id (f (t.rounding 0) (lowBits (fpuFmt fmt) (xs.getD 0 0)) (lowBits (fpuFmt fmt) (xs.getD 1 0)))) :
    GivesFlags i [a, b] d r := fun s hcan hseq hroom => by
  rw [hi, hr]
  exact issue_fpuDone hcan hseq hroom (by rw [← State.thr_opened s [a, b]]; rfl)

end

/-! ### The sign bit (R133) -/

theorem fpuFmt_top (c : BitVec 2) : (fpuFmt c).top = 0 := by
  unfold fpuFmt
  split <;> rfl

theorem FFmt.width_sub_one (f : FFmt) : f.width - 1 = f.ew + f.fw := by
  unfold FFmt.width; omega

theorem FFmt.two_pow_width (f : FFmt) : 2 ^ f.width = 2 * 2 ^ (f.width - 1) := by
  rw [← pow_succ', Nat.sub_add_cancel (by unfold FFmt.width; omega)]

theorem lowBits_lt (f : FFmt) (x : Word) : lowBits f x < 2 * 2 ^ (f.width - 1) :=
  f.two_pow_width ▸ Nat.mod_lt _ (by positivity)

/-- Of bits within the format's width, the sign bit is what stands above the magnitude. -/
theorem FFmt.boolNat_signBit (f : FFmt) {x : Nat} (h : x < 2 * 2 ^ (f.width - 1)) : boolNat (f.signBit x) = x / 2 ^ (f.width - 1) := by
  have hlt : x / 2 ^ (f.width - 1) < 2 := Nat.div_lt_of_lt_mul (by rwa [mul_comm])
  rw [FFmt.signBit, ← f.width_sub_one, Nat.mod_eq_of_lt hlt]
  interval_cases x / 2 ^ (f.width - 1) <;> rfl

/-- A format with a sign bit puts it above the magnitude. -/
theorem FFmt.withSign_eq (f : FFmt) (htop : f.top ≠ 2) (x : Nat) (n : Bool) :
    f.withSign x n = x % 2 ^ (f.width - 1) + boolNat n * 2 ^ (f.width - 1) := by
  rw [f.width_sub_one]
  cases n <;> simp [FFmt.withSign, FFmt.pack, boolNat, htop, Nat.add_comm]

/-- Inverting the sign bit is adding it, without the carry out of the format. -/
theorem FFmt.withSign_not_signBit (f : FFmt) (htop : f.top ≠ 2) {x : Nat} (h : x < 2 * 2 ^ (f.width - 1)) :
    f.withSign x (!f.signBit x) = (x + 2 ^ (f.width - 1)) % (2 * 2 ^ (f.width - 1)) := by
  have hsign := f.boolNat_signBit h
  have hsplit := Nat.div_add_mod x (2 ^ (f.width - 1))
  have hmag : x % 2 ^ (f.width - 1) < 2 ^ (f.width - 1) := Nat.mod_lt _ (by positivity)
  rw [f.withSign_eq htop]
  generalize 2 ^ (f.width - 1) = top at *
  rw [← hsign] at hsplit
  cases hs : f.signBit x <;> simp only [hs, boolNat, Bool.not_false, Bool.not_true, if_true, if_false, Bool.false_eq_true] at hsplit ⊢
  · rw [Nat.mod_eq_of_lt (by omega : x + top < 2 * top)]; omega
  · rw [Nat.mod_eq_sub_mod (by omega : 2 * top ≤ x + top), Nat.mod_eq_of_lt (by omega : x + top - 2 * top < 2 * top)]; omega

/-! ### Comparisons (R134) -/

/-- Two values have no order where one is a NaN. -/
theorem fCmp_eq_none_iff (a b : FVal) : fCmp a b = none ↔ (a.isNaN || b.isNaN) = true := by
  cases a <;> cases b <;> simp [fCmp, FVal.isNaN]

theorem FVal.isNaN_of_isSNaN {a : FVal} (h : a.isSNaN = true) : a.isNaN = true := by
  cases a
  case nan => rfl
  all_goals cases h

section
variable (f : FFmt) (x y : Nat)

/-- A comparison for equality raises NV for a signalling NaN, and one for order for any NaN. -/
theorem fCompare_flags (which : Nat) :
    (fCompare f which x y).2 =
      if (f.unpack x).isSNaN || (f.unpack y).isSNaN || (which != 0 && ((f.unpack x).isNaN || (f.unpack y).isNaN)) then flagNV else 0 := by
  have hnan := fCmp_eq_none_iff (f.unpack x) (f.unpack y)
  cases hcmp : fCmp (f.unpack x) (f.unpack y) with
  | none =>
    rw [hnan.1 hcmp]
    by_cases h0 : which = 0 <;> simp [fCompare, hcmp, h0, snanFlag]
  | some o =>
    have hquiet : ((f.unpack x).isNaN || (f.unpack y).isNaN) = false := by simpa [hcmp] using hnan
    obtain ⟨hx, hy⟩ := Bool.or_eq_false_iff.1 hquiet
    have hxs := mt FVal.isNaN_of_isSNaN (Bool.eq_false_iff.1 hx)
    have hys := mt FVal.isNaN_of_isSNaN (Bool.eq_false_iff.1 hy)
    simp [fCompare, hcmp, hx, hy, hxs, hys]

theorem fCompare_equal : (fCompare f 0 x y).1 = decide (fCmp (f.unpack x) (f.unpack y) = some .eq) := by
  simp only [fCompare]
  rcases fCmp (f.unpack x) (f.unpack y) with _ | _ | _ | _ <;> rfl

theorem fCompare_less : (fCompare f 1 x y).1 = decide (fCmp (f.unpack x) (f.unpack y) = some .lt) := by
  simp only [fCompare]
  rcases fCmp (f.unpack x) (f.unpack y) with _ | _ | _ | _ <;> rfl

theorem fCompare_lessEqual :
    (fCompare f 2 x y).1 = decide (fCmp (f.unpack x) (f.unpack y) = some .lt ∨ fCmp (f.unpack x) (f.unpack y) = some .eq) := by
  simp only [fCompare]
  rcases fCmp (f.unpack x) (f.unpack y) with _ | _ | _ | _ <;> rfl

end

theorem wordOf_boolNat_decide (p : Prop) [Decidable p] : wordOf (boolNat (decide p)) = if p then 1 else 0 := by
  by_cases h : p <;> simp [h, wordOf, boolNat]

/-- A compare gives 1 where its relation `p` holds of the values and 0 elsewhere, with the flags of a compare (R134). -/
theorem givesFlags_of_fpuCompare {i : Instr} {f7 which : Nat} {a b d : Reg} {fmt : BitVec 2} {p : FVal → FVal → Prop}
    [∀ u v, Decidable (p u v)] (hi : ∀ s, exec i s = fpuCompare f7 which b a fmt d s)
    (hp : ∀ x y, (fCompare (fpuFmt fmt) which x y).1 = decide (p ((fpuFmt fmt).unpack x) ((fpuFmt fmt).unpack y))) :
    GivesFlags i [a, b] d (fun _ xs =>
      let u := (fpuFmt fmt).unpack (lowBits (fpuFmt fmt) (xs.getD 0 0))
      let v := (fpuFmt fmt).unpack (lowBits (fpuFmt fmt) (xs.getD 1 0))
      (if p u v then 1 else 0, if u.isSNaN || v.isSNaN || (which != 0 && (u.isNaN || v.isNaN)) then flagNV else 0)) :=
  givesFlags_of_fpu2 hi fun _ _ => by
    simp only [Prod.map, id, hp, fCompare_flags, wordOf_boolNat_decide]

/-- Settles O16: the three sign operations by their bits, the three compares by their relations, and the class mask. -/
theorem floatSignAndCompareResults : Obligations.FloatSignAndCompareResults := by
  unfold Obligations.FloatSignAndCompareResults
  intro a b d fmt
  have htop : (fpuFmt fmt).top ≠ 2 := by rw [fpuFmt_top]; decide
  refine ⟨?fneg, ?fabs, ?fsgn, ?feq, ?flt, ?fle, ?fcls⟩
  case fneg =>
    exact givesFlags_of_fpu1 (f := fun _ x => ((fpuFmt fmt).withSign x (!(fpuFmt fmt).signBit x), 0)) (exec_fneg a fmt d) fun _ _ => by
      rw [FFmt.withSign_not_signBit _ htop (lowBits_lt _ _)]; rfl
  case fabs =>
    exact givesFlags_of_fpu1 (f := fun _ x => ((fpuFmt fmt).withSign x false, 0)) (exec_fabs a fmt d) fun _ _ => by
      rw [FFmt.withSign_eq _ htop, show boolNat false = 0 from rfl, Nat.zero_mul]; rfl
  case fsgn =>
    exact givesFlags_of_fpu2 (f := fun _ x y => ((fpuFmt fmt).withSign x ((fpuFmt fmt).signBit y), 0)) (exec_fsgn b a fmt d) fun _ _ => by
      rw [FFmt.withSign_eq _ htop, FFmt.boolNat_signBit _ (lowBits_lt _ _)]; rfl
  case feq =>
    exact givesFlags_of_fpuCompare (which := 0) (p := fun u v => fCmp u v = some .eq) (exec_feq b a fmt d) (fCompare_equal _)
  case flt =>
    exact givesFlags_of_fpuCompare (which := 1) (p := fun u v => fCmp u v = some .lt) (exec_flt b a fmt d) (fCompare_less _)
  case fle =>
    exact givesFlags_of_fpuCompare (which := 2) (p := fun u v => fCmp u v = some .lt ∨ fCmp u v = some .eq) (exec_fle b a fmt d)
      (fCompare_lessEqual _)
  case fcls => exact givesFlags_of_fpu1 (exec_fcls a fmt d) fun _ _ => rfl

end Sys2Proof.Machine
end

section
/-! Taking a trap, the instructions that raise one, and the return from one (R387, R388, R390, R394). -/

namespace Sys2Proof.Machine

/-! ### What leaves the threads of a core as they are -/

/-- A core's threads are what its slots say. -/
theorem State.thrOf_setCore_of_slots (s : State) {k : Nat} {c : Core} (h : c.slots = (s.core k).slots) (a : Actor) :
    (s.setCore k c).thrOf a = s.thrOf a := by
  cases a with
  | slot j i =>
    by_cases hj : j = k
    · subst hj; simp [State.thrOf, h]
    · simp [State.thrOf, State.core_setCore_other _ _ hj]
  | episode x => rfl

@[simp] theorem State.thrOf_setPart (s : State) (p : Nat) (x : Partition) (a : Actor) : (s.setPart p x).thrOf a = s.thrOf a := by
  cases a <;> rfl

/-- A notice queued touches the notices of its core alone (R353). -/
theorem State.postNotice_eq (s : State) (k i kind : Nat) :
    s.postNotice k i kind = s ∨ ∃ l, s.postNotice k i kind = s.setCore k { s.core k with notices := l } := by
  simp only [State.postNotice]
  split
  · exact .inl rfl
  · exact .inr ⟨_, rfl⟩

/-- A change to a launch touches its partition alone. -/
theorem State.onLaunch_eq (s : State) (k i : Nat) (f : Launch → Launch) :
    s.onLaunch k i f = s ∨ ∃ p x, s.onLaunch k i f = s.setPart p x := by
  unfold State.onLaunch
  split
  · split
    · exact .inr ⟨_, _, rfl⟩
    · exact .inl rfl
  · exact .inl rfl

section
variable (s : State) (k i : Nat)

@[simp] theorem State.cur_postRecord (p : Nat) (r : FaultRec) : (s.postRecord p r).2.cur = s.cur := rfl
@[simp] theorem State.mem_postRecord (p : Nat) (r : FaultRec) : (s.postRecord p r).2.mem = s.mem := rfl
@[simp] theorem State.thrOf_postRecord (p : Nat) (r : FaultRec) (a : Actor) : (s.postRecord p r).2.thrOf a = s.thrOf a :=
  s.thrOf_setPart _ _ a

@[simp] theorem State.cur_postNotice (kind : Nat) : (s.postNotice k i kind).cur = s.cur := by
  obtain h | ⟨l, h⟩ := s.postNotice_eq k i kind <;> rw [h]; rfl
@[simp] theorem State.mem_postNotice (kind : Nat) : (s.postNotice k i kind).mem = s.mem := by
  obtain h | ⟨l, h⟩ := s.postNotice_eq k i kind <;> rw [h]; rfl
@[simp] theorem State.thrOf_postNotice (kind : Nat) (a : Actor) : (s.postNotice k i kind).thrOf a = s.thrOf a := by
  obtain h | ⟨l, h⟩ := s.postNotice_eq k i kind <;> rw [h]
  exact s.thrOf_setCore_of_slots (by rfl) a

@[simp] theorem State.cur_onLaunch (f : Launch → Launch) : (s.onLaunch k i f).cur = s.cur := by
  obtain h | ⟨p, x, h⟩ := s.onLaunch_eq k i f <;> rw [h]; rfl
@[simp] theorem State.mem_onLaunch (f : Launch → Launch) : (s.onLaunch k i f).mem = s.mem := by
  obtain h | ⟨p, x, h⟩ := s.onLaunch_eq k i f <;> rw [h]; rfl
@[simp] theorem State.thrOf_onLaunch (f : Launch → Launch) (a : Actor) : (s.onLaunch k i f).thrOf a = s.thrOf a := by
  obtain h | ⟨p, x, h⟩ := s.onLaunch_eq k i f <;> rw [h]
  exact s.thrOf_setPart p x a

end

/-! ### Taking a trap (R390, R391, R394) -/

/-- `u` is the thread `t` halted: of the rest only the number of its record is new (R394). -/
def Thread.HaltedAs (t u : Thread) : Prop := ∃ seq, u = { t with run := .trapped, parked := false, recSeq := seq }

/-- A trap of a user slot that goes to the supervisor halts its thread (R394). -/
theorem State.supervisorTrap_halts (s : State) {k i : Nat} (c : Cause) (hi : i ≠ 0) :
    (s.supervisorTrap k i c).cur = s.cur ∧ (s.supervisorTrap k i c).mem = s.mem ∧
      (s.thrOf (.slot k i)).HaltedAs ((s.supervisorTrap k i c).thrOf (.slot k i)) := by
  unfold State.supervisorTrap
  split
  · exact ⟨by simp, by simp, (s.thrOf (.slot k i)).recSeq, by simp⟩
  · rw [if_neg (by simp [hi])]
    exact ⟨by simp, by simp, _, by simp; rfl⟩

/-- What taking a trap leaves in the thread, wherever it goes: its registers say what was raised and where, and the loop stack and
the g registers stay (R390, R394). -/
structure Thread.TookTrap (t u : Thread) (c : Cause) (v : Word) (pc : BitVec 53) : Prop where
  tval : u.csr.tval = v
  trappc : u.csr.trappc = wordOf (pc.toNat / 4 * 4)
  cause : ∃ defd esc vec, u.csr.cause = causeWord c defd esc vec
  loops : u.loops = t.loops
  g : u.g = t.g

theorem State.unpop_of_nothing (s : State) {a : Actor} (hp : (s.thrOf a).popped = []) (hr : (s.thrOf a).reserved = []) :
    s.unpop a = s := by
  simp [State.unpop, hp, hr]

/-- A trap of a user slot, in its handler or at the supervisor (R390, R391). -/
theorem State.takeTrap_user (s : State) {a : Actor} {k i : Nat} (c : Cause) (v : Word) (pc : BitVec 53) (defd : Bool)
    (ha : a = .slot k i) (hi : i ≠ 0) (hp : (s.thrOf a).popped = []) (hr : (s.thrOf a).reserved = []) :
    let u := s.takeTrap a c v pc defd
    u.cur = s.cur ∧ u.mem = s.mem ∧ (s.thrOf a).TookTrap (u.thrOf a) c v pc := by
  subst ha
  simp only [State.takeTrap, s.unpop_of_nothing hp hr]
  split
  case isTrue => exact ⟨by simp, by simp, by simp, by simp, ⟨_, _, _, by simp; rfl⟩, by simp, by simp⟩
  case isFalse =>
    obtain ⟨hcur, hmem, seq, hthr⟩ := State.supervisorTrap_halts (s.setThrOf (.slot k i) _) c hi
    rw [State.thrOf_setThrOf_same] at hthr
    exact ⟨hcur.trans (by simp), hmem.trans (by simp), by rw [hthr], by rw [hthr], ⟨_, _, _, by rw [hthr]⟩, by rw [hthr], by rw [hthr]⟩

/-- The low byte of THR_CAUSE is the cause's code (R385, R389). -/
theorem causeWord_code (c : Cause) (defd esc vec : Bool) : (causeWord c defd esc vec).toNat % 256 = causeCode c := by
  have hcode : causeCode c < 256 := by cases c <;> decide
  have hword : (causeWord c defd esc vec).toNat = causeCode c + 2 ^ 29 * boolNat vec + 2 ^ 30 * boolNat esc + 2 ^ 31 * boolNat defd := by
    have h (b : Bool) : boolNat b ≤ 1 := by cases b <;> decide
    have := h vec; have := h esc; have := h defd
    exact Nat.mod_eq_of_lt (by omega)
  omega

/-! ### SYSC, TRAP and BREAK (R387) -/

/-- An instruction that raises its cause completes first: the trap is that of the completed instruction (R387). -/
theorem raiseOp_eq (f3 : Nat) (c : Cause) (n : BitVec 12) {s : State} (hcan : s.canIssue [] [] true) (hseq : s.nextOk) :
    raiseOp f3 c n s = .next ((s.complete s.cur).takeTrap s.cur c (n.setWidth 64) s.thr.seqNext.1 false) := by
  rw [raiseOp, issue_body rfl rfl rfl hcan]
  simp only [settle, State.checked_nextOk s _ hseq, State.opened_nil, State.thrOf_complete, Thread.pc_goTo]
  rfl

/-- The instructions that raise a cause, each with its own (R387). -/
noncomputable def raisers (n : BitVec 12) : List (Instr × Cause) := [(.sysc n, .syscall), (.trap n, .userTrap), (.break n, .breakpoint)]

theorem exec_raiser {n : BitVec 12} {s : State} (hcan : s.canIssue [] [] true) (hseq : s.nextOk) {x : Instr × Cause} (hx : x ∈ raisers n) :
    exec x.1 s = .next ((s.complete s.cur).takeTrap s.cur x.2 (n.setWidth 64) s.thr.seqNext.1 false) := by
  simp only [raisers, List.mem_cons, List.not_mem_nil, or_false] at hx
  rcases hx with rfl | rfl | rfl
  · exact (exec_sysc n s).trans (raiseOp_eq 4 _ n hcan hseq)
  · exact (exec_trap n s).trans (raiseOp_eq 5 _ n hcan hseq)
  · exact (exec_break n s).trans (raiseOp_eq 7 _ n hcan hseq)

/-- What that trap leaves in the thread of a user slot (R85, R387). -/
theorem State.complete_takeTrap_user {s : State} {k j : Nat} (hcur : s.cur = .slot k j) (hj : j ≠ 0) (c : Cause) (v : Word) :
    let t := (s.complete s.cur).takeTrap s.cur c v s.thr.seqNext.1 false
    t.thr.csr.tval = v ∧ t.thr.csr.trappc.toNat = s.thr.seqNext.1.toNat / 4 * 4 ∧ t.thr.csr.cause.toNat % 256 = causeCode c ∧
      t.thr.loops = s.thr.seqNext.2.1 ∧ (∀ r, t.thr.getG r = s.thr.getG r) ∧ t.mem = s.mem := by
  intro t
  have hthr := s.thrOf_complete s.cur false
  obtain ⟨hcur', hmem, htook⟩ := (s.complete s.cur).takeTrap_user c v s.thr.seqNext.1 false hcur hj (by rw [hthr]; rfl) (by rw [hthr]; rfl)
  have ht : t.thr = t.thrOf s.cur := by rw [State.thr, hcur', State.cur_complete]
  rw [hthr] at htook
  obtain ⟨htval, htrappc, ⟨_, _, _, hcause⟩, hloops, hg⟩ := htook
  rw [ht]
  refine ⟨htval, ?trappc, by rw [hcause, causeWord_code], hloops, fun r => by rw [Thread.getG, hg]; rfl, by rw [hmem, State.mem_complete]⟩
  case trappc =>
    have hpc := s.thr.seqNext.1.isLt
    rw [htrappc, wordOf, BitVec.toNat_ofNat, Nat.mod_eq_of_lt (by omega)]

/-! ### TRET (R388) -/

/-- Bit 0 cleared by its field, and by a mask. -/
theorem setBit_zero_false (w : Word) : setBit w 0 false = w &&& ~~~ (1 : Word) := by
  have hmask : w &&& ~~~ (1 : Word) = (w >>> 1) <<< 1 := by
    refine BitVec.eq_of_getLsbD_eq fun i hi => ?_
    have hone : (1 : Word).getLsbD i = decide (i = 0) := by simp [BitVec.getLsbD_one]
    rw [BitVec.getLsbD_and, BitVec.getLsbD_not, hone, BitVec.getLsbD_shiftLeft, BitVec.getLsbD_ushiftRight]
    cases i with
    | zero => simp
    | succ i => simp [hi, Nat.add_comm 1 i]
  have hw := w.isLt
  apply BitVec.eq_of_toNat_eq
  rw [hmask, shiftLeft_eq_ofNat, ushiftRight_eq_ofNat, setBit, toNat_setBits w _ le_rfl (by decide)]
  simp only [BitVec.toNat_ofNat]
  norm_num
  omega

/-- The return makes at most one entry of the shadow log (R181, R388). -/
theorem Thread.log_trapReturn_le (t : Thread) : t.trapReturn.log.length ≤ t.log.length + 1 := by
  show (t.note _).log.length ≤ _
  unfold Thread.note
  split <;> simp

@[simp] theorem Thread.convoyOpen_trapReturn (t : Thread) : t.trapReturn.convoyOpen = false := rfl
@[simp] theorem Thread.restored_trapReturn (t : Thread) : t.trapReturn.restored = false := rfl

/-- Of the CSRs, the return clears INH alone (R388). -/
theorem Thread.csr_trapReturn (t : Thread) : t.trapReturn.csr = { t.csr with status := t.csr.status &&& ~~~ 1 } := by
  simp [Thread.trapReturn, setBit_zero_false]

@[simp] theorem Thread.getG_trapReturn (t : Thread) (r : Reg) : t.trapReturn.getG r = t.getG r := by simp [Thread.getG]

/-- The end of an instruction that writes no register and goes to a target that is checked (R89). -/
theorem settle_goes {f : Form} {s s' : State} (xs : List Word) {target : BitVec 53} {loops : List LoopLevel} {need back : Bool}
    (hdsts : f.dsts = []) (hcur : s'.cur = s.cur) (hroom : s'.logRoom = true) :
    settle f s xs (.jump s' [] target loops need back) = s.checked need target (s'.goesTo target loops back) := by
  simp only [settle, hdsts, State.putDsts, hroom, if_true, State.goesTo, hcur]

section
variable {s : State} (hcan : s.canIssue [] [] false)
include hcan

theorem exec_tret_outside_handler (h : s.thr.csr.status.getLsbD 0 = false) : exec .tret s = .next (s.trapTurn .illegalInstruction 0x6063) := by
  refine (exec_tret s).trans (issue_trap rfl rfl rfl hcan ?_)
  simp only [State.opened_nil, bitOf, h]
  rfl

/-- Within a handler: to THR_TRAPPC, as far as the check of R89 lets it. -/
theorem exec_tret_in_handler (hroom : s.hasRoom 1) (h : s.thr.csr.status.getLsbD 0 = true) :
    let target := BitVec.ofNat 53 s.thr.csr.trappc.toNat
    exec .tret s = .next (s.checked true target ((s.setThr s.thr.trapReturn).goesTo target s.thr.loops false)) := by
  have hlog : (s.setThr s.thr.trapReturn).logRoom = true :=
    decide_eq_true (by rw [State.thr_setThr]; exact s.thr.log_trapReturn_le.trans hroom)
  refine (exec_tret s).trans ((issue_body rfl rfl rfl hcan).trans ?_)
  simp only [State.opened_nil, bitOf, h, Bool.not_true, Bool.false_eq_true, if_false]
  rw [settle_goes _ rfl (State.cur_setThr _ _) hlog]

end

section
variable (s : State) (pc : BitVec 53) (loops : List LoopLevel) (landing : Bool)

@[simp] theorem State.thr_goesTo : (s.goesTo pc loops landing).thr = s.thr.goTo pc loops landing := by
  simp [State.thr, State.goesTo]

@[simp] theorem State.mem_goesTo : (s.goesTo pc loops landing).mem = s.mem := by simp [State.goesTo]

theorem State.thrOf_goesTo_other {b : Actor} (h : b ≠ s.cur) : (s.goesTo pc loops landing).thrOf b = s.thrOf b := by
  rw [State.goesTo, State.thrOf_countIssue, State.setThr, State.thrOf_setThrOf_other _ _ h]

end

/-- Settles O57: SYSC, TRAP and BREAK complete and then take their trap; TRET by what it finds of INH and of its target. -/
theorem syscTrapBreakAndTret : Obligations.SyscTrapBreakAndTret := by
  unfold Obligations.SyscTrapBreakAndTret
  refine ⟨fun s n k j hcur hj hcan hseq _ x hx => ?user, fun s n hcan hseq _ x hx => exec_raiser hcan hseq hx,
    fun s hcan hroom => ⟨exec_tret_outside_handler hcan, fun hinh hbad => ?bad, fun hinh hmiss => ?miss, fun hinh hok => ?ok⟩⟩
  case user =>
    have hcodes : x ∈ (raisers n).map (fun y => (y.1, causeCode y.2)) := hx
    obtain ⟨y, hy, rfl⟩ := List.mem_map.1 hcodes
    exact ⟨_, exec_raiser hcan hseq hy, State.complete_takeTrap_user hcur hj y.2 _⟩
  case bad => rw [exec_tret_in_handler hcan hroom hinh, State.checked_bad _ hbad]; rfl
  case miss => rw [exec_tret_in_handler hcan hroom hinh, State.checked_miss _ hmiss]
  case ok =>
    refine ⟨_, (exec_tret_in_handler hcan hroom hinh).trans (congrArg _ (State.checked_ok s true _ _ fun _ => beq_iff_eq.2 hok)),
      by simp, by simp, by simp [Thread.csr_trapReturn], by simp, by simp, fun r => by simp, by simp, fun b hb => ?_⟩
    rw [State.thrOf_goesTo_other _ _ _ _ (by rwa [State.cur_setThr]), State.setThr, State.thrOf_setThrOf_other _ _ hb]

end Sys2Proof.Machine
end

section
/-! The reset of a partition: what it leaves, and the events it follows (R422, R423). -/

namespace Sys2Proof.Machine

/-! ### Tables and bytes -/

/-- Entries kept or dropped by their numbers. -/
theorem Tab.find?_filter_number {α : Type} (t : Tab α) (keep : Nat → Bool) (k : Nat) :
    Tab.find? (t.filter fun c => keep c.1) k = if keep k = true then Tab.find? t k else none := by
  induction t with
  | nil => simp
  | cons c t ih =>
    obtain ⟨j, v⟩ := c
    by_cases hj : j = k
    · subst hj
      cases h : keep j <;> simp [Tab.find?, h, ih]
    · cases h : keep j <;> simp [Tab.find?, h, hj, ih]

/-- Entries changed under their numbers. -/
theorem Tab.find?_map_number {α : Type} (t : Tab α) {f : Nat × α → Nat × α} (hf : ∀ c, (f c).1 = c.1) (k : Nat) :
    Tab.find? (t.map f) k = (Tab.find? t k).map fun v => (f (k, v)).2 := by
  induction t with
  | nil => rfl
  | cons c t ih =>
    obtain ⟨j, v⟩ := c
    have hfst : f (j, v) = (j, (f (j, v)).2) := Prod.ext (hf _) rfl
    rw [List.map_cons, hfst, Tab.find?, Tab.find?]
    split
    case isTrue h => subst h; rfl
    case isFalse => exact ih

theorem Memory.byte_writeBytes_same (m : Memory) (a : Nat) (bs : List Byte) {i : Nat} (h : i < bs.length) :
    (m.writeBytes a bs).byte (a + i) = bs[i] := by
  induction bs generalizing m a i with
  | nil => cases h
  | cons b bs ih =>
    rw [Memory.writeBytes]
    cases i with
    | zero => rw [Memory.byte_writeBytes_other _ _ _ _ (by omega)]; simp
    | succ i =>
      rw [show a + (i + 1) = a + 1 + i by omega, ih _ _ (by simpa using h)]
      rfl

/-- A range of memory filled by address. -/
theorem Memory.byte_writeBytes_range (m : Memory) (lo hi : Nat) (f : Nat → Byte) (a : Nat) :
    (m.writeBytes lo ((List.range (hi - lo)).map fun j => f (lo + j))).byte a = if lo ≤ a ∧ a < hi then f a else m.byte a := by
  split
  case isTrue h =>
    obtain ⟨i, rfl⟩ := Nat.exists_eq_add_of_le h.1
    rw [Memory.byte_writeBytes_same _ _ _ (by simp; omega)]
    simp
  case isFalse h => exact Memory.byte_writeBytes_other _ _ _ _ (by simp; omega)

/-! ### PRT_SUPCORE -/

theorem bits_9_0 (w : Word) : bits w 9 0 = w.toNat % 1024 := by rw [bits, fld, pow_zero, Nat.div_one]; rfl

/-- PRI is read back where it stands alone. -/
theorem bits_wordOf_bits_9_0 (w : Word) : bits (wordOf (bits w 9 0)) 9 0 = bits w 9 0 := by
  simp only [bits_9_0, wordOf, BitVec.toNat_ofNat]
  omega

/-- No other supervisor slot is named where BV is 0 or BKP is PRI (R395, assumption 69). -/
theorem otherSupervisor_eq_false {w : Word} (h : w.getLsbD 20 = false ∨ w.toNat / 1024 % 1024 = w.toNat % 1024) :
    otherSupervisor w = false := by
  have hbkp : bits w 19 10 = w.toNat / 1024 % 1024 := rfl
  rw [otherSupervisor, bitOf, hbkp, bits_9_0]
  rcases h with h | h
  · rw [h, Bool.false_and]
  · rw [h, bne_self_eq_false, Bool.and_false]

/-! ### The scrub of a partition's quarter-dies (R422) -/

/-- The quarter-die of a core by its package number, or of an episode core by 1,024 more than its number. -/
def quarterOfUnit (k : Nat) : Nat := if k < 1024 then k / 64 else (k - 1024) / 8

/-- Whether the scrub of a set of quarter-dies takes a core, or an episode core by 1,024 more than its number (R422). -/
def scrubs (qs : BitVec 16) (k : Nat) : Bool := if k < 1024 then inQuarters qs k else qs.getLsbD ((k - 1024) / 8)

theorem scrubs_eq (qs : BitVec 16) (k : Nat) : scrubs qs k = qs.getLsbD (quarterOfUnit k) := by
  unfold scrubs quarterOfUnit
  split <;> rfl

section
variable (s : State) (qs : BitVec 16)

/-- A table of units by their numbers, after the scrub of those that lie in a set of quarter-dies. -/
theorem find?_scrubbed {α : Type} (t : Tab α) (unit : Nat → Nat) (k : Nat) :
    Tab.find? (t.filter fun c => !scrubs qs (unit c.1)) k =
      if qs.getLsbD (quarterOfUnit (unit k)) = true then none else Tab.find? t k := by
  rw [Tab.find?_filter_number t (fun j => !scrubs qs (unit j)), scrubs_eq]
  cases qs.getLsbD (quarterOfUnit (unit k)) <;> rfl

theorem get_scrubbed {α : Type} (d : α) (t : Tab α) (unit : Nat → Nat) (k : Nat) :
    Tab.get d (t.filter fun c => !scrubs qs (unit c.1)) k =
      if qs.getLsbD (quarterOfUnit (unit k)) = true then d else Tab.get d t k := by
  rw [Tab.get, find?_scrubbed]
  split <;> rfl

theorem State.core_scrubQuarters (k : Nat) :
    (s.scrubQuarters qs).core k = if qs.getLsbD (quarterOfUnit k) = true then {} else s.core k :=
  get_scrubbed qs ({} : Core) s.cores (fun j => j) k

theorem State.cluster_scrubQuarters (c : Nat) :
    (s.scrubQuarters qs).cluster c = if qs.getLsbD (quarterOfUnit (16 * c)) = true then {} else s.cluster c :=
  get_scrubbed qs {} s.clusters (16 * ·) c

theorem State.find?_vaults_scrubQuarters (c : Nat) :
    Tab.find? (s.scrubQuarters qs).vaults c = if qs.getLsbD (quarterOfUnit (16 * c)) = true then none else Tab.find? s.vaults c :=
  find?_scrubbed qs s.vaults (16 * ·) c

end

/-! ### What a reset leaves (R422, R423) -/

/-- What a reset leaves of a partition's own registers and tables: its quarter-dies and memory, keys in all 16 slots, its primary
supervisor, and its energy account, full (R422, R430). -/
def Partition.afterReset (x : Partition) : Partition :=
  { quarters := x.quarters, base := x.base, granules := x.granules, built := x.built, homeMap := x.homeMap, keys := 0xFFFF,
    supcore := wordOf (bits x.supcore 9 0), capw := x.capw, bal := (100000 * x.capw.toNat : Nat), accrued := x.accrued }

/-- The thread as which a supervisor starts (R423, assumption 8). -/
def supervisorThread (p : Nat) : Thread := { pc := Config.supervisorEntry p, startCheck := true }

/-- A core with the supervisor loaded in slot 0, its other slots as they were (R423). -/
def Core.withSupervisor (c : Core) (p : Nat) : Core := { c with slots := Tab.set c.slots 0 (supervisorThread p) }

/-- What a reset leaves of an interface: to whom it belongs, and what keeps its packets apart (R422). -/
def Vi.emptied (v : Vi) : Vi :=
  { part := v.part, device := v.device, ctx := v.ctx, key := v.key, lastSeq := v.lastSeq, reply := v.reply }

section
variable (s : State) (p : Nat)

@[simp] theorem State.parts_resetPartition : (s.resetPartition p).parts = Tab.set s.parts p (s.part p).afterReset := rfl
@[simp] theorem State.ctxs_resetPartition : (s.resetPartition p).ctxs = s.ctxs.filter (fun c => c.2.part != p) := rfl
@[simp] theorem State.episodes_resetPartition : (s.resetPartition p).episodes = s.episodes.filter (fun e => e.2.part != p) := rfl
@[simp] theorem State.objs_resetPartition : (s.resetPartition p).objs = s.objs.filter (fun o => o.2.part != p) := rfl
@[simp] theorem State.packets_resetPartition : (s.resetPartition p).packets =
    s.packets.filter (fun q => !((Tab.find? s.ctxs q.ctx).map (fun y => y.part) == some p)) := rfl
@[simp] theorem State.vaults_resetPartition : (s.resetPartition p).vaults = (s.scrubQuarters (s.part p).quarters).vaults := rfl
@[simp] theorem State.cluster_resetPartition (c : Nat) :
    (s.resetPartition p).cluster c = (s.scrubQuarters (s.part p).quarters).cluster c := rfl

theorem State.core_loadSupervisor (k : Nat) : (s.loadSupervisor p).core k =
    if k = bits (s.part p).supcore 9 0 then (s.core k).withSupervisor p else s.core k := by
  unfold State.loadSupervisor
  split
  case isTrue h => rw [h, State.core_setCore_same]; rfl
  case isFalse h => rw [State.core_setCore_other _ _ h]

/-- A reset scrubs the partition's cores, and then loads the supervisor (R422, R423). -/
theorem State.core_resetPartition (k : Nat) : (s.resetPartition p).core k =
    let c := (s.scrubQuarters (s.part p).quarters).core k
    if k = bits (s.part p).supcore 9 0 then c.withSupervisor p else c := by
  refine (State.core_loadSupervisor _ p k).trans ?_
  rw [State.part_setPart_same, bits_wordOf_bits_9_0]
  rfl

/-- The partition's memory holds free values, and every other byte stays (R422, assumption 9). -/
theorem State.byte_resetPartition (a : Nat) : (s.resetPartition p).mem.byte a =
    if 65536 * (s.part p).base ≤ a ∧ a < 65536 * ((s.part p).base + (s.part p).granules) then Config.freeByte s.fresh a else s.mem.byte a :=
  Memory.byte_writeBytes_range s.mem _ _ (Config.freeByte s.fresh) a

/-- The partition's interfaces are emptied, and every other stays (R422). -/
theorem State.find?_vis_resetPartition (v : Nat) : Tab.find? (s.resetPartition p).vis v =
    (Tab.find? s.vis v).map (fun y => if y.part = p then y.emptied else y) := by
  refine (Tab.find?_map_number s.vis (fun c => ?_) v).trans (congrFun (congrArg _ (funext fun y => ?_)) _)
  · split <;> rfl
  · by_cases h : y.part = p
    · simp [h, Vi.emptied]
    · simp [h]

end

/-! ### The events that reset a partition (R421, R423) -/

theorem State.partOfCore_setThrOf (s : State) (a : Actor) (t : Thread) (k : Nat) : (s.setThrOf a t).partOfCore k = s.partOfCore k := by
  simp [State.partOfCore, State.partOfQuarter]

theorem State.isSupervisorCore_setThrOf (s : State) (a : Actor) (t : Thread) (k : Nat) :
    (s.setThrOf a t).isSupervisorCore k = s.isSupervisorCore k := by
  simp [State.isSupervisorCore, State.partOfCore_setThrOf]

/-- A non-recoverable trap in a supervisor slot, where no other is named, resets the partition (R395, R423). -/
theorem State.supervisorTrap_resets {s : State} {k p : Nat} {c : Cause} (hsup : s.isSupervisorCore k = true)
    (hp : s.partOfCore k = some p) (hother : otherSupervisor (s.part p).supcore = false) (hc : recoverable c = false) :
    s.supervisorTrap k 0 c = s.resetPartition p := by
  simp [State.supervisorTrap, hp, hsup, hother, hc]

/-- Such a trap, as it is taken: the reset finds everything but the trapping thread as it was (R390, R395). -/
theorem State.takeTrap_resets {s : State} {k p : Nat} {c : Cause} (v : Word) (pc : BitVec 53) (defd : Bool)
    (hsup : s.isSupervisorCore k = true) (hp : s.partOfCore k = some p) (hother : otherSupervisor (s.part p).supcore = false)
    (hc : recoverable c = false) (hpop : (s.thrOf (.slot k 0)).popped = []) (hres : (s.thrOf (.slot k 0)).reserved = []) :
    ∃ t, s.takeTrap (.slot k 0) c v pc defd = (s.setThrOf (.slot k 0) t).resetPartition p := by
  simp only [State.takeTrap, s.unpop_of_nothing hpop hres, hc, Bool.false_and, Bool.false_eq_true, if_false]
  exact ⟨_, supervisorTrap_resets (by rwa [State.isSupervisorCore_setThrOf]) (by rwa [State.partOfCore_setThrOf])
    (by rwa [State.part_setThrOf]) hc⟩

section
variable {s : State} {p : Nat}

theorem execResizeTimeout_no_part (h : Tab.find? s.parts p = none) : execResizeTimeout p s = .next s := by
  simp [execResizeTimeout, h]

theorem execResizeTimeout_no_resize {x : Partition} (h : Tab.find? s.parts p = some x) (hr : x.resize = none) :
    execResizeTimeout p s = .next s := by
  simp [execResizeTimeout, h, hr]

/-- The timeout resets the partition where no PRT_RESIZE write came within 1.1 × 10^9 A-cycles of the signal (R421). -/
theorem execResizeTimeout_resize {x : Partition} {q : BitVec 16} {n : Nat} (h : Tab.find? s.parts p = some x) (hr : x.resize = some (q, n)) :
    execResizeTimeout p s = .next (if x.moving = false ∧ n + 1100000000 ≤ s.now / 2 then s.resetPartition p else s) := by
  simp only [execResizeTimeout, h, hr, Bool.and_eq_true, Bool.not_eq_true', decide_eq_true_eq]
  split <;> rfl

end

/-! ### The statement -/

/-- Settles O55: the reset field by field, then each event by what its handler does. -/
theorem partitionResetResults : Obligations.PartitionResetResults := by
  unfold Obligations.PartitionResetResults
  refine ⟨fun s p x hx => ?leaves, fun s p v => rfl, fun s p => ⟨fun hp => ?request, fun hp => ?absent⟩, fun s p x hx => ?timeout,
    fun s k i p c hi hsup hp hother hc => ?trap, fun s k p c v pc defd hsup hp hbv hc hpop hres => ?taken⟩
  case leaves =>
    obtain rfl : s.part p = x := by rw [State.part, Tab.get, hx]; rfl
    intro t pri inside lo hi loaded bal emptied
    have hloaded : t.core pri = ((s.scrubQuarters (s.part p).quarters).core pri).withSupervisor p :=
      (s.core_resetPartition p pri).trans (if_pos (bits_9_0 _).symm)
    refine ⟨?part, fun q hq => ?parts, fun c => by simp [t], fun e => by simp [t], fun o => by simp [t], fun k hk => ?core,
      ?loaded, fun hin => ?pri, fun c => s.cluster_scrubQuarters _ c, fun c => s.find?_vaults_scrubQuarters _ c,
      fun q hq => ?packet, fun v y hy => ?vi, fun _ a => s.byte_resetPartition p a⟩
    case part => rw [State.parts_resetPartition, Tab.find?_set_same, Partition.afterReset, bits_9_0]; rfl
    case parts => rw [State.parts_resetPartition, Tab.find?_set_other _ _ hq]
    case core => exact (s.core_resetPartition p k).trans ((if_neg (by rwa [bits_9_0])).trans (s.core_scrubQuarters _ k))
    case loaded => rw [hloaded, Core.withSupervisor, Tab.find?_set_same]; rfl
    case pri => rw [hloaded, (s.core_scrubQuarters _ pri).trans (if_pos hin)]; rfl
    case packet =>
      obtain ⟨_, hforeign⟩ := List.mem_filter.1 hq
      simpa using hforeign
    case vi =>
      rw [State.find?_vis_resetPartition, hy, Option.map_some]
      split
      case isTrue h => rw [Vi.emptied, h]
      case isFalse => rfl
  case request => simp [Option.isSome_iff_ne_none.2 hp, execMgmtResetRequest, execOwnerTagError]
  case absent => simp [hp, execMgmtResetRequest, execOwnerTagError, execResizeTimeout_no_part]
  case timeout =>
    simp only [exec_resizeTimeout]
    refine ⟨fun q n hr hm hn => ?_, fun q n hr h => ?_, execResizeTimeout_no_resize hx⟩
    · rw [execResizeTimeout_resize hx hr, if_pos ⟨hm, hn⟩]
    · rw [execResizeTimeout_resize hx hr, if_neg]
      rintro ⟨hm, hn⟩
      rcases h with h | h
      · exact absurd h (by simp [hm])
      · omega
  case trap => subst hi; exact State.supervisorTrap_resets hsup hp (otherSupervisor_eq_false hother) hc
  case taken =>
    obtain ⟨t, ht⟩ := State.takeTrap_resets v pc defd hsup hp (otherSupervisor_eq_false (.inl hbv)) hc hpop hres
    exact ⟨_, ht, State.mem_setThrOf _ _ _, State.parts_setThrOf _ _ _, fun b hb => State.thrOf_setThrOf_other _ _ hb⟩

end Sys2Proof.Machine
end
